-- ==== Sys2Proof/Word.lean ====
section
/-! DEFINITION. The words of the TVD-8800 (R10, R39, R77): bytes and 32- and 64-bit words, byte order, and the
sparse table keyed by a number in which the model keeps everything that is indexed (connections, extents,
directory entries, ...). -/

namespace Sys2Proof

abbrev Byte := BitVec 8
abbrev Word := BitVec 32
abbrev DWord := BitVec 64

/-- Bits [hi:lo] of a number (the manual's [msb:lsb]). -/
def bits (n hi lo : Nat) : Nat := (n >>> lo) % 2 ^ (hi + 1 - lo)

/-- Bit k of a number. -/
def bit (n k : Nat) : Bool := n.testBit k

/-- 1 for true and 0 for false, as register fields code them. -/
def b2n (b : Bool) : Nat := if b then 1 else 0

/-- The number whose bytes, least significant first, are the list (R39, R202). -/
def leNat : List Byte → Nat
  | [] => 0
  | b :: bs => b.toNat + 256 * leNat bs

/-- The n low bytes of a number, least significant byte first. -/
def leBytes : Nat → Nat → List Byte
  | 0, _ => []
  | n + 1, v => BitVec.ofNat 8 (v % 256) :: leBytes n (v / 256)

/-- The number whose bytes, most significant first, are the list (R77). -/
def beNat (bs : List Byte) : Nat := bs.foldl (fun a b => 256 * a + b.toNat) 0

/-- The n low bytes of a number, most significant byte first. -/
def beBytes (n v : Nat) : List Byte := (leBytes n v).reverse

/-- Bytes off to off + n - 1 of a list; bytes beyond its end read 0. -/
def slice (bs : List Byte) (off n : Nat) : List Byte :=
  let got := (bs.drop off).take n
  got ++ List.replicate (n - got.length) 0

/-- The little-endian field of n bytes at offset off. -/
def leField (bs : List Byte) (off n : Nat) : Nat := leNat ((bs.drop off).take n)

/-- The big-endian field of n bytes at offset off. -/
def beField (bs : List Byte) (off n : Nat) : Nat := beNat (slice bs off n)

/-- Two's complement value of an n-bit number. -/
def signedOf (n v : Nat) : Int := if 2 ^ (n - 1) ≤ v then (v : Int) - (2 ^ n : Nat) else v

/-- The low n bits of an integer, as a number (wrapping). -/
def wrapTo (n : Nat) (v : Int) : Nat := (v % ((2 ^ n : Nat) : Int)).toNat

/-- Addition that stops at 2^n - 1 (the manual's saturating counters). -/
def satAdd (n a b : Nat) : Nat := min (a + b) (2 ^ n - 1)

/-- Ceiling of a / b. -/
def ceilDiv (a b : Nat) : Nat := (a + b - 1) / b

/-! ### Sparse tables -/

/-- A sparse table: pairs of key and value with rising keys. -/
abbrev Tbl (α : Type) := List (Nat × α)

/-- The value of key k, if there is one. -/
def Tbl.get? {α : Type} : Tbl α → Nat → Option α
  | [], _ => none
  | (k, v) :: t, i => if k = i then some v else Tbl.get? t i

/-- The value of key i, or d. -/
def Tbl.getD {α : Type} (t : Tbl α) (i : Nat) (d : α) : α := (Tbl.get? t i).getD d

/-- Store v under key i, keeping the keys rising. -/
def Tbl.put {α : Type} : Tbl α → Nat → α → Tbl α
  | [], i, v => [(i, v)]
  | (k, w) :: t, i, v =>
    if i < k then (i, v) :: (k, w) :: t
    else if k = i then (i, v) :: t
    else (k, w) :: Tbl.put t i v

/-- Remove key i. -/
def Tbl.del {α : Type} (t : Tbl α) (i : Nat) : Tbl α := t.filter (fun e => e.1 != i)

/-- Change the value of key i, if there is one. -/
def Tbl.update {α : Type} (t : Tbl α) (i : Nat) (f : α → α) : Tbl α :=
  match Tbl.get? t i with
  | some v => Tbl.put t i (f v)
  | none => t

/-- Keys held. -/
def Tbl.keys {α : Type} (t : Tbl α) : List Nat := t.map (·.1)

/-- Values held, by rising key. -/
def Tbl.vals {α : Type} (t : Tbl α) : List α := t.map (·.2)

/-- How many entries meet a test. -/
def Tbl.count {α : Type} (t : Tbl α) (p : Nat → α → Bool) : Nat := t.countP (fun e => p e.1 e.2)

/-- The lowest number below n that is no key of the table. -/
def Tbl.lowestFree {α : Type} (t : Tbl α) : Nat → Nat → Option Nat
  | 0, _ => none
  | n + 1, i => if (Tbl.get? t i).isNone then some i else Tbl.lowestFree t n (i + 1)

/-- The keys rise strictly from lo on. -/
def Tbl.risingFrom {α : Type} : Tbl α → Nat → Bool
  | [], _ => true
  | (k, _) :: t, lo => lo ≤ k && Tbl.risingFrom t (k + 1)

end Sys2Proof
end

