-- ==== Sys2Proof/Syntax.lean ====
section
/-! DEFINITION. The commands of the TVD-8800: one constructor of Instr for each row of spec/opcode_table.json, with
the operands a row needs. A row that is the arrival of a JMT message carries the arrival (Rx); the row itself fixes
the TYPE, the JOB_TYPE or the OPCODE, whatever those fields of the operand hold. -/

namespace Sys2Proof

/-- A JMT frame by its header fields (Table 3-3), extension words (R79) and payload bytes (R77). -/
structure Frame where
  ver : BitVec 4 := 1
  ty : BitVec 8 := 0
  flags : BitVec 12 := 0
  hlen : BitVec 8 := 9
  tenant : BitVec 12 := 0
  agent : BitVec 13 := 0
  conn : BitVec 24 := 0
  path : BitVec 8 := 0
  seq : BitVec 32 := 0
  ack : BitVec 32 := 0
  opId : BitVec 32 := 0
  addr : BitVec 64 := 0
  len : BitVec 16 := 0
  status : BitVec 8 := 0
  incarn : BitVec 8 := 0
  ext : List Word := []
  payload : List Byte := []
  deriving DecidableEq, Repr

/-- The MACsec tag of a protected frame (IEEE 802.1AE, Table 3-2): association number, XPN packet number and ICV. -/
structure SecTag where
  an : BitVec 2
  pn : BitVec 64
  icv : BitVec 128
  deriving DecidableEq, Repr

/-- How full the ingress buffer of the port is when the frame arrives (R68). -/
inductive BufferFill where
  | room
  | overHalf
  | full
  deriving DecidableEq, Repr

/-- The ECN codepoint of an arriving frame's IPv6 header, as far as R68 and R89 tell codepoints apart. -/
inductive Ecn where
  | notEct
  | ect
  | ce
  deriving DecidableEq, Repr

/-- The arrival of a frame at a port: what Table 3-7 judges besides the header, and the codewords that FEC corrected in it
(FEC_CORR of Table 3-12). -/
structure Rx where
  port : Nat
  fecOk : Bool := true
  fcsOk : Bool := true
  corrected : Nat := 0
  tag : Option SecTag := none
  dst : BitVec 128 := 0
  src : BitVec 128 := 0
  sport : BitVec 16 := 0
  dport : BitVec 16 := 0x4A4D
  udpOk : Bool := true
  ecn : Ecn := .ect
  fill : BufferFill := .room
  f : Frame
  deriving DecidableEq, Repr

/-- The kinds of memory module that Table 4-2 and R108 name. -/
inductive ModuleKind where
  | rdimm
  | rdimm3ds
  | mrdimm
  | udimm
  | sodimm
  deriving DecidableEq, Repr

/-- One DIMM as its SPD reports it (R108): width of its DRAM devices in bits, capacity in bytes, speed in 100 MT/s. -/
structure Dimm where
  kind : ModuleKind
  ecc : Bool
  width : Nat
  capacity : Nat
  speed : Nat
  deriving DecidableEq, Repr

/-- What bulk-tier training found on one channel (R108): the DIMMs its SPD hub reports, the speed in 100 MT/s that
the channel's signal margins allow, and whether the channel trained at all. -/
structure ChannelPop where
  channel : Nat
  dimms : List Dimm
  margin : Nat
  trains : Bool
  deriving DecidableEq, Repr

/-- One happening a monitor slot may sample (R449): the unit's page, the class of SUB, and the measured value. -/
structure MonSample where
  page : Nat
  cls : Nat
  value : Nat
  deriving DecidableEq, Repr

/-- What a VCORE tick reads (R472, R475): the 24 die sensors in units of 0.125 degrees, and whether the AVSBus
write of this tick is acknowledged. -/
structure VcoreReading where
  sensors : List Int
  acked : Bool
  deriving DecidableEq, Repr

/-- One regulator's answer to a poll (R467): rail index, millivolts, amperes, watts, STATUS_WORD; acked false when
the PMBus transaction was not acknowledged. -/
structure RailReading where
  index : Nat
  mV : Nat
  amps : Nat
  watts : Nat
  status : BitVec 16
  acked : Bool
  deriving DecidableEq, Repr

/-- How the power went (R470, R471): VSTBY kept up or not, and whether some rail exceeded its value by more than
10 %. -/
structure PowerLoss where
  vstby : Bool
  overvolt : Bool
  deriving DecidableEq, Repr

/-- The key of a mirrored operation (R381): the requester's TENANT, AGENT and OP_ID, and for an engine write its
ADDR (0 otherwise). -/
structure TwinKey where
  tenant : BitVec 12
  agent : BitVec 13
  opId : BitVec 32
  addr : BitVec 64 := 0
  deriving DecidableEq, Repr

/-- The commands of the block, in the order of spec/opcode_table.json. -/
inductive Instr where
  /-- POWER_GOOD (R405). Power-good rises and COLD_RESET_N is released; the device starts bring-up with TIME counting from 0 and a random incarnation. -/
  | powerGood
  /-- COLD_RESET_N (R427). The COLD_RESET_N ball is held low for at least 1 us and starts a cold reset by ball. -/
  | coldResetN (heldNs : Nat)
  /-- WARM_RESET_N (R427). The WARM_RESET_N ball is held low for at least 1 us and starts a requested warm reset. -/
  | warmResetN (heldNs : Nat)
  /-- RESET_CMD_WARM (R428). RESET_CMD with KIND 1 and the right KEY runs the requested warm reset sequence of Table 14-9. -/
  | resetCmdWarm
  /-- RESET_CMD_COLD (R428). RESET_CMD with KIND 2 and the right KEY runs the requested cold reset, skipping the rehome list. -/
  | resetCmdCold
  /-- REFCLK_LOST (R465). The reference clock stops for more than 10 us; clocked islands and TIME stop and PP_STICKY.REFCLK_LOST is set. -/
  | refclkLost (stoppedNs : Nat)
  /-- BOOT_IMAGE_VERIFIED (R411). The boot ROM finishes checking the image slots and starts Adith from an accepted slot, or enters boot recovery when both fail. -/
  | bootImageVerified
  /-- NEAR_TIER_TRAINED (R107). Near-tier training completes; failed stacks go FAILED, ports 2-5 come up and Greyscale service is offered in full. -/
  | nearTierTrained (failed : List Nat)
  /-- BULK_TIER_TRAINED (R108). Bulk-tier training completes; refused or failed channels go FAILED and BULK_MAP and BULK_EXTENTS are set. -/
  | bulkTierTrained (pops : List ChannelPop)
  /-- CARVE_CHANGE (R409). At the first entry to full service after a reset, once the request pool has drained, the device lays out the committed carve, reloads the directory and opens the rehome window. -/
  | carveChange
  /-- WATCHDOG_EXPIRY (R415). 250 ms pass without a kick; the Adith controller restarts, or a second expiry within 10 s forces a warm reset. -/
  | watchdogExpiry
  /-- DEVICE_FATAL (R438). Source 0 or 1 is raised; FATAL_LAST and FATAL_TIME are written and a forced warm reset of kind 6 begins within 50 us. -/
  | deviceFatal (cause : Nat)
  /-- PACE_WINDOW (R21). A 1,024 ns window of time base closes and each unit latches its ring handshake count into UNIT_PACE. -/
  | paceWindow (counts : List (Nat × Nat))
  /-- PTP_SYNC (R28). A PTP message on the selected port yields an offset that is slewed or stepped into TIME, and ends holdover. -/
  | ptpSync (port : Nat) (offset : Int)
  /-- HOLDOVER_TIMEOUT (R29). 3 s without a Sync message, or the PTP port going down, puts the time base into holdover and raises the time event. -/
  | holdoverTimeout
  /-- TIME_SET_HI (R27). A write of TIME_SET_HI sets TIME from TIME_SET_LO and TIME_SET_HI, or is refused and sets SET_REFUSED. -/
  | timeSetHi (hi : BitVec 32)
  /-- CTL_RD (R41). A CTL_RD message on a command port reads its words in ascending order as one indivisible access through the arbiter. -/
  | ctlRd (rx : Rx)
  /-- CTL_WR (R41). A CTL_WR message on a command port applies its words in ascending order as one access, with every fan-out, before completing OK. -/
  | ctlWr (rx : Rx)
  /-- REGISTER_WRITE (R10). A write to a register that has no row of its own stores, clears or sets bits under its access code. -/
  | registerWrite (page : Nat) (off : Nat) (value : BitVec 64)
  /-- STAGED_WRITE (R59). A write to a staged register stores the shadow, marks the register written and sets STAGED of its unit. -/
  | stagedWrite (page : Nat) (off : Nat) (value : BitVec 64)
  /-- QUIESCE (R44). QUIESCE written 1 to UNIT_CTRL makes a unit, or by fan-out a group, admit no new work and drain. -/
  | quiesce (page : Nat) (enable : Bool)
  /-- ENABLE (R44). ENABLE written 0 drains a unit and takes it OFF; written 1 with QUIESCE 0 returns it to RUN or GREYSCALE. -/
  | enable (page : Nat) (on : Bool)
  /-- UNIT_RESET (R433). UNIT_RESET written 1 starts a unit reset: the unit stops admitting, completes its work RESET and restarts its logic. -/
  | unitReset (page : Nat)
  /-- DRAIN_DONE (R44). The last admitted work of a draining unit completes and the unit reads QUIESCED or OFF. -/
  | drainDone (page : Nat)
  /-- UNIT_RESET_DONE (R433). A unit reset finishes and the unit reads a working state again, UNIT_RESET clearing itself. -/
  | unitResetDone (page : Nat)
  /-- CFG_COMMIT (R61). A write of CFG_COMMIT_HI runs the commit checks and accepts the staged set or rejects it into Dark hold. -/
  | cfgCommit (seq : BitVec 32)
  /-- CFG_DISCARD (R63). DISCARD written 1 returns every shadow to its running value and clears STAGED in every unit. -/
  | cfgDiscard
  /-- AGENT_KILL (R90). A write of AGENT_KILL declares the named agent dead and starts the reclaim of its connection. -/
  | agentKill (value : BitVec 32)
  /-- JOIN_KEY_INSTALL (R101). INSTALL of JOIN_KEY_INSTALL installs JOIN_KEY0-7 as the join key of the selected tenant. -/
  | joinKeyInstall
  /-- JOIN_KEY_ERASE (R101). ERASE of JOIN_KEY_INSTALL removes the tenant's join key, or returns tenant 0's key to the fused value. -/
  | joinKeyErase
  /-- SA_INSTALL (R98). INSTALL of SA_INSTALL installs the MACsec SA selected by SA_SEL with PN 1. -/
  | saInstall (port : Nat)
  /-- SA_RETIRE (R98). RETIRE of SA_INSTALL erases the MACsec SA selected by SA_SEL. -/
  | saRetire (port : Nat)
  /-- LINK_DOWN (R70). A port loses FEC alignment, declares its link down within 5 us, raises LINK and restarts training. -/
  | linkDown (port : Nat)
  /-- LANE_FAULT (R71). A port loses lanes and, with DEGRADE_EN, retrains at the widest rate its healthy lanes allow. -/
  | laneFault (port : Nat) (lanesOk : BitVec 4)
  /-- LINK_TRAINED (R70). Auto-negotiation and training of a port complete and the port reads LINK_UP at its rate. -/
  | linkTrained (port : Nat)
  /-- MEMBER_REJOIN (R74). A removed lock-group member whose link has been up for 10 ms rejoins and the rotation restarts. -/
  | memberRejoin (group : Nat) (port : Nat)
  /-- LLDP_TRANSMIT (R69). The LLDP interval expires and the port sends its LLDP frame with the Soluenar TLV. -/
  | lldpTransmit (port : Nat)
  /-- JOIN (R92). A JOIN frame is checked under Table 3-11 and answered by ACCEPT or a refusal, opening or replacing the agent's connection. -/
  | joinFrame (rx : Rx)
  /-- LEAVE (R90). A LEAVE frame moves an OPEN connection to LEAVING, admitting nothing more. -/
  | leave (rx : Rx)
  /-- LEAVING_DRAINED (R90). The admitted count of a LEAVING connection reaches 0 and its reclaim starts. -/
  | leavingDrained (conn : Nat)
  /-- RECLAIM_COMPLETE (R156). Every slice finishes the reclaim scan; the connection goes IDLE, a waiting new connection is ACCEPTed and the LEAVE response is sent. -/
  | reclaimComplete (conn : Nat)
  /-- HELLO_PROBE (R86). A HELLO with PROBE 1 and RESP 0 is answered on its path, making the agent's path live. -/
  | helloProbe (rx : Rx)
  /-- HELLO_ANSWER (R86). A probe answer arrives, keeping or making the path live and giving an SRTT sample. -/
  | helloAnswer (rx : Rx)
  /-- HELLO (R86). A HELLO with PROBE 0 carries only keep-alive or an acknowledgement and is not answered. -/
  | hello (rx : Rx)
  /-- UNKNOWN_TYPE (R81). A frame of an unlisted or device-only TYPE from an agent is taken in its SEQ place and completes UNSUPPORTED or is discarded. -/
  | unknownType (rx : Rx)
  /-- ACK_TIMER (R85). 2 us pass since receipt of an unacknowledged frame and the receiver sends its acknowledgement. -/
  | ackTimer (conn : Nat)
  /-- PROBE_TIMER (R86). A live path has had no acknowledged frame for 25 us and a probe is sent on it. -/
  | probeTimer (conn : Nat) (path : Nat)
  /-- PROBE_LOST (R86). A probe goes unanswered for 25 us; after three in a row the path is dropped. -/
  | probeLost (conn : Nat) (path : Nat)
  /-- REPROBE (R86). Every 10 ms a dropped path is probed again. -/
  | reprobe (conn : Nat) (path : Nat)
  /-- RTO_EXPIRY (R88). A sequenced frame is not acknowledged within its RTO and is sent again with RETX, doubling the RTO. -/
  | rtoExpiry (conn : Nat) (seq : BitVec 32)
  /-- CWND_UPDATE (R89). Once per round-trip time a path updates alpha and grows or cuts its congestion window. -/
  | cwndUpdate (conn : Nat) (path : Nat)
  /-- KEEPALIVE (R90). Every 1 ms the device sends a HELLO on each live path. -/
  | keepalive (conn : Nat)
  /-- SILENCE_TIMEOUT (R90). 10 ms without any frame from the agent declares it dead and starts reclaim. -/
  | silenceTimeout (conn : Nat)
  /-- READ (R151). A READ is admitted and served at the home, forwarded to an owner where the line is held M or O. -/
  | read (rx : Rx)
  /-- WRITE (R151). A WRITE is admitted, invalidates sharers and recalls the owner, and is applied at the home. -/
  | write (rx : Rx)
  /-- COMPRESS_WRITE (R275). A WRITE with COMPRESS encodes one block under the slot's newest palette and writes the whole frame. -/
  | compressWrite (rx : Rx)
  /-- FADD_I32 (R219). An atomic 32-bit wrapping add is applied at the home and returns the old value. -/
  | faddI32 (rx : Rx)
  /-- FADD_I64 (R219). An atomic 64-bit wrapping add is applied at the home and returns the old value. -/
  | faddI64 (rx : Rx)
  /-- FADD_F32 (R219). An atomic FP32 add rounded to nearest even is applied at the home and returns the old value. -/
  | faddF32 (rx : Rx)
  /-- SWAP (R219). An atomic swap stores operand A and returns the old value. -/
  | atomicSwap (rx : Rx)
  /-- CAS (R219). An atomic compare-and-swap stores B when the old value equals A bit for bit and returns the old value. -/
  | atomicCas (rx : Rx)
  /-- SMIN (R219). An atomic signed minimum is applied at the home and returns the old value. -/
  | atomicSmin (rx : Rx)
  /-- SMAX (R219). An atomic signed maximum is applied at the home and returns the old value. -/
  | atomicSmax (rx : Rx)
  /-- UMIN (R219). An atomic unsigned minimum is applied at the home and returns the old value. -/
  | atomicUmin (rx : Rx)
  /-- UMAX (R219). An atomic unsigned maximum is applied at the home and returns the old value. -/
  | atomicUmax (rx : Rx)
  /-- AND (R219). An atomic bitwise AND is applied at the home and returns the old value. -/
  | atomicAnd (rx : Rx)
  /-- OR (R219). An atomic bitwise OR is applied at the home and returns the old value. -/
  | atomicOr (rx : Rx)
  /-- XOR (R219). An atomic bitwise XOR is applied at the home and returns the old value. -/
  | atomicXor (rx : Rx)
  /-- GET_S (R144). A GET_S request changes the home state under Table 5-5, serving data or forwarding to the owner. -/
  | getS (rx : Rx)
  /-- GET_M (R144). A GET_M request invalidates or forwards as Table 5-5 lays down and grants M to the requester. -/
  | getM (rx : Rx)
  /-- UPGRADE (R144). An UPGRADE grants M to a holder without data, or is served as GET_M when the requester no longer holds the line. -/
  | upgrade (rx : Rx)
  /-- PUT_M (R144). A PUT_M from the owner writes the line home, or is stale and discarded. -/
  | putM (rx : Rx)
  /-- PUT_O (R144). A PUT_O from the owner writes the line home and leaves the sharers, or is stale and discarded. -/
  | putO (rx : Rx)
  /-- PUT_E (R144). A PUT_E removes a clean holder or sharer from the entry. -/
  | putE (rx : Rx)
  /-- INV_ACK (R149). An INV_ACK answers an INV and may close an INVALIDATING transaction. -/
  | invAck (rx : Rx)
  /-- FWD_DONE (R145). An owner's FWD_DONE reaches the home in a FORWARDING transaction. -/
  | fwdDone (rx : Rx)
  /-- RECV_DONE (R145). A requester's RECV_DONE reaches the home and, with FWD_DONE, closes the forward. -/
  | recvDone (rx : Rx)
  /-- RECALL_ACK (R149). A RECALL_ACK answers a RECALL of a clean line and closes the recall, or counts as NO_DATA for a fetch. -/
  | recallAck (rx : Rx)
  /-- NO_DATA (R149). A NO_DATA answer to a FWD or fetch makes the line ASH and completes the requester LOST. -/
  | noData (rx : Rx)
  /-- DATA_ANSWER (R148). DATA answering a RECALL or fetch is written home and closes the transaction, answering the requester. -/
  | dataAnswer (rx : Rx)
  /-- DIRECT_DATA (R151). An owner's direct DATA for a self-forward of the device is matched by OP_ID and closes the transaction. -/
  | directData (rx : Rx)
  /-- FWD_WAIT_EXPIRY (R148). FWD_WAIT passes after FWD_DONE without RECV_DONE and the home fetches the data itself. -/
  | fwdWaitExpiry (line : Nat)
  /-- COH_WAIT_EXPIRY (R152). A request waiting in a line's queue for COH_WAIT completes TIMEOUT. -/
  | cohWaitExpiry (line : Nat) (op : Nat)
  /-- PEER_INV (R135). An INV arriving on a peer connection is answered INV_ACK. -/
  | peerInv (peer : Nat) (f : Frame)
  /-- PEER_RECALL (R135). A RECALL arriving on a peer connection is answered RECALL_ACK. -/
  | peerRecall (peer : Nat) (f : Frame)
  /-- PEER_FWD (R135). A FWD arriving on a peer connection is answered NO_DATA. -/
  | peerFwd (peer : Nat) (f : Frame)
  /-- CLEAR_ASH (R160). ASH_CLR_CMD GO writes zeros to every ASH line of the range and makes it U. -/
  | clearAsh
  /-- REHOME_WINDOW_CLOSE (R170). The 50 ms rehome window closes and every line still RHM becomes ASH with cause 4. -/
  | rehomeWindowClose
  /-- GRANT (R114). GRANT gives an extent to a tenant, charging quota and starting a zero fill where needed. -/
  | grant
  /-- REVOKE (R119). REVOKE moves a GRANTED extent to REVOKING and starts recalls of the tenant's lines. -/
  | revoke
  /-- RELEASE (R114). RELEASE returns a REVOKED extent to FREE with a zero fill and credits the quota. -/
  | release
  /-- ADD_RIGHTS (R114). ADD_RIGHTS ORs the argument's rights into a GRANTED extent. -/
  | addRights
  /-- SET_DRILL (R114). SET_DRILL sets DRILL_OK of a GRANTED or REVOKED extent. -/
  | setDrill
  /-- ZERO_FILL_DONE (R115). A zero fill completes, clearing FILLING, setting CLEAN and raising EXTENT. -/
  | zeroFillDone (extent : Nat)
  /-- REVOKE_COMPLETE (R119). The admitted count reaches 0 and every INV and RECALL is answered; the extent goes REVOKED with a record. -/
  | revokeComplete (extent : Nat)
  /-- REVOKE_TIMEOUT (R119). T_O is reached; remaining operations complete REVOKED, held M and O lines become Ash and the extent goes REVOKED. -/
  | revokeTimeout (extent : Nat)
  /-- QUOTA_NEAR (R121). A write of QUOTA_NEAR sets the selected tenant's near-tier quota, or is refused above the tier size. -/
  | quotaNear (value : BitVec 32)
  /-- QUOTA_BULK (R121). A write of QUOTA_BULK sets the selected tenant's bulk-tier quota, or is refused above the tier size. -/
  | quotaBulk (value : BitVec 32)
  /-- TIER_WINDOW_END (R124). An observation window ends and each tier manager ranks its tiles and starts up to MOVE_BUDGET moves. -/
  | tierWindowEnd (die : Nat)
  /-- MOVE_COPY_PASS_DONE (R32). A copy pass of a tile move ends; marked lines are copied again or the remap entry is switched. -/
  | moveCopyPassDone (tile : Nat)
  /-- MOVE_SOURCE_FREE (R33). Every access admitted against a moved tile's source has completed and the source frame is freed. -/
  | moveSourceFree (tile : Nat)
  /-- UNMUTE_DONE (R127). A muted tile is unmuted into a bulk frame and the waiting access is served, or fails CHECK. -/
  | unmuteDone (tile : Nat) (decodes : Bool)
  /-- SCRUB_PASS (R112). A channel reads every line of its medium once per SCRUB_CTRL.HOURS and writes back corrected lines. -/
  | scrubPass (page : Nat)
  /-- CORRECTED_WRITEBACK (R110). A line corrected on read is written back within 1 us. -/
  | correctedWriteback (line : Nat)
  /-- XLAT_APPLY (R178). XLAT_APPLY installs the selected tenant's translation context and drops its translations. -/
  | xlatApply
  /-- INVAL (R194). An INVAL message drops every TLB, second-level and pointer entry of the target tenant that overlaps the range. -/
  | inval (rx : Rx)
  /-- INVAL_ANSWER (R194). Every access that used a dropped translation has completed and the INVAL is answered OK. -/
  | invalAnswer (op : Nat)
  /-- WALK_START (R185). A TLB miss that waited for a walker starts its walk in order of arrival. -/
  | walkStart (half : Nat)
  /-- WALK_READ_DONE (R181). A table read of a walk completes and the walk descends, returns a translation or faults. -/
  | walkReadDone (walk : Nat)
  /-- FAULT_BATCH_CLOSE (R188). CLOSE_US passes after a batch's first record and the COLLECTING batch closes, raising source 280. -/
  | faultBatchClose (slot : Nat)
  /-- FAULT_RESUME_RETRY (R190). FAULT_RESUME with ACTION RETRY walks every parked stream of the batch again and frees the slot. -/
  | faultResumeRetry (batch : BitVec 16)
  /-- FAULT_RESUME_ABORT (R190). FAULT_RESUME with ACTION ABORT completes the jobs of the parked streams FAULTED and frees the slot. -/
  | faultResumeAbort (batch : BitVec 16)
  /-- FAULT_LIMIT_CHECK (R191). At each whole millisecond, streams parked longer than LIMIT_MS complete their jobs FAULTED. -/
  | faultLimitCheck
  /-- FILL (R212). A BULK FILL writes a pattern over LENGTH bytes at DST. -/
  | bulkFill (rx : Rx)
  /-- COPY (R215). A BULK COPY copies LENGTH bytes from SRC to DST, writing to peers through peer connections where leaves name them. -/
  | bulkCopy (rx : Rx)
  /-- COMPARE (R213). A BULK COMPARE returns the lowest offset at which A and B differ. -/
  | bulkCompare (rx : Rx)
  /-- REDUCE (R216). A BULK REDUCE combines N vectors element by element in the fixed tree and writes the result. -/
  | bulkReduce (rx : Rx)
  /-- TIER_POLICY (R123). A TIER_POLICY job sets the Blended policy of a range of whole tiles. -/
  | tierPolicy (rx : Rx)
  /-- RECODE (R278). A RECODE job decodes blocks of a compressed tensor and encodes them again under the newest palette. -/
  | recode (rx : Rx)
  /-- MATMUL (R246). A MATMUL job is admitted and divided into output tiles for the matrix arrays. -/
  | matmul (rx : Rx)
  /-- CONVERT (R250). A CONVERT job converts COUNT elements from SRC to DST in runs of 4,096. -/
  | convert (rx : Rx)
  /-- TILE_DEAL (R248). An array becomes free and the next tile or CONVERT run is dealt to it. -/
  | tileDeal (mismatches : List Nat)
  /-- SESSION_OPEN (R298). SESSION_OPEN takes the lowest free handle and records the session's shape with LENGTH 0. -/
  | sessionOpen (rx : Rx)
  /-- SESSION_CLOSE (R299). SESSION_CLOSE waits for earlier jobs of the session and frees its handle. -/
  | sessionClose (rx : Rx)
  /-- KV_APPEND (R300). KV_APPEND converts and places new keys and values into the session's pages and updates LENGTH. -/
  | kvAppend (rx : Rx)
  /-- ATTEND (R307). ATTEND computes attention over the session's pages piece by piece and writes O and LSE. -/
  | attend (rx : Rx)
  /-- WAKE (R311). WAKE moves the BULK and MUTED tiles of the layers' range to the near tier. -/
  | wake (rx : Rx)
  /-- SLEEP (R311). SLEEP mutes the NEAR and BULK tiles of the layers' range. -/
  | sleep (rx : Rx)
  /-- SESSION_JOB_START (R296). A session job waiting behind earlier jobs of its session starts once they complete. -/
  | sessionJobStart (job : Nat)
  /-- PIECE_DEAL (R306). An array becomes free and the next ATTEND piece is dealt to it. -/
  | pieceDeal (mismatches : List Nat)
  /-- TABLE_OPEN (R318). TABLE_OPEN takes a table number and installs version 1 of the shard. -/
  | tableOpen (rx : Rx)
  /-- TABLE_VERSION (R320). TABLE_VERSION installs a new current version of an open table. -/
  | tableVersion (rx : Rx)
  /-- TABLE_CLOSE (R322). TABLE_CLOSE refuses later jobs on the table and waits for its versions to leave residence. -/
  | tableClose (rx : Rx)
  /-- TABLE_CLOSE_DONE (R322). The last resident version of a closing table leaves residence and the table number is freed. -/
  | tableCloseDone (table : Nat)
  /-- GATHER (R330). GATHER binds a version, fetches the rows of valid indices and pools them into bags. -/
  | gather (rx : Rx)
  /-- MERGE_UPDATE (R333). MERGE_UPDATE spreads bag gradients over rows, merges them in passes and updates each row once. -/
  | mergeUpdate (rx : Rx)
  /-- GATHER_DEAL (R324). A gather engine becomes free and the next GATHER or MERGE_UPDATE is dealt to it. -/
  | gatherDeal
  /-- MERGE_ENTRY_CLAIM (R326). A started embedding job that waited for 4,096 free merge entries claims its entries. -/
  | mergeEntryClaim (job : Nat)
  /-- EMB_WINDOW_END (R338). An embedding load window ends; fetches and tracker maxima are latched, source 364 may be raised and hot promotions fall due. -/
  | embWindowEnd
  /-- HOT_PROMOTION_BATCH (R340). Once no MERGE_UPDATE of the version runs, its due hot-row promotions are made as one batch. -/
  | hotPromotionBatch (table : Nat) (version : Nat)
  /-- COLL_OPEN (R348). COLL_OPEN takes a collection number and zeroes its journal, bitmaps, directory 0 and heap map. -/
  | collOpen (rx : Rx)
  /-- COLL_CLOSE (R356). COLL_CLOSE waits for earlier jobs and frees the collection number. -/
  | collClose (rx : Rx)
  /-- INSERT (R357). INSERT writes vectors and norms, appends side records and advances the epoch. -/
  | insertJob (rx : Rx)
  /-- DELETE (R358). DELETE appends side records, clears live bits, quarantines the IDs and advances the epoch. -/
  | deleteJob (rx : Rx)
  /-- SEARCH (R364). SEARCH binds an epoch and generation and returns the K best items per query. -/
  | searchJob (rx : Rx)
  /-- QUERY_DEAL (R362). An array free on a running search half's die takes the next query of a SEARCH. -/
  | queryDeal
  /-- MERGE (R368). MERGE consumes side records and builds the next generation of buckets with checkpoints. -/
  | mergeColl (rx : Rx)
  /-- MERGE_SWITCH (R370). A merge finishes its output and makes generation g + 1 current in one indivisible switch. -/
  | mergeSwitch (coll : Nat)
  /-- MERGE_DRAIN (R370). No query of the old generation remains; retired granules, consumed records and quarantines are released and MERGE completes. -/
  | mergeDrain (coll : Nat)
  /-- MERGE_RESUME (R371). MERGE_RESUME with ACTION RESUME continues a pending merge from its last valid checkpoint. -/
  | mergeResume (rx : Rx)
  /-- MERGE_ABANDON (R371). MERGE_RESUME with ACTION ABANDON clears the journal of a pending merge. -/
  | mergeAbandon (rx : Rx)
  /-- JOB_COMPLETION (R209). A job or bulk operation finishes its work and its completion record is sent or written. -/
  | jobCompletion (job : Nat)
  /-- TIME_LIMIT_EXPIRY (R211). A job's TIME_LIMIT expires; it stops issuing accesses and completes TIMEOUT. -/
  | timeLimitExpiry (job : Nat)
  /-- POOL_HIGH (R226). Any write of POOL_HIGH sets it to the current POOL_USED. -/
  | poolHigh (half : Nat)
  /-- PEER_OPEN (R227). PEER_CMD OPEN sends a JOIN to the selected peer to open a peer connection. -/
  | peerOpen
  /-- PEER_CLOSE (R227). PEER_CMD CLOSE sends LEAVE on the selected peer connection. -/
  | peerClose
  /-- PEER_ACCEPT (R227). A peer's answer to the device's JOIN arrives, or 10 ms pass, and PEER_STAT takes the outcome. -/
  | peerAccept (peer : Nat) (answer : Option Frame)
  /-- PEER_WRITE_RESPONSE (R217). A peer answers a peer WRITE; STALE_INCARNATION closes the peer connection and raises source 323. -/
  | peerWriteResponse (peer : Nat) (f : Frame)
  /-- PAL_INSTALL (R270). PAL_CMD INSTALL installs PAL_DATA as the slot's newest generation, or completes BUSY. -/
  | palInstall
  /-- PAL_BUILD (R273). PAL_CMD BUILD requests a palette build from the next 64 blocks written to the slot. -/
  | palBuild
  /-- PAL_CONFIG (R290). PAL_CMD CONFIG applies PAL_CFG's SMODE, ENC_MODE and AUTO to the slot. -/
  | palConfig
  /-- PAL_CLEAR (R290). PAL_CMD CLEAR retires both generations and returns the slot to UNCONFIGURED. -/
  | palClear
  /-- PAL_READ (R290). PAL_CMD READ copies the selected generation's lengths into PAL_DATA. -/
  | palRead
  /-- BUILD_START (R274). A waiting palette build takes a free histogram unit and starts counting. -/
  | buildStart (slot : Nat)
  /-- PENDING_INSTALL (R270). The older generation's count reaches 0 and a pending built palette is installed. -/
  | pendingInstall (slot : Nat)
  /-- PENDING_INSTALL_WAIT (R291). A pending install has waited 10 ms for the older generation to drain and source 346 is raised. -/
  | pendingInstallWait (slot : Nat)
  /-- PAIR_KEY_INSTALL (R377). INSTALL of PAIR_KEY_INSTALL installs PAIR_KEY0-7 as the pair key. -/
  | pairKeyInstall
  /-- PAIR_KEY_ERASE (R377). ERASE of PAIR_KEY_INSTALL erases the pair key. -/
  | pairKeyErase
  /-- PAIR_HELLO (R380). A PAIR_HELLO is checked by token and nonce echo and answered, opening or refreshing a twin path. -/
  | pairHello (rx : Rx)
  /-- PAIR_HELLO_TIMER (R380). Every 10 ms a PAIR_HELLO with ECHO 0 is sent on each twin path that is not live. -/
  | pairHelloTimer
  /-- BEAT (R395). A BEAT arrives from the partner, showing it is alive. -/
  | beat (rx : Rx)
  /-- BEAT_TIMER (R395). Every 100 us a BEAT is sent on every live twin path. -/
  | beatTimer
  /-- TWIN_SILENCE_TIMEOUT (R395). 2 ms without any frame on the twin ports moves every HOLD, SHADOW or GIVING extent to LOST. -/
  | twinSilenceTimeout
  /-- RENEW_TIMER (R393). Every 1 ms a RENEW with the lease digest and orphan keys is sent. -/
  | renewTimer
  /-- RENEW (R393). A RENEW is compared with the local view; a mismatch starts LEASE_LIST exchange and orphans are adopted. -/
  | renew (rx : Rx)
  /-- LEASE_LIST (R393). A LEASE_LIST settles each mirrored extent by the higher GEN, or to CONFLICT. -/
  | leaseList (rx : Rx)
  /-- LEASE_MOVE (R392). LEASE_CMD MOVE puts a held extent in GIVING, admitting no new mirrored operation. -/
  | leaseMove
  /-- LEASE_GIVE (R392). Every admitted operation of a GIVING extent reaches PHASE 2 and GIVE is sent with GEN + 1. -/
  | leaseGive (extent : Nat)
  /-- GIVE (R392). A GIVE received in SHADOW makes the device the holder at the carried GEN, sending TAKE. -/
  | give (rx : Rx)
  /-- TAKE (R392). A TAKE received in GIVING moves the extent to SHADOW and hands over waiting requests. -/
  | take (rx : Rx)
  /-- HANDOVER (R389). A HANDOVER is taken by the holder, which answers TAKEN, or sent back by a non-holder. -/
  | handover (rx : Rx)
  /-- TAKEN (R389). TAKEN arrives and the sender of a HANDOVER drops its copy. -/
  | taken (rx : Rx)
  /-- DONE (R389). DONE arrives at the front, which answers the agent and frees the front entry. -/
  | twinDone (rx : Rx)
  /-- MIRROR (R385). A MIRROR creates a shadow, is applied to the local copy and answered MIRROR_ACK. -/
  | mirror (rx : Rx)
  /-- MIRROR_ACK (R385). MIRROR_ACK lets the holder apply its own copy and answer the mirrored operation. -/
  | mirrorAck (rx : Rx)
  /-- RETIRE (R385). RETIRE frees the shadow of an answered mirrored operation. -/
  | retire (rx : Rx)
  /-- MIRROR_QUEUE_ROOM (R387). Room frees in the mirror queue and a mirrored operation waiting at admission is admitted. -/
  | mirrorQueueRoom
  /-- ORPHAN_TIMEOUT (R390). A HANDOVER copy has had no TAKEN for 200 us and becomes a parked orphan. -/
  | orphanTimeout (key : TwinKey)
  /-- ORPHAN_STATE (R391). ORPHAN_STATE delivers an orphan's request and phase to the adopting holder. -/
  | orphanState (rx : Rx)
  /-- TWIN_COPY (R400). A COPY frame of resynchronisation writes 4,096 bytes of a dirty extent at the partner. -/
  | twinCopy (rx : Rx)
  /-- CHECKPOINT (R401). A CHECKPOINT records 64 MiB of resynchronisation done for the extent. -/
  | checkpoint (rx : Rx)
  /-- RESYNC_EXTENT_DONE (R400). The last marked chunks of a dirty extent are copied; the lease goes HOLD and SHADOW and the dirty bit clears. -/
  | resyncExtentDone (extent : Nat)
  /-- TWIN_EXT_CMD (R383). An extent command carried from the partner is applied locally and answered EXT_DONE. -/
  | twinExtCmd (rx : Rx)
  /-- EXT_DONE (R383). EXT_DONE from the partner settles a carried extent command and sets EXT_STAT.RESULT. -/
  | extDone (rx : Rx)
  /-- RESET_NOTICE (R399). A RESET_NOTICE from the partner starts a takeover without a witness. -/
  | resetNotice (rx : Rx)
  /-- FORM (R394). TWIN_WITNESS FORM puts NONE and eligible FENCED extents in HOLD with a new GEN. -/
  | witnessForm
  /-- CONFIRM (R394). TWIN_WITNESS CONFIRM declares the partner incarnation failed and takes every LOST extent to SOLO. -/
  | witnessConfirm (incarn : BitVec 8)
  /-- FENCE (R394). TWIN_WITNESS FENCE puts every lease of the device in FENCED. -/
  | witnessFence
  /-- TAKEOVER_HOLD_EXPIRY (R398). TAKEOVER_HOLD passes after takeover and the takeover table entries expire. -/
  | takeoverHoldExpiry
  /-- GET_VERSION (R418). SPDM GET_VERSION is answered with VERSION listing 1.2. -/
  | getVersion
  /-- GET_CAPABILITIES (R418). SPDM GET_CAPABILITIES is answered with the device's capabilities. -/
  | getCapabilities
  /-- NEGOTIATE_ALGORITHMS (R418). SPDM NEGOTIATE_ALGORITHMS selects RSASSA-PSS 3072 and SHA-256, or answers ERROR. -/
  | negotiateAlgorithms
  /-- GET_DIGESTS (R418). SPDM GET_DIGESTS returns the digest of certificate slot 0. -/
  | getDigests
  /-- GET_CERTIFICATE (R418). SPDM GET_CERTIFICATE returns a portion of the slot 0 chain. -/
  | getCertificate
  /-- CHALLENGE (R418). SPDM CHALLENGE is answered with a signed response over slot 0. -/
  | challenge
  /-- GET_MEASUREMENTS (R418). SPDM GET_MEASUREMENTS returns the measurement blocks of Table 14-4, signed on request. -/
  | getMeasurements
  /-- FW_ERASE (R414). FW_CMD ERASE erases the selected non-running image slot. -/
  | fwErase
  /-- FW_WRITE (R414). FW_CMD WRITE writes FW_WINDOW into the slot at FW_OFFSET. -/
  | fwWrite
  /-- FW_VERIFY (R414). FW_CMD VERIFY applies the boot checks to the selected slot. -/
  | fwVerify
  /-- FW_ACTIVATE (R414). FW_CMD ACTIVATE writes the slot choice when the last VERIFY of the slot passed. -/
  | fwActivate
  /-- SVN_BURN (R412). SVN_BURN burns fuses until FUSE_SVN equals TARGET, or is refused. -/
  | svnBurn (target : Nat)
  /-- EVENT_RECORD (R442). The free event controller writes the record of the lowest pending unmasked source and marks it outstanding. -/
  | eventRecord
  /-- BEACON_REPEAT (R444). The ring has stayed non-empty for REPEAT_MS and a beacon is sent again. -/
  | beaconRepeat
  /-- BEACON_DEFERRED (R444). A beacon that fell due within 1 us of the last is sent at the end of the spacing. -/
  | beaconDeferred
  /-- EV_DONE (R446). EV_DONE clears a source's outstanding and pending bits and re-samples level sources. -/
  | evDone (source : Nat)
  /-- EV_COUNT_CLR (R460). EV_COUNT_CLR sets the named source's count to 0. -/
  | evCountClr (source : Nat)
  /-- EV_MASK (R447). A write of an EV_MASK word stores the mask bits and re-samples the word's level sources. -/
  | evMask (word : Nat) (value : BitVec 32)
  /-- EV_PEND (R447). A write of an EV_PEND word clears pending bits, makes soft raises and re-samples level sources. -/
  | evPend (word : Nat) (value : BitVec 32)
  /-- EV_HEAD (R441). A write of EV_HEAD frees ring places and sends a beacon if the ring is still not empty. -/
  | evHead (value : BitVec 32)
  /-- EV_RING_CTRL (R440). A write of EV_RING_CTRL checks and sets the ring, resetting EV_HEAD and EV_TAIL, or sets RING_BAD. -/
  | evRingCtrl (value : BitVec 32)
  /-- MON_CTRL (R449). A write of MON_CTRL starts or stops a monitor slot, checking its probe and requesting a histogram unit. -/
  | monCtrl (slot : Nat) (value : BitVec 32)
  /-- MON_SAMPLE (R449). A monitor slot takes a sample of its probe, periodically or at a completion. -/
  | monSample (slot : Nat) (sample : MonSample)
  /-- MON_WINDOW_CLOSE (R450). A monitor window closes; results are latched, the alarm test made and the next window opened. -/
  | monWindowClose (slot : Nat)
  /-- HIST_UNIT_GRANT (R452). A waiting monitor slot takes a histogram unit of its tier codec in turn. -/
  | histUnitGrant (codec : Nat)
  /-- DRILL_ARM (R454). DRILL_ARM with a non-zero key arms the staged drill for 100 ms. -/
  | drillArm (key : BitVec 16)
  /-- DRILL_ARM_LAPSE (R454). 100 ms pass without a matching FIRE and the armed drill lapses. -/
  | drillArmLapse
  /-- DRILL_FIRE (R454). DRILL_FIRE with the armed key checks the drill and starts its effect, or refuses it. -/
  | drillFire (key : BitVec 16)
  /-- DRILL_STOP (R454). DRILL_STOP ends the active drill effect at once. -/
  | drillStop
  /-- DRILL_END (R455). A drill effect reaches its natural end (duration, correction, reclaim or recall timeout) and source 593 is raised. -/
  | drillEnd
  /-- VCORE_TICK (R472). Every 1 ms the device computes its limits and sends the VCORE request over AVSBus. -/
  | vcoreTick (reading : VcoreReading)
  /-- PMBUS_POLL (R467). Every 1 ms the device polls each regulator's voltage, current, power and status. -/
  | pmbusPoll (rails : List RailReading)
  /-- THERMTRIP (R477). TJ_MAX reaches 115 °C and the device asserts THERMTRIP_N and sets PP_STICKY.THERMTRIP. -/
  | thermtrip (tj : Int)
  /-- POWER_DOWN (R470). POWER_GOOD is deasserted and the rails, VSTBY possibly included, are removed in order or lost unsequenced; the store contents and, without VSTBY, the held incarnation are lost. -/
  | powerDown (loss : PowerLoss)
  /-- THROTTLE_CROSSING (R475). TJ_MAX crosses THROTTLE_C in either direction, which sets or clears PP_STAT.THERM and holds or drops level source 6. -/
  | throttleCrossing (tj : Int)
  /-- UNASSIGNED_JOB_TYPE (R204). A JOB or BULK message whose JOB_TYPE is unassigned completes UNSUPPORTED at step 2 of Table 7-3. -/
  | unassignedJobType (rx : Rx)
  /-- ATOMIC_BAD_OPCODE (R218). An ATOMIC whose OPCODE is not in Table 7-6 completes UNSUPPORTED. -/
  | atomicBadOpcode (rx : Rx)
  /-- SPDM_UNSUPPORTED_REQUEST (R418). SPDM_CMD GO with a request outside Table 14-3 is answered ERROR with code UnsupportedRequest. -/
  | spdmUnsupportedRequest
  /-- TWIN_UNKNOWN_KIND (R381). A TWIN frame of an unknown KIND is dropped and counted in RX_DROP_HDR. -/
  | twinUnknownKind (rx : Rx)
  /-- EXT_CMD_UNUSED (R114). A write of EXT_CMD with CMD 0, 6 or 7 changes nothing and sets EXT_STAT.RESULT to UNSUPPORTED. -/
  | extCmdUnused (cmd : Nat)
  /-- FAULT_RESUME_BAD_ACTION (R190). FAULT_RESUME with ACTION 2 or 3 changes nothing, leaves the batch CLOSED and counts in RESUME_BAD with RESULT UNSUPPORTED. -/
  | faultResumeBadAction (batch : BitVec 16) (action : Nat)
  /-- RESET_CMD_BAD_KEY (R427). A RESET_CMD whose KEY is not 0x7E57 is ignored and counts in ROOT.CTL_REFUSED. -/
  | resetCmdBadKey (key : BitVec 16)
  /-- JOIN_KEY_INSTALL_REFUSED (R101). A write of JOIN_KEY_INSTALL with both INSTALL and ERASE set, or with neither, changes nothing and counts in ROOT.CTL_REFUSED. -/
  | joinKeyInstallRefused (both : Bool)
  deriving DecidableEq, Repr

end Sys2Proof
end

