-- ==== Sys2Proof/WellFormed.lean ====
section
/-! DEFINITION. Well-formed commands: every operand within the range that the manual gives it. The machine answers
every command, well formed or not; an operand out of range names nothing the device has. -/

namespace Sys2Proof

/-- An arrival at one of the 40 ports (R65), with a payload that LEN can count (Table 3-3). -/
def Rx.wf (rx : Rx) : Bool := decide (rx.port < 40 ∧ rx.f.payload.length < 65536)

/-- Every operand of a command lies in its range. -/
def Instr.wf (i : Instr) : Bool :=
  match i with
  | .powerGood => true
  | .coldResetN heldNs => decide (1000 ≤ heldNs)
  | .warmResetN heldNs => decide (1000 ≤ heldNs)
  | .resetCmdWarm => true
  | .resetCmdCold => true
  | .refclkLost stoppedNs => decide (10000 < stoppedNs)
  | .bootImageVerified => true
  | .nearTierTrained failed => failed.all fun n => decide (n < 8)
  | .bulkTierTrained pops => pops.all fun p => decide (p.channel < 16)
  | .carveChange => true
  | .watchdogExpiry => true
  | .deviceFatal cause => decide (cause < 2)
  | .paceWindow counts => counts.all fun c => decide (c.1 < 65536)
  | .ptpSync port _ => decide (port < 40)
  | .holdoverTimeout => true
  | .timeSetHi _ => true
  | .ctlRd rx => rx.wf
  | .ctlWr rx => rx.wf
  | .registerWrite page off _ => decide (page < 65536) && decide (off < 4096 ∧ off % 4 = 0)
  | .stagedWrite page off _ => decide (page < 65536) && decide (off < 4096 ∧ off % 4 = 0)
  | .quiesce page _ => decide (page < 65536)
  | .enable page _ => decide (page < 65536)
  | .unitReset page => decide (page < 65536)
  | .drainDone page => decide (page < 65536)
  | .unitResetDone page => decide (page < 65536)
  | .cfgCommit _ => true
  | .cfgDiscard => true
  | .agentKill _ => true
  | .joinKeyInstall => true
  | .joinKeyErase => true
  | .saInstall port => decide (port < 40)
  | .saRetire port => decide (port < 40)
  | .linkDown port => decide (port < 40)
  | .laneFault port _ => decide (port < 40)
  | .linkTrained port => decide (port < 40)
  | .memberRejoin group port => decide (group < 20) && decide (port < 40)
  | .lldpTransmit port => decide (port < 40)
  | .joinFrame rx => rx.wf
  | .leave rx => rx.wf
  | .leavingDrained conn => decide (0 < conn ∧ conn < 16777216)
  | .reclaimComplete conn => decide (0 < conn ∧ conn < 16777216)
  | .helloProbe rx => rx.wf
  | .helloAnswer rx => rx.wf
  | .hello rx => rx.wf
  | .unknownType rx => rx.wf
  | .ackTimer conn => decide (0 < conn ∧ conn < 16777216)
  | .probeTimer conn path => decide (0 < conn ∧ conn < 16777216) && decide (path < 256)
  | .probeLost conn path => decide (0 < conn ∧ conn < 16777216) && decide (path < 256)
  | .reprobe conn path => decide (0 < conn ∧ conn < 16777216) && decide (path < 256)
  | .rtoExpiry conn _ => decide (0 < conn ∧ conn < 16777216)
  | .cwndUpdate conn path => decide (0 < conn ∧ conn < 16777216) && decide (path < 256)
  | .keepalive conn => decide (0 < conn ∧ conn < 16777216)
  | .silenceTimeout conn => decide (0 < conn ∧ conn < 16777216)
  | .read rx => rx.wf
  | .write rx => rx.wf
  | .compressWrite rx => rx.wf
  | .faddI32 rx => rx.wf
  | .faddI64 rx => rx.wf
  | .faddF32 rx => rx.wf
  | .atomicSwap rx => rx.wf
  | .atomicCas rx => rx.wf
  | .atomicSmin rx => rx.wf
  | .atomicSmax rx => rx.wf
  | .atomicUmin rx => rx.wf
  | .atomicUmax rx => rx.wf
  | .atomicAnd rx => rx.wf
  | .atomicOr rx => rx.wf
  | .atomicXor rx => rx.wf
  | .getS rx => rx.wf
  | .getM rx => rx.wf
  | .upgrade rx => rx.wf
  | .putM rx => rx.wf
  | .putO rx => rx.wf
  | .putE rx => rx.wf
  | .invAck rx => rx.wf
  | .fwdDone rx => rx.wf
  | .recvDone rx => rx.wf
  | .recallAck rx => rx.wf
  | .noData rx => rx.wf
  | .dataAnswer rx => rx.wf
  | .directData rx => rx.wf
  | .fwdWaitExpiry line => decide (line < 2 ^ 41)
  | .cohWaitExpiry line _ => decide (line < 2 ^ 41)
  | .peerInv peer _ => decide (peer < 64)
  | .peerRecall peer _ => decide (peer < 64)
  | .peerFwd peer _ => decide (peer < 64)
  | .clearAsh => true
  | .rehomeWindowClose => true
  | .grant => true
  | .revoke => true
  | .release => true
  | .addRights => true
  | .setDrill => true
  | .zeroFillDone extent => decide (extent < 131072)
  | .revokeComplete extent => decide (extent < 131072)
  | .revokeTimeout extent => decide (extent < 131072)
  | .quotaNear _ => true
  | .quotaBulk _ => true
  | .tierWindowEnd die => decide (die < 2)
  | .moveCopyPassDone tile => decide (2 ^ 28 ≤ tile ∧ tile < 2 ^ 31)
  | .moveSourceFree tile => decide (2 ^ 28 ≤ tile ∧ tile < 2 ^ 31)
  | .unmuteDone tile _ => decide (2 ^ 28 ≤ tile ∧ tile < 2 ^ 31)
  | .scrubPass page => decide (page < 65536)
  | .correctedWriteback line => decide (line < 2 ^ 41)
  | .xlatApply => true
  | .inval rx => rx.wf
  | .invalAnswer _ => true
  | .walkStart half => decide (half < 2)
  | .walkReadDone _ => true
  | .faultBatchClose slot => decide (slot < 1024)
  | .faultResumeRetry _ => true
  | .faultResumeAbort _ => true
  | .faultLimitCheck => true
  | .bulkFill rx => rx.wf
  | .bulkCopy rx => rx.wf
  | .bulkCompare rx => rx.wf
  | .bulkReduce rx => rx.wf
  | .tierPolicy rx => rx.wf
  | .recode rx => rx.wf
  | .matmul rx => rx.wf
  | .convert rx => rx.wf
  | .tileDeal mismatches => mismatches.all (· ≤ 2)
  | .sessionOpen rx => rx.wf
  | .sessionClose rx => rx.wf
  | .kvAppend rx => rx.wf
  | .attend rx => rx.wf
  | .wake rx => rx.wf
  | .sleep rx => rx.wf
  | .sessionJobStart _ => true
  | .pieceDeal mismatches => mismatches.all (· ≤ 2)
  | .tableOpen rx => rx.wf
  | .tableVersion rx => rx.wf
  | .tableClose rx => rx.wf
  | .tableCloseDone table => decide (table < 1024)
  | .gather rx => rx.wf
  | .mergeUpdate rx => rx.wf
  | .gatherDeal => true
  | .mergeEntryClaim _ => true
  | .embWindowEnd => true
  | .hotPromotionBatch table _ => decide (table < 1024)
  | .collOpen rx => rx.wf
  | .collClose rx => rx.wf
  | .insertJob rx => rx.wf
  | .deleteJob rx => rx.wf
  | .searchJob rx => rx.wf
  | .queryDeal => true
  | .mergeColl rx => rx.wf
  | .mergeSwitch coll => decide (coll < 256)
  | .mergeDrain coll => decide (coll < 256)
  | .mergeResume rx => rx.wf
  | .mergeAbandon rx => rx.wf
  | .jobCompletion _ => true
  | .timeLimitExpiry _ => true
  | .poolHigh half => decide (half < 2)
  | .peerOpen => true
  | .peerClose => true
  | .peerAccept peer _ => decide (peer < 64)
  | .peerWriteResponse peer _ => decide (peer < 64)
  | .palInstall => true
  | .palBuild => true
  | .palConfig => true
  | .palClear => true
  | .palRead => true
  | .buildStart slot => decide (slot < 4096)
  | .pendingInstall slot => decide (slot < 4096)
  | .pendingInstallWait slot => decide (slot < 4096)
  | .pairKeyInstall => true
  | .pairKeyErase => true
  | .pairHello rx => rx.wf
  | .pairHelloTimer => true
  | .beat rx => rx.wf
  | .beatTimer => true
  | .twinSilenceTimeout => true
  | .renewTimer => true
  | .renew rx => rx.wf
  | .leaseList rx => rx.wf
  | .leaseMove => true
  | .leaseGive extent => decide (extent < 131072)
  | .give rx => rx.wf
  | .take rx => rx.wf
  | .handover rx => rx.wf
  | .taken rx => rx.wf
  | .twinDone rx => rx.wf
  | .mirror rx => rx.wf
  | .mirrorAck rx => rx.wf
  | .retire rx => rx.wf
  | .mirrorQueueRoom => true
  | .orphanTimeout _ => true
  | .orphanState rx => rx.wf
  | .twinCopy rx => rx.wf
  | .checkpoint rx => rx.wf
  | .resyncExtentDone extent => decide (extent < 131072)
  | .twinExtCmd rx => rx.wf
  | .extDone rx => rx.wf
  | .resetNotice rx => rx.wf
  | .witnessForm => true
  | .witnessConfirm _ => true
  | .witnessFence => true
  | .takeoverHoldExpiry => true
  | .getVersion => true
  | .getCapabilities => true
  | .negotiateAlgorithms => true
  | .getDigests => true
  | .getCertificate => true
  | .challenge => true
  | .getMeasurements => true
  | .fwErase => true
  | .fwWrite => true
  | .fwVerify => true
  | .fwActivate => true
  | .svnBurn target => decide (target < 256)
  | .eventRecord => true
  | .beaconRepeat => true
  | .beaconDeferred => true
  | .evDone source => decide (source < 1024)
  | .evCountClr source => decide (source < 1024)
  | .evMask word _ => decide (word < 32)
  | .evPend word _ => decide (word < 32)
  | .evHead _ => true
  | .evRingCtrl _ => true
  | .monCtrl slot _ => decide (slot < 64)
  | .monSample slot _ => decide (slot < 64)
  | .monWindowClose slot => decide (slot < 64)
  | .histUnitGrant codec => decide (codec < 2)
  | .drillArm _ => true
  | .drillArmLapse => true
  | .drillFire _ => true
  | .drillStop => true
  | .drillEnd => true
  | .vcoreTick reading => decide (reading.sensors.length = 24)
  | .pmbusPoll _ => true
  | .thermtrip _ => true
  | .powerDown _ => true
  | .throttleCrossing _ => true
  | .unassignedJobType rx => rx.wf
  | .atomicBadOpcode rx => rx.wf
  | .spdmUnsupportedRequest => true
  | .twinUnknownKind rx => rx.wf
  | .extCmdUnused cmd => decide (cmd = 0 ∨ cmd = 6 ∨ cmd = 7)
  | .faultResumeBadAction _ action => decide (action = 2 ∨ action = 3)
  | .resetCmdBadKey key => decide (key ≠ 0x7E57)
  | .joinKeyInstallRefused _ => true

end Sys2Proof
end

