-- ==== Sys2Proof/Machine/Float.lean ====
section
/-! DEFINITION. Arithmetic (08_matrix_formats.md): the number formats, FP32 operations, conversion and rounding,
stochastic rounding, exp and ln of the softmax lanes, and the fixed trees. An FP32 value is the number of its 32 bits. -/

namespace Sys2Proof.Machine

/-- A value of a format: NaN, an infinity, or (-1)^neg * m * 2^e. -/
inductive Fp where
  | nan
  | inf (neg : Bool)
  | fin (neg : Bool) (m : Nat) (e : Int)
  deriving DecidableEq, Repr

/-- The canonical FP32 NaN (R234). -/
def f32Nan : Nat := 0x7FC00000
def f32Inf : Nat := 0x7F800000
def f32NegInf : Nat := 0xFF800000

/-- The sign bit of an FP32 value. -/
def f32Sign (neg : Bool) : Nat := if neg then 0x80000000 else 0

/-- The grid of a binary format with p fraction bits: the exponent of its last place for a magnitude m * 2^e, no
finer than 2^(emin - p) (R233; emin none for a format without a lower bound). -/
def gridExp (p : Nat) (emin : Option Int) (m : Nat) (e : Int) : Int :=
  let q := (Nat.log2 m : Int) + e - p
  match emin with
  | some x => max q (x - p)
  | none => q

/-- m * 2^e on the grid 2^q: the multiple of 2^q below it and the fraction above, as numerator and shift. -/
def onGrid (m : Nat) (e q : Int) : Nat × Nat × Nat :=
  if q ≤ e then (m * 2 ^ (e - q).toNat, 0, 0)
  else
    let sh := (q - e).toNat
    (m / 2 ^ sh, m % 2 ^ sh, sh)

/-- Round to nearest even a number of last places with a fraction r / 2^sh above it. -/
def roundEven (n r sh : Nat) : Nat :=
  if sh = 0 then n
  else if 2 ^ sh < 2 * r || (2 * r = 2 ^ sh && n % 2 = 1) then n + 1 else n

/-- Round m * 2^e to FP32, to nearest even, subnormals kept (R234). -/
def toF32 (neg : Bool) (m : Nat) (e : Int) : Nat :=
  if m = 0 then f32Sign neg
  else
    let q := gridExp 23 (some (-126)) m e
    let (n, r, sh) := onGrid m e q
    let b := (q + 149).toNat * 2 ^ 23 + roundEven n r sh
    f32Sign neg + (if f32Inf ≤ b then f32Inf else b)

/-- The FP32 bits of a value. -/
def Fp.f32 : Fp → Nat
  | .nan => f32Nan
  | .inf s => f32Sign s + f32Inf
  | .fin s m e => toF32 s m e

/-- The value of FP32 bits. -/
def f32Val (b : Nat) : Fp :=
  let s := bit b 31
  let e := bits b 30 23
  let m := bits b 22 0
  if e = 255 then (if m = 0 then .inf s else .nan)
  else if e = 0 then .fin s m (-149)
  else .fin s (m + 2 ^ 23) ((e : Int) - 150)

/-- Exact sum of two values, rounded once to FP32 (R234). -/
def fpAdd : Fp → Fp → Nat
  | .nan, _ => f32Nan
  | _, .nan => f32Nan
  | .inf a, .inf b => if a = b then f32Sign a + f32Inf else f32Nan
  | .inf a, _ => f32Sign a + f32Inf
  | _, .inf b => f32Sign b + f32Inf
  | .fin a m e, .fin b n f =>
    let g := min e f
    let x : Int := (m * 2 ^ (e - g).toNat : Nat)
    let y : Int := (n * 2 ^ (f - g).toNat : Nat)
    let t := (if a then -x else x) + (if b then -y else y)
    if t = 0 then f32Sign (a && b && m = 0 && n = 0) else toF32 (t < 0) t.natAbs g

/-- Exact product of two values, rounded once to FP32 (R234, R239). -/
def fpMul : Fp → Fp → Nat
  | .nan, _ => f32Nan
  | _, .nan => f32Nan
  | .inf a, .inf b => f32Sign (a != b) + f32Inf
  | .inf a, .fin b n _ => if n = 0 then f32Nan else f32Sign (a != b) + f32Inf
  | .fin a m _, .inf b => if m = 0 then f32Nan else f32Sign (a != b) + f32Inf
  | .fin a m e, .fin b n f => toF32 (a != b) (m * n) (e + f)

/-- Correctly rounded quotient (R234): the quotient carries a sticky last bit far below the FP32 grid. -/
def fpDiv : Fp → Fp → Nat
  | .nan, _ => f32Nan
  | _, .nan => f32Nan
  | .inf _, .inf _ => f32Nan
  | .inf a, .fin b _ _ => f32Sign (a != b) + f32Inf
  | .fin a _ _, .inf b => f32Sign (a != b)
  | .fin a m e, .fin b n f =>
    if n = 0 then (if m = 0 then f32Nan else f32Sign (a != b) + f32Inf)
    else
      let k := 300 + Nat.log2 n
      let x := m * 2 ^ k
      toF32 (a != b) (2 * (x / n) + (if x % n = 0 then 0 else 1)) (e - f - k - 1)

def f32Add (a b : Nat) : Nat := fpAdd (f32Val a) (f32Val b)
def f32Mul (a b : Nat) : Nat := fpMul (f32Val a) (f32Val b)
def f32Div (a b : Nat) : Nat := fpDiv (f32Val a) (f32Val b)
/-- Sign change of an FP32 value. -/
def f32Neg (a : Nat) : Nat := a ^^^ 0x80000000
def f32Sub (a b : Nat) : Nat := f32Add a (f32Neg b)

/-- Whether FP32 bits are a NaN. -/
def f32IsNan (a : Nat) : Bool := f32Inf < a % 0x80000000

/-- The place of an FP32 value in the order of the device, in which -0 lies below +0 (R234). -/
def f32Key (a : Nat) : Int := if bit a 31 then -1 - ((a % 0x80000000 : Nat) : Int) else (a : Int)

/-- Maximum: NaN if either is NaN, -0 below +0 (R234). -/
def f32Max (a b : Nat) : Nat :=
  if f32IsNan a || f32IsNan b then f32Nan else if f32Key a < f32Key b then b else a

/-- Minimum (R234). -/
def f32Min (a b : Nat) : Nat :=
  if f32IsNan a || f32IsNan b then f32Nan else if f32Key b < f32Key a then b else a

/-- a < b of two FP32 numbers; false when either is NaN. -/
def f32Lt (a b : Nat) : Bool :=
  !f32IsNan a && !f32IsNan b && !(a % 0x80000000 = 0 && b % 0x80000000 = 0) && f32Key a < f32Key b

/-- An integer as FP32, rounded to nearest even (R232). -/
def f32OfInt (i : Int) : Nat := toF32 (i < 0) i.natAbs 0

/-- The nearest-even integer of an FP32 value; 0 for NaN and infinities. -/
def f32Nearest (a : Nat) : Int :=
  match f32Val a with
  | .fin s m e =>
    let (n, r, sh) := onGrid m e 0
    let v : Int := (roundEven n r sh : Nat)
    if s then -v else v
  | _ => 0

/-- The integer square root of x below 2^(2n), bit by bit: r is what is known, the bits below n are tried. -/
def isqrt (x : Nat) : Nat → Nat → Nat
  | 0, r => r
  | n + 1, r => let t := r + 2 ^ n; isqrt x n (if t * t ≤ x then t else r)

/-- Correctly rounded square root (R335): the root carries a sticky last bit far below the FP32 grid. -/
def f32Sqrt (a : Nat) : Nat :=
  match f32Val a with
  | .nan => f32Nan
  | .inf s => if s then f32Nan else f32Inf
  | .fin s m e =>
    if m = 0 then f32Sign s
    else if s then f32Nan
    else
      let odd := e % 2 != 0
      let x := (if odd then 2 * m else m) * 2 ^ 60
      let h : Int := ((if odd then e - 1 else e) - 60) / 2
      let r := isqrt x 45 0
      toF32 false (2 * r + (if r * r = x then 0 else 1)) (h - 1)

/-- 1 / sqrt(a), correctly rounded, or +0 when a is 0, infinite, NaN or negative (R351). -/
def f32Rsqrt (a : Nat) : Nat :=
  match f32Val a with
  | .fin false m e =>
    if m = 0 then 0
    else
      let odd := e % 2 != 0
      let m := if odd then 2 * m else m
      let h : Int := (if odd then e - 1 else e) / 2
      let r := isqrt (2 ^ 120 / m) 61 0
      toF32 false (2 * r + (if r * r * m = 2 ^ 120 then 0 else 1)) (-h - 61)
  | _ => 0

/-! ### Trees (R216, R240) -/

/-- One level of a tree: neighbours combined in ascending order, an odd last one carried up. -/
def treeLevel {α : Type} (op : α → α → α) : List α → List α
  | a :: b :: r => op a b :: treeLevel op r
  | r => r

/-- The fixed tree of R216 over a list, with fuel for its levels; d for an empty list. -/
def treeFuel {α : Type} (op : α → α → α) (d : α) : Nat → List α → α
  | _, [] => d
  | _, [a] => a
  | 0, a :: _ => a
  | n + 1, l => treeFuel op d n (treeLevel op l)

/-- The fixed tree. -/
def tree {α : Type} (op : α → α → α) (d : α) (l : List α) : α := treeFuel op d l.length l

/-- chunk_sum of R240. -/
def chunkSum (p : List Nat) : Nat := tree f32Add 0 p

/-! ### exp and ln of the softmax lanes (R242, R243, Table 8-7) -/

/-- t[j] = 2^(j/64) in FP32. -/
def expTable : List Nat :=
  [0x3F800000, 0x3F8164D2, 0x3F82CD87, 0x3F843A29, 0x3F85AAC3, 0x3F871F62, 0x3F88980F, 0x3F8A14D5,
   0x3F8B95C2, 0x3F8D1ADF, 0x3F8EA43A, 0x3F9031DC, 0x3F91C3D3, 0x3F935A2B, 0x3F94F4F0, 0x3F96942D,
   0x3F9837F0, 0x3F99E046, 0x3F9B8D3A, 0x3F9D3EDA, 0x3F9EF532, 0x3FA0B051, 0x3FA27043, 0x3FA43516,
   0x3FA5FED7, 0x3FA7CD94, 0x3FA9A15B, 0x3FAB7A3A, 0x3FAD583F, 0x3FAF3B79, 0x3FB123F6, 0x3FB311C4,
   0x3FB504F3, 0x3FB6FD92, 0x3FB8FBAF, 0x3FBAFF5B, 0x3FBD08A4, 0x3FBF179A, 0x3FC12C4D, 0x3FC346CD,
   0x3FC5672A, 0x3FC78D75, 0x3FC9B9BE, 0x3FCBEC15, 0x3FCE248C, 0x3FD06334, 0x3FD2A81E, 0x3FD4F35B,
   0x3FD744FD, 0x3FD99D16, 0x3FDBFBB8, 0x3FDE60F5, 0x3FE0CCDF, 0x3FE33F89, 0x3FE5B907, 0x3FE8396A,
   0x3FEAC0C7, 0x3FED4F30, 0x3FEFE4BA, 0x3FF28177, 0x3FF5257D, 0x3FF7D0DF, 0x3FFA83B3, 0x3FFD3E0C]

/-- An FP32 value times a power of two, rounded to nearest even where the result is subnormal. -/
def f32Scale (a : Nat) (k : Int) : Nat :=
  match f32Val a with
  | .fin s m e => toF32 s m (e + k)
  | x => x.f32

/-- exp(x) (R242). -/
def f32Exp (x : Nat) : Nat :=
  if f32IsNan x then f32Nan
  else if !f32Lt x 0x42B17218 then f32Inf
  else if f32Lt x 0xC2CFF1B5 then 0
  else
    let k := f32Nearest (f32Mul x 0x42B8AA3B)
    let kf := f32OfInt k
    let r := f32Sub (f32Sub x (f32Mul kf 0x3C318000)) (f32Mul kf 0xB65E8083)
    let a := f32Add (f32Mul r 0x3E2AAAAB) 0x3F000000
    let p := f32Add r (f32Mul r (f32Mul r a))
    let j := (k % 64).toNat
    let t := expTable.getD j 0
    let y := f32Add t (f32Mul t p)
    f32Scale y ((k - j) / 64)

/-- ln(x) (R243). -/
def f32Ln (x : Nat) : Nat :=
  match f32Val x with
  | .nan => f32Nan
  | .inf s => if s then f32Nan else f32Inf
  | .fin s m e =>
    if m = 0 then f32NegInf
    else if s then f32Nan
    else
      let l := Nat.log2 m
      let f0 := toF32 false m (-(l : Int))
      let e0 := e + l
      let up := f32Lt 0x3FB504F3 f0
      let f := if up then f32Scale f0 (-1) else f0
      let ef := f32OfInt (if up then e0 + 1 else e0)
      let u := f32Div (f32Sub f 0x3F800000) (f32Add f 0x3F800000)
      let w := f32Mul u u
      let h1 := f32Add (f32Mul 0x3DE38E39 w) 0x3E124925
      let h2 := f32Add (f32Mul h1 w) 0x3E4CCCCD
      let h3 := f32Add (f32Mul h2 w) 0x3EAAAAAB
      let h := f32Mul h3 w
      let v := f32Add u u
      let t := f32Add v (f32Mul v h)
      f32Add (f32Add (f32Mul ef 0xB95E8083) t) (f32Mul ef 0x3F318000)

/-! ### Formats (R229 to R231, Tables 8-1 to 8-4) -/

/-- Number formats. -/
inductive Fmt where
  | fp32 | bf16 | fp16 | e4m3 | e5m2 | int8 | int4 | shade4 | int32
  deriving DecidableEq, Repr

/-- The format of a code (Table 8-2). -/
def fmtOf : Nat → Option Fmt
  | 0 => some .fp32
  | 1 => some .bf16
  | 2 => some .fp16
  | 3 => some .e4m3
  | 4 => some .e5m2
  | 5 => some .int8
  | 6 => some .int4
  | 7 => some .shade4
  | 8 => some .int32
  | _ => none

/-- Integer formats. -/
def Fmt.isInt (f : Fmt) : Bool := f = .int8 || f = .int4 || f = .int32

/-- Bytes of a row of n elements (R247). -/
def Fmt.rowBytes (f : Fmt) (n : Nat) : Nat :=
  match f with
  | .fp32 | .int32 => 4 * n
  | .bf16 | .fp16 => 2 * n
  | .e4m3 | .e5m2 | .int8 => n
  | .int4 => n / 2
  | .shade4 => 17 * n / 32

/-- Whether a row may have n elements (R230, R231). -/
def Fmt.rowOk (f : Fmt) (n : Nat) : Bool :=
  match f with
  | .int4 => n % 2 = 0
  | .shade4 => n % 32 = 0
  | _ => true

/-- The alignment of an address or stride in bytes (R247). -/
def Fmt.align (f : Fmt) : Nat :=
  match f with
  | .fp32 | .int32 => 4
  | .bf16 | .fp16 => 2
  | _ => 1

/-- A binary value with ebits exponent bits and p fraction bits; flush: subnormals read as zero (R232). -/
def binVal (p ebits bias : Nat) (flush infs : Bool) (b : Nat) : Fp :=
  let s := bit b (p + ebits)
  let e := bits b (p + ebits - 1) p
  let m := b % 2 ^ p
  if infs && e = 2 ^ ebits - 1 then (if m = 0 then .inf s else .nan)
  else if e = 0 then (if flush then .fin s 0 0 else .fin s m (1 - bias - p))
  else .fin s (m + 2 ^ p) ((e : Int) - bias - p)

/-- The magnitude of an E2M1 element in halves (Table 8-4). -/
def e2m1Halves : Nat → Nat
  | 0 => 0
  | 1 => 1
  | 2 => 2
  | 3 => 3
  | 4 => 4
  | 5 => 6
  | 6 => 8
  | _ => 12

/-- An integer as a value. -/
def fpOfInt (i : Int) : Fp := .fin (i < 0) i.natAbs 0

/-- The value of element i of a row (R229 to R232). -/
def elemAt (f : Fmt) (row : List Byte) (i : Nat) : Fp :=
  match f with
  | .fp32 => f32Val (leField row (4 * i) 4)
  | .bf16 => binVal 7 8 127 false true (leField row (2 * i) 2)
  | .fp16 => binVal 10 5 15 false true (leField row (2 * i) 2)
  | .e4m3 =>
    let b := leField row i 1
    if b % 128 = 127 then .nan else binVal 3 4 7 true false b
  | .e5m2 => binVal 2 5 15 true true (leField row i 1)
  | .int8 => fpOfInt (signedOf 8 (leField row i 1))
  | .int4 =>
    let b := leField row (i / 2) 1
    fpOfInt (signedOf 4 (if i % 2 = 0 then b % 16 else b / 16))
  | .int32 => fpOfInt (signedOf 32 (leField row (4 * i) 4))
  | .shade4 =>
    let o := 17 * (i / 32)
    let sc := leField row o 1
    let b := leField row (o + 1 + i % 32 / 2) 1
    let el := if i % 2 = 0 then b % 16 else b / 16
    if sc = 255 then .nan else .fin (8 ≤ el) (e2m1Halves (el % 8)) ((sc : Int) - 128)

/-- The integer that an integer format's value is. -/
def Fp.int : Fp → Int
  | .fin s m e => let v : Int := (m * 2 ^ e.toNat : Nat); if s then -v else v
  | _ => 0

/-! ### Conversion out of FP32 (R233 to R236) -/

/-- One converted element: its bits, and whether it counts as an overflow or as a NaN output. -/
structure Conv where
  v : Nat
  ovf : Nat := 0
  nan : Nat := 0
  deriving DecidableEq, Repr

/-- mix of R236. -/
def mix32 (x0 : Nat) : Nat :=
  let x := x0 ^^^ (x0 >>> 16)
  let x := (x * 0x7FEB352D) % 2 ^ 32
  let x := x ^^^ (x >>> 15)
  let x := (x * 0x846CA68B) % 2 ^ 32
  x ^^^ (x >>> 16)

/-- rand(seed, i) of R236. -/
def rand32 (seed i : Nat) : Nat := mix32 (seed ^^^ mix32 ((i % 2 ^ 32) ^^^ mix32 ((i / 2 ^ 32) % 2 ^ 32)))

/-- Rounding of a conversion: to nearest even, or stochastic with a seed. -/
inductive Rounding where
  | nearest
  | stoch (seed : Nat)
  deriving DecidableEq, Repr

/-- Round a number of last places with a fraction r / 2^sh above it (R236). -/
def roundBy (rd : Rounding) (i n r sh : Nat) : Nat :=
  match rd with
  | .nearest => roundEven n r sh
  | .stoch seed =>
    if r = 0 then n
    else if 2 ^ 24 ≤ r * 2 ^ 24 / 2 ^ sh + rand32 seed i / 256 then n + 1 else n

/-- A finite magnitude rounded on a binary grid: the multiple of the last place and its exponent. -/
def roundGrid (rd : Rounding) (i p : Nat) (emin : Option Int) (m : Nat) (e : Int) : Nat × Int :=
  if m = 0 then (0, 0)
  else
    let q := gridExp p emin m e
    let (n, r, sh) := onGrid m e q
    (roundBy rd i n r sh, q)

/-- A binary output with subnormals kept and infinities: BF16 and FP16 (Table 8-5). -/
def convBin (p ebits bias : Nat) (rd : Rounding) (i : Nat) (x : Fp) : Conv :=
  let top := p + ebits
  let inf := (2 ^ ebits - 1) * 2 ^ p
  let sg (s : Bool) : Nat := if s then 2 ^ top else 0
  match x with
  | .nan => { v := inf + 2 ^ (p - 1), nan := 1 }
  | .inf s => { v := sg s + inf }
  | .fin s m e =>
    if m = 0 then { v := sg s }
    else
      let (n, q) := roundGrid rd i p (some (1 - (bias : Int))) m e
      let b := (q + bias + p - 1).toNat * 2 ^ p + n
      if inf ≤ b then { v := sg s + inf, ovf := 1 } else { v := sg s + b }

/-- An FP8 output: rounded without a lower bound, then zero below the smallest normal (R233). -/
def convFp8 (p ebits bias : Nat) (e4m3 : Bool) (rd : Rounding) (i : Nat) (x : Fp) : Conv :=
  let sg (s : Bool) : Nat := if s then 128 else 0
  let inf := (2 ^ ebits - 1) * 2 ^ p
  match x with
  | .nan => { v := if e4m3 then 0x7F else 0x7E, nan := 1 }
  | .inf s => if e4m3 then { v := sg s + 0x7E, ovf := 1 } else { v := sg s + inf }
  | .fin s m e =>
    if m = 0 then { v := sg s }
    else
      let (n, q) := roundGrid rd i p none m e
      let b := (q + bias + p - 1) * 2 ^ p + n
      if b < 2 ^ p then { v := sg s }
      else if e4m3 then (if 0x7E < b then { v := sg s + 0x7E, ovf := 1 } else { v := sg s + b.toNat })
      else if (inf : Int) ≤ b then { v := sg s + inf, ovf := 1 }
      else { v := sg s + b.toNat }

/-- An integer output: to nearest even, saturated (Table 8-5). -/
def convInt (w : Nat) (x : Fp) : Conv :=
  let hi : Int := 2 ^ (w - 1) - 1
  match x with
  | .nan => { v := 0, nan := 1 }
  | .inf s => { v := wrapTo w (if s then -hi - 1 else hi), ovf := 1 }
  | .fin s m e =>
    let (n, r, sh) := onGrid m e 0
    let k : Int := (roundEven n r sh : Nat)
    let v := if s then -k else k
    if hi < v then { v := wrapTo w hi, ovf := 1 }
    else if v < -hi - 1 then { v := wrapTo w (-hi - 1), ovf := 1 }
    else { v := wrapTo w v }

/-- Convert an FP32 value to a format other than Shade-4, element index i (R233). -/
def convert (f : Fmt) (rd : Rounding) (i v : Nat) : Conv :=
  let x := f32Val v
  match f with
  | .fp32 => { v := x.f32, nan := b2n (f32IsNan v) }
  | .bf16 => convBin 7 8 127 rd i x
  | .fp16 => convBin 10 5 15 rd i x
  | .e4m3 => convFp8 3 4 7 true rd i x
  | .e5m2 => convFp8 2 5 15 false rd i x
  | .int8 => convInt 8 x
  | .int4 => convInt 4 x
  | .int32 => convInt 32 x
  | .shade4 => { v := 0 }

/-- An E2M1 element from m * 2^e (Table 8-5). -/
def convE2m1 (rd : Rounding) (i : Nat) (s : Bool) (m : Nat) (e : Int) : Conv :=
  let sg := if s then 8 else 0
  if m = 0 then { v := sg }
  else
    let (n, q) := roundGrid rd i 1 (some 0) m e
    let b := (q + 1).toNat * 2 + n
    if 7 < b then { v := sg + 7, ovf := 1 } else { v := sg + b }

/-- A block of 32 FP32 values in Shade-4 (R235): its 17 bytes and its counts; value k has the index idx k. -/
def toShade4By (rd : Rounding) (idx : Nat → Nat) (xs : List Nat) : List Byte × Nat × Nat :=
  let vs := xs.map f32Val
  let nanBlock : List Byte × Nat × Nat := (0xFF#8 :: List.replicate 16 0#8, 0, 32)
  if vs.any (· == .nan) then nanBlock
  else
    let amax := xs.foldl (fun a x => max a (x % 0x80000000)) 0
    let e : Int := match f32Val amax with
      | .fin _ m e => if m = 0 then -127 else min 127 (max (-127) ((Nat.log2 m : Int) + e - 2))
      | _ => 127
    let conv (k : Nat) (x : Fp) : Conv :=
      match x with
      | .fin s m f => convE2m1 rd (idx k) s m (f - e)
      | .inf s => { v := if s then 15 else 7, ovf := 1 }
      | .nan => { v := 0 }
    let cs := (vs.zip (List.range 32)).map fun (x, k) => conv k x
    let rec pack : List Conv → List Byte
      | a :: b :: r => BitVec.ofNat 8 (a.v + 16 * b.v) :: pack r
      | _ => []
    (BitVec.ofNat 8 (e + 127).toNat :: pack cs, (cs.map (·.ovf)).sum, 0)

/-- A block of 32 values in Shade-4; i is the index of the first, and each next one lies step further. -/
def toShade4 (rd : Rounding) (i step : Nat) (xs : List Nat) : List Byte × Nat × Nat :=
  toShade4By rd (fun k => i + k * step) xs

/-- Rows of converted elements: their bytes, overflows and NaN outputs. -/
structure Row where
  bytes : List Byte
  ovf : Nat := 0
  nan : Nat := 0
  deriving DecidableEq, Repr

/-- Two rows in turn. -/
def Row.append (a b : Row) : Row := { bytes := a.bytes ++ b.bytes, ovf := a.ovf + b.ovf, nan := a.nan + b.nan }

/-- Blocks of Shade-4, with fuel. -/
def shadeRow (rd : Rounding) (step : Nat) : Nat → Nat → List Nat → Row
  | 0, _, _ => { bytes := [] }
  | n + 1, i, xs =>
    if xs.isEmpty then { bytes := [] }
    else
      let (b, o, k) := toShade4 rd i step (xs.take 32)
      Row.append { bytes := b, ovf := o, nan := k } (shadeRow rd step n (i + 32 * step) (xs.drop 32))

/-- Pairs of INT4 codes, two to a byte (R230). -/
def packNibbles : List Nat → List Byte
  | a :: b :: r => BitVec.ofNat 8 (a % 16 + 16 * (b % 16)) :: packNibbles r
  | [a] => [BitVec.ofNat 8 (a % 16)]
  | [] => []

/-- A row of FP32 values written in a format; the first has index i and each next one index step more. -/
def writeRow (f : Fmt) (rd : Rounding) (i step : Nat) (xs : List Nat) : Row :=
  match f with
  | .shade4 => shadeRow rd step xs.length i xs
  | _ =>
    let cs := (xs.zip (List.range xs.length)).map fun (x, k) => convert f rd (i + k * step) x
    let o := (cs.map (·.ovf)).sum
    let n := (cs.map (·.nan)).sum
    match f with
    | .int4 => { bytes := packNibbles (cs.map (·.v)), ovf := o, nan := n }
    | .fp32 | .int32 => { bytes := cs.flatMap fun c => leBytes 4 c.v, ovf := o, nan := n }
    | .bf16 | .fp16 => { bytes := cs.flatMap fun c => leBytes 2 c.v, ovf := o, nan := n }
    | _ => { bytes := cs.flatMap fun c => leBytes 1 c.v, ovf := o, nan := n }

/-- Round FP32 bits to BF16, to nearest even, as FP32 bits (R244). -/
def viaBf16 (v : Nat) : Nat := (binVal 7 8 127 false true (convert .bf16 .nearest 0 v).v).f32

end Sys2Proof.Machine
end

