-- ==== Sys2Proof/Machine/Codec.lean ====
section
/-! DEFINITION. The lossless coding of 09_compression.md as functions of bytes: symbols, blocks, canonical codes, the
building of code lengths, and muted tiles. -/

namespace Sys2Proof.Machine

/-! ### Symbols and frames (R256, R259, R263) -/

/-- The symbol mode of a format: 0 EXP8, 1 BYTE, 2 NIBBLE (Table 9-1). -/
def smodeOf : Fmt → Option Nat
  | .bf16 => some 0
  | .e4m3 | .e5m2 | .int8 => some 1
  | .int4 | .shade4 => some 2
  | _ => none

/-- The fixed width W of a symbol (R260). -/
def symWidth (smode : Nat) : Nat := if smode = 2 then 4 else 8

/-- Symbols of a palette of a mode. -/
def symCount (smode : Nat) : Nat := if smode = 2 then 16 else 256

/-- Frame sizes (Table 9-4). -/
def frameSize (smode : Nat) (always : Bool) : Nat :=
  match smode, always with
  | 0, false => 1088
  | 0, true => 1536
  | 1, false => 576
  | 2, false => 320
  | _, _ => 1024

/-- Bytes of the raw part of a block. -/
def rawBytes (f : Fmt) : Nat :=
  match f with
  | .bf16 => 512
  | .shade4 => 16
  | _ => 0

/-- The low and the high nibble of each byte. -/
def nibbles (bs : List Byte) : List Nat := bs.flatMap fun b => [b.toNat % 16, b.toNat / 16]

/-- Parts of n bytes of a list, k of them. -/
def parts {α : Type} (n : Nat) : Nat → List α → List (List α)
  | 0, _ => []
  | k + 1, l => l.take n :: parts n k (l.drop n)

/-- The symbols of 512 values in their own format. -/
def symbolsOf (f : Fmt) (bs : List Byte) : List Nat :=
  match f with
  | .bf16 => (parts 2 512 bs).map fun w => bits (leNat w) 14 7
  | .int4 => nibbles bs
  | .shade4 => (parts 17 16 bs).flatMap fun b => nibbles (b.drop 1)
  | _ => bs.map (·.toNat)

/-- The raw part of 512 values. -/
def rawPart (f : Fmt) (bs : List Byte) : List Byte :=
  match f with
  | .bf16 => (parts 2 512 bs).map fun w => BitVec.ofNat 8 (bits (leNat w) 15 15 * 128 + leNat w % 128)
  | .shade4 => (parts 17 16 bs).flatMap fun b => b.take 1
  | _ => []

/-- The values of a raw part and symbols. -/
def joinValues (f : Fmt) (raw : List Byte) (syms : List Nat) : List Byte :=
  match f with
  | .bf16 => (raw.zip syms).flatMap fun (r, s) => leBytes 2 (r.toNat / 128 * 32768 + s * 128 + r.toNat % 128)
  | .int4 => packNibbles syms
  | .shade4 => (raw.zip (parts 32 16 syms)).flatMap fun (r, s) => r :: packNibbles s
  | _ => syms.map (BitVec.ofNat 8)

/-! ### Codes (R265, R266) -/

/-- The code lengths that palette bytes hold. -/
def lensOf (bs : List Byte) : List Nat := nibbles bs

/-- The palette bytes of code lengths, filled to 128. -/
def lensBytes (lens : List Nat) : List Byte := slice (packNibbles lens) 0 128

/-- next[l] of the canonical code: the first code of length l. -/
def firstCode (lens : List Nat) : Nat → Nat
  | 0 => 0
  | l + 1 => (firstCode lens l + (if l = 0 then 0 else lens.count l)) * 2

/-- The code of every symbol: its length and value. -/
def codesOf (lens : List Nat) : List (Nat × Nat) :=
  let first := (List.range 16).map (firstCode lens)
  (lens.foldl (fun (x : List (Nat × Nat) × List Nat) l =>
    let c := x.2.getD l 0
    (x.1 ++ [(l, c)], x.2.set l (c + 1))) ([], first)).1

/-- Whether a palette is valid: some code, and the Kraft sum within 1 (R266). -/
def lensValid (lens : List Nat) : Bool :=
  lens.any (· != 0) && decide ((lens.map fun l => if l = 0 then 0 else 2 ^ (15 - l)).sum ≤ 2 ^ 15)

/-- The codes of the identity palette: every symbol in w bits (R260). -/
def fixedCodes (w : Nat) : List (Nat × Nat) := (List.range (2 ^ w)).map fun s => (w, s)

/-! ### Building code lengths (R272) -/

/-- A node of the Huffman tree: its weight, whether it is an inner node, its symbol or its creation number, and its
leaves with their depths. -/
structure HuffNode where
  weight : Nat
  inner : Bool
  tag : Nat
  leaves : List (Nat × Nat)

/-- The order of nodes: by weight, leaves before inner nodes, then by symbol or creation. -/
def HuffNode.before (a b : HuffNode) : Bool :=
  a.weight < b.weight || (a.weight = b.weight && ((!a.inner && b.inner) || (a.inner = b.inner && a.tag < b.tag)))

/-- Put a node into an ordered list. -/
def huffInsert (x : HuffNode) : List HuffNode → List HuffNode
  | [] => [x]
  | y :: ys => if x.before y then x :: y :: ys else y :: huffInsert x ys

/-- Join the first two nodes until one is left. -/
def huffJoin : Nat → Nat → List HuffNode → List HuffNode
  | 0, _, l => l
  | n + 1, k, a :: b :: r =>
    let deeper := (a.leaves ++ b.leaves).map fun (s, d) => (s, d + 1)
    huffJoin n (k + 1) (huffInsert { weight := a.weight + b.weight, inner := true, tag := k, leaves := deeper } r)
  | _, _, l => l

/-- huffman_lengths of R272. -/
def huffLengths (w : List Nat) : List Nat :=
  let leaves := (w.zip (List.range w.length)).filter (fun x => x.1 != 0)
  let nodes := leaves.foldl (fun l (x, s) => huffInsert { weight := x, inner := false, tag := s, leaves := [(s, 0)] } l) []
  match huffJoin w.length 0 nodes with
  | [] => w.map fun _ => 0
  | x :: _ =>
    let lens : Tbl Nat := x.leaves.foldl (fun t e => t.put e.1 e.2) []
    (List.range w.length).map fun s => match lens.get? s with
      | some d => max d 1
      | none => 0

/-- Halve the weights until every length fits in 15 bits. -/
def buildFrom : Nat → List Nat → List Nat
  | 0, w => huffLengths w
  | n + 1, w =>
    let l := huffLengths w
    if l.all (· ≤ 15) then l else buildFrom n (w.map fun x => (x + 1) / 2)

/-- build of R272. -/
def buildLens (counts : List Nat) (plusOne : Bool) : List Nat :=
  buildFrom 64 (if plusOne then counts.map (· + 1) else counts)

/-- The histogram of symbols below n. -/
def symCounts (n : Nat) (syms : List Nat) : List Nat :=
  let t : Tbl Nat := syms.foldl (fun t s => t.put s (t.getD s 0 + 1)) []
  (List.range n).map fun s => t.getD s 0

/-! ### Bit streams (R259) -/

/-- The bits of a code, most significant first. -/
def codeBits : Nat → Nat → List Bool
  | 0, _ => []
  | n + 1, c => c.testBit n :: codeBits n c

/-- A byte of at most eight bits, the first in bit 7. -/
def byteOf (l : List Bool) : Byte :=
  BitVec.ofNat 8 ((List.range 8).foldl (fun a i => 2 * a + b2n (l.getD i false)) 0)

/-- n bytes of a bit stream, filled with 0. -/
def packBits : Nat → List Bool → List Byte
  | 0, _ => []
  | n + 1, l => byteOf (l.take 8) :: packBits n (l.drop 8)

/-- The bits of bytes. -/
def bitsOf (bs : List Byte) : List Bool := bs.flatMap fun b => codeBits 8 b.toNat

/-- The lanes of a stream: their bits, lane by lane. -/
def encodeLanes (codes : List (Nat × Nat)) (lanes : List (List Nat)) : List (List Bool) :=
  lanes.map fun l => l.flatMap fun s =>
    let c := codes.getD s (0, 0)
    codeBits c.1 c.2

/-- The bit offset of each lane, and the length of the stream. -/
def laneOffsets (lanes : List (List Bool)) : List Nat :=
  (lanes.foldl (fun l x => l ++ [l.getLastD 0 + x.length]) [0])

/-- Decode bits to their end: none on a pattern without a code or a code cut off. -/
def decodeBits (find : Nat → Nat → Option Nat) : List Bool → Nat → Nat → List Nat → Option (List Nat)
  | [], len, _, out => if len = 0 then some out.reverse else none
  | b :: bs, len, code, out =>
    let code := 2 * code + b2n b
    match find (len + 1) code with
    | some s => decodeBits find bs 0 0 (s :: out)
    | none => if 15 ≤ len + 1 then none else decodeBits find bs (len + 1) code out

/-- The symbol of a code. -/
def codeSymbol (codes : List (Nat × Nat)) (len code : Nat) : Option Nat :=
  (List.range codes.length).find? fun s => codes.getD s (0, 0) == (len, code)

/-- Decode each lane from its bounds: exactly n symbols each (R279 step 4). -/
def decodeLanes (codes : List (Nat × Nat)) (n : Nat) (stream : List Bool) : List Nat → Option (List Nat)
  | a :: b :: r =>
    match decodeBits (codeSymbol codes) ((stream.drop a).take (b - a)) 0 0 [] with
    | some l => if l.length = n then (decodeLanes codes n stream (b :: r)).map (l ++ ·) else none
    | none => none
  | _ => some []

/-! ### Blocks (R257 to R261, R276, R279) -/

/-- What encoding a block gives: the bytes of its whole frame, whether it is coded, and the bytes of its lines. -/
structure Coded where
  frame : List Byte
  coded : Bool
  used : Nat
  deriving DecidableEq, Repr

/-- Bytes of whole lines. -/
def wholeLines (n : Nat) : Nat := ceilDiv n 64 * 64

/-- The block of a header, raw part and lanes, padded to its frame. -/
def blockBytes (f : Fmt) (fcode : Nat) (coded : Bool) (gen slot : Nat) (values : List Byte) (lanes : List (List Bool))
    (frame : Nat) : Coded :=
  let offs := laneOffsets lanes
  let total := offs.getLastD 0
  let smode := (smodeOf f).getD 0
  let w0 := fcode * 2 ^ 23 + smode * 2 ^ 21 + b2n coded * 2 ^ 20 + gen * 2 ^ 12 + slot
  let w1 := offs.getD 1 0 * 65536 + total
  let w2 := offs.getD 3 0 * 65536 + offs.getD 2 0
  let body := leBytes 4 w0 ++ leBytes 4 w1 ++ leBytes 4 w2 ++ leBytes 4 (crc32c values) ++ rawPart f values ++
    packBits (ceilDiv total 8) lanes.flatten
  { frame := slice body 0 frame, coded := coded, used := wholeLines body.length }

/-- Encode 512 values under a palette, if there is one (R276): coded when every symbol has a code and, outside ALWAYS,
the codes take fewer bits than the fixed width. -/
def encodeBlock (f : Fmt) (fcode : Nat) (pal : Option (Nat × List Nat)) (slot : Nat) (always : Bool)
    (values : List Byte) : Coded :=
  let smode := (smodeOf f).getD 0
  let syms := symbolsOf f values
  let lanes := parts 128 4 syms
  let frame := frameSize smode always
  let raw := blockBytes f fcode false 0 0 values (encodeLanes (fixedCodes (symWidth smode)) lanes) frame
  match pal with
  | none => raw
  | some (gen, lens) =>
    let total := (syms.map fun s => lens.getD s 0).sum
    if syms.any fun s => lens.getD s 0 = 0 then raw
    else if !always && 512 * symWidth smode ≤ total then raw
    else blockBytes f fcode true gen slot values (encodeLanes (codesOf lens) lanes) frame

/-- The fields of a block header (Table 9-2). -/
structure BlockHead where
  fmt : Nat
  smode : Nat
  coded : Bool
  gen : Nat
  slot : Nat
  offs : List Nat
  total : Nat
  crc : Nat
  deriving DecidableEq, Repr

/-- Read a block header. -/
def blockHead (bs : List Byte) : BlockHead :=
  let w0 := leField bs 0 4
  let w1 := leField bs 4 4
  let w2 := leField bs 8 4
  { fmt := bits w0 26 23, smode := bits w0 22 21, coded := bit w0 20, gen := bits w0 19 12, slot := bits w0 11 0,
    offs := [0, w1 / 65536, w2 % 65536, w2 / 65536], total := w1 % 65536, crc := leField bs 12 4 }

/-- Bytes of a block before padding. -/
def BlockHead.size (h : BlockHead) (f : Fmt) : Nat := 16 + rawBytes f + ceilDiv h.total 8

/-- Step 1 of R279. -/
def BlockHead.consistent (h : BlockHead) (f : Fmt) (fcode frame : Nat) : Bool :=
  h.fmt = fcode && smodeOf f = some h.smode &&
  (if h.coded then h.slot != 0 else h.slot = 0 && h.gen = 0) &&
  (match h.offs with
    | [_, a, b, c] => a ≤ b && b ≤ c && c ≤ h.total
    | _ => false) &&
  h.size f ≤ frame

/-- Steps 4 and 5 of R279: the 512 values of a block under the codes given. -/
def decodeBlock (f : Fmt) (h : BlockHead) (codes : List (Nat × Nat)) (block : List Byte) : Option (List Byte) :=
  let raw := slice block 16 (rawBytes f)
  let stream := bitsOf (slice block (16 + rawBytes f) (ceilDiv h.total 8))
  match decodeLanes codes 128 stream (h.offs ++ [h.total]) with
  | some syms =>
    let v := joinValues f raw syms
    if crc32c v = h.crc then some v else none
  | none => none

/-! ### Muted tiles (R283, R284, Table 9-6) -/

/-- A muted tile: its bytes, in whole sectors. -/
def muteTile (tile : List Byte) : List Byte :=
  let syms := tile.map (·.toNat)
  let lens := buildLens (symCounts 256 syms) false
  let lanes := encodeLanes (codesOf lens) (parts 4096 16 syms)
  let offs := laneOffsets lanes
  let total := offs.getLastD 0
  let sectors := ceilDiv (256 + ceilDiv total 8) 4096
  let head := [1#8, BitVec.ofNat 8 sectors, 0#8, 0#8] ++ leBytes 4 (crc32c tile) ++ (offs.take 16).flatMap (leBytes 4) ++
    leBytes 4 total ++ List.replicate 52 0#8 ++ lensBytes lens
  slice (head ++ packBits (ceilDiv total 8) lanes.flatten) 0 (4096 * sectors)

/-- Sectors that a tile takes when it is muted; more than 15 is no gain (R284). -/
def muteSectors (tile : List Byte) : Nat :=
  let counts := symCounts 256 (tile.map (·.toNat))
  let total := ((buildLens counts false).zip counts).foldl (fun n (l, c) => n + l * c) 0
  ceilDiv (256 + ceilDiv total 8) 4096

/-- The tile that sectors hold, or none when the decode fails its CRC or its lane bounds (R285). -/
def unmuteTile (bs : List Byte) : Option (List Byte) :=
  let offs := (List.range 16).map fun k => leField bs (8 + 4 * k) 4
  let total := leField bs 72 4
  let stream := bitsOf (slice bs 256 (ceilDiv total 8))
  match decodeLanes (codesOf (lensOf (slice bs 128 128))) 4096 stream (offs ++ [total]) with
  | some syms =>
    let t := syms.map (BitVec.ofNat 8)
    if crc32c t = leField bs 4 4 then some t else none
  | none => none

end Sys2Proof.Machine
end

