-- ==== Sys2Proof/Config.lean ====
section
/-! DEFINITION. What the manual leaves to each part or leaves open: constants without a body, so that no proof can
see a value of theirs, and the sizes that the manual fixes. -/

namespace Sys2Proof.Config

/-- The n-th free value drawn: what the manual leaves open at one moment (log entry 1). -/
opaque freeValue : Nat → Nat

/-- Fused per-device values (R98, R101, R435; log entry 2). -/
opaque macAddress : Nat → BitVec 48
opaque lldpOui : BitVec 24
/-- The UDP source port that the device chooses for a path of a connection (R76); connection 0 stands for frames outside
one, 2^24 + 2 + k for the peer connection of entry k. -/
opaque sourcePort : Nat → Nat → BitVec 16
opaque serial : DWord
opaque fusedJoinKey : BitVec 256
/-- The SHA-256 of the signing key's MODULUS and EXPONENT held in fuses (R411). -/
opaque keyHash : List Byte
/-- The measurement of the boot ROM (Table 14-4 index 1). -/
opaque bootRomDigest : List Byte
/-- The certificate chain of slot 0 (R416). -/
opaque certChain : List Byte
/-- The identity key's signature over a message, with the salt it draws (R416, R418). -/
opaque identitySign : Nat → List Byte → List Byte

/-- Whether the GCM-AES-XPN-256 integrity check of a protected frame verifies under SAK, salt and SSCI (R83 step 2,
Table 3-2: the algorithm is IEEE 802.1AE's). -/
opaque macsecVerifies : BitVec 256 → BitVec 96 → BitVec 32 → SecTag → Frame → Bool

/-- The directory set of a line, of a number of sets: a fixed function that software does not see (R153). -/
opaque dirSet : Nat → Nat → Nat

/-- The set of a second-level entry of a translation half, by its tenant, the base and the size of its page (R184). -/
opaque l2Set : Nat → Nat → Nat → Nat

/-- Work units of an operation that its free streams run ahead of one that waits, beyond the first: the room of engine
staging, which the manual does not state (R185). -/
opaque readAhead : Nat

/-- What stands at a byte of a session's page that holds no stored value, for a KV_APPEND's descriptor (R7, R301). -/
opaque unstoredByte : List (BitVec 8) → Nat → BitVec 8

/-- The index under which a stored value is rounded again, for a KV_APPEND's descriptor and the value's place (R236, R301). -/
opaque storedIndex : List (BitVec 8) → Nat → Nat

/-- The DIMM device whose bytes a correction covers exactly (R110): whether altered bytes of a line are one device's. -/
opaque oneDevice : Nat → Bool

/-- The byte an overlapped destination of COPY takes: true for the value this copy wrote (R215). -/
opaque overlapTakesCopy : Nat → Nat → Bool

/-- One reference-clock cycle of 6.4 ns (R24), in units of 2^-32 ns, rounded down (log entry 9). -/
def tickStep : Nat := 27487790694

/-- 200 ppm of one cycle in units of 2^-32 ns (R28). -/
def slewStep : Nat := 5497558

/-- A command may take as many units as this in one walk of an unbounded list: no bound of the manual. -/
def fuel : Nat := 1000000

end Sys2Proof.Config
end

