-- ==== Sys2Proof/Machine/State.lean ====
section
/-! DEFINITION. The state of the TVD-8800 as plain data: everything the manual gives the device. INVENTORY.md lists
each piece with its rule and its reset value. -/

namespace Sys2Proof.Machine

/-- Why a step stops. Only POWER_DOWN raises one, and that is safe: the machine stops where the manual gives no
effect. -/
inductive Fault where
  /-- Raised by POWER_DOWN when a rail exceeded its value by more than 10 %: R471 promises no harm only without that
  and says nothing of what follows. Safe. -/
  | railOvervoltage
  deriving DecidableEq, Repr

/-- Why a command is refused. No meaning of this model answers with one. -/
inductive Refusal where
  /-- Raised by an arm of exec whose command has no meaning yet. Safe: nothing is claimed of the command. -/
  | notModelled (mnemonic : String)
  deriving DecidableEq, Repr

/-- Completion status codes (R84, Table 3-8). -/
inductive Status where
  | ok | lost | revoked | denied | notPresent | unsupported | quota | busy | check | paletteGone | uncorrectable
  | timeout | held | staleIncarnation | reset | faulted | version
  deriving DecidableEq, Repr

/-- Ordering codes (R1). -/
inductive OrderCode where
  | a | b | c
  deriving DecidableEq, Repr

/-! ### Control space -/

/-- UNIT_CFG_STATE of a unit (Table 2-5). -/
structure CfgFlags where
  staged : Bool := false
  committed : Bool := false
  rejected : Bool := false
  reason : BitVec 8 := 0
  deriving DecidableEq, Repr

/-- One copy of the committed set (R426). -/
structure CfgCopy where
  seq : Nat
  values : Tbl DWord
  deriving DecidableEq, Repr

/-- The control space (02_control_space.md). -/
structure Control where
  regs : Tbl DWord := []
  shadow : Tbl DWord := []
  written : List Nat := []
  flags : Tbl CfgFlags := []
  latches : Tbl Word := []
  pendingLow : Tbl Word := []
  failed : List Nat := []
  drained : List Nat := []
  resetting : List Nat := []
  groupResets : Tbl (List Nat) := []
  copies : List CfgCopy := []
  deriving DecidableEq, Repr

/-! ### Boot and service -/

/-- ROOT.SERVICE.STATE (Table 2-9). -/
inductive Service where
  | greyscale | darkHold | full
  deriving DecidableEq, Repr

/-- How far bring-up has come (Table 14-1, R413). -/
inductive BringUp where
  | rom | recovery | command | near | bulk
  deriving DecidableEq, Repr

/-- The running Adith image (R411, Table 14-4). -/
structure Image where
  svn : Nat
  digest : List Byte
  deriving DecidableEq, Repr

/-- The SPDM exchange (R417, R418): how far it has come, and the messages that signatures cover. -/
structure Spdm where
  phase : Nat := 0
  vca : List Byte := []
  certs : List Byte := []
  meas : List Byte := []
  deriving DecidableEq, Repr

/-- A request that waits at admission while the carve changes (R409). -/
structure Waiting where
  conn : Nat
  f : Frame
  port : Nat
  deriving DecidableEq, Repr

/-- Power, service, boot and identity (14_bringup_reset.md); retrain lists the ports among 0-5 still to be retrained at an
entry to full service, retraining the one that is (R408). -/
structure Boot where
  powered : Bool := true
  refclk : Bool := true
  step : BringUp := .rom
  service : Service := .greyscale
  incarn : BitVec 8 := 0
  standby : Option (BitVec 8) := none
  entered : Bool := false
  carveWait : Bool := false
  waiting : List Waiting := []
  retrain : List Nat := []
  retraining : Option Nat := none
  carve : List Nat := [8, 2, 14, 4, 1, 3]
  order : OrderCode := .a
  stepping : BitVec 8 := 1
  fuseSvn : Nat := 0
  flash : List Host.Cell := []
  slot : Nat := 0
  recovery : Bool := false
  fallback : Bool := false
  errA : Nat := 0
  errB : Nat := 0
  running : Option Image := none
  verified : Option Nat := none
  lastRestart : Option Nat := none
  restarting : Bool := false
  spdm : Spdm := { }
  lastKind : Nat := 1
  saved : Bool := false
  thermtrip : Bool := false
  deriving DecidableEq, Repr

/-- The time base (01_architecture.md). -/
structure TimeBase where
  now : Nat := 0
  frac : Nat := 0
  ran : Nat := 0
  ranFrac : Nat := 0
  slew : Int := 0
  rate : Int := 0
  lastSync : Option Nat := none
  locked : Bool := false
  holdover : Bool := false
  setRefused : Bool := false
  offset : Int := 0
  deriving DecidableEq, Repr

/-! ### Ports and transport -/

/-- One port (R70, R71, R95, R99); tried when its training since the last restart has failed (R408). -/
structure PortSt where
  up : Bool := false
  rate : Nat := 0
  lanes : BitVec 4 := 0
  lanesGood : BitVec 4 := 15
  training : Bool := false
  tried : Bool := false
  serviceDown : Bool := true
  retraining : Bool := false
  wide : Option Nat := none
  degraded : Bool := false
  downAt : Option Nat := none
  nextLldp : Nat := 0
  deriving DecidableEq, Repr

/-- A MACsec security association (R98). -/
structure SecAssoc where
  sak : BitVec 256
  salt : BitVec 96
  ssci : BitVec 32
  pn : Nat
  deriving DecidableEq, Repr

/-- A lock group's members removed for skew or link loss (R73, R74). -/
structure GroupSt where
  removed : List Nat := []
  violations : List (Nat × Nat) := []
  upSince : Tbl Nat := []
  deriving DecidableEq, Repr

/-- Connection states (Table 3-9). -/
inductive ConnState where
  | idle | accepting | openC | leaving | reclaiming
  deriving DecidableEq, Repr

/-- A path of a connection (R86-R89); arrivals holds SEQ, time and port of the frames that came on it beyond the cumulative
point (R74). -/
structure PathSt where
  aip : BitVec 128 := 0
  aport : BitVec 16 := 0
  dip : BitVec 128 := 0
  port : Nat := 0
  live : Bool := false
  opened : Bool := false
  srtt : Nat := 0
  rttvar : Nat := 0
  sampled : Bool := false
  cwnd : Nat := 4352
  alpha : Rat := 0
  ackedAll : Nat := 0
  ackedEce : Nat := 0
  roundAt : Nat := 0
  sendCwr : Bool := false
  echoEce : Bool := false
  eceSeen : Bool := false
  lastAcked : Nat := 0
  probeAt : Option Nat := none
  lost : Nat := 0
  droppedAt : Option Nat := none
  rot : Nat := 0
  arrivals : List (BitVec 32 × Nat × Nat) := []
  deriving DecidableEq, Repr

/-- A sequenced frame not yet acknowledged (R88). -/
structure TxEntry where
  f : Frame
  path : Nat
  time : Nat
  rto : Nat
  once : Bool
  deriving DecidableEq, Repr

/-- What the device remembers of one OP_ID (R85) and of its command (R80): its response once formed, whether that
response still waits for the command's other operations, and whether the agent has acknowledged it. -/
structure OpRec where
  opId : BitVec 32
  cmd : Nat := 0
  resp : Option Frame := none
  held : Bool := false
  acked : Bool := false
  deriving DecidableEq, Repr

/-- A frame in the receive window, beyond a gap (R85). -/
structure HeldFrame where
  port : Nat
  f : Frame
  deriving DecidableEq, Repr

/-- A connection (R85-R94). -/
structure Conn where
  tenant : Nat
  agent : Nat
  st : ConnState
  nonce : DWord := 0
  granted : Nat := 1
  paths : Tbl PathSt := []
  joinPath : Nat := 0
  joinOp : BitVec 32 := 0
  rxNext : BitVec 32 := 1
  rxHeld : Tbl HeldFrame := []
  unackedSince : Option Nat := none
  unackedCount : Nat := 0
  txNext : BitVec 32 := 1
  unacked : Tbl TxEntry := []
  highOp : Option (BitVec 32) := none
  ops : List OpRec := []
  cmd : Nat := 0
  lastHeard : Nat := 0
  lastKeep : Nat := 0
  leave : Option (Nat × BitVec 32) := none
  left : Bool := false
  deriving DecidableEq, Repr

/-- What the device puts on the wire, or on the AVS bus. -/
inductive Sent where
  | jmt (port : Nat) (dst : BitVec 128) (sport dport : BitVec 16) (f : Frame)
  | lldp (port : Nat) (oui : BitVec 24) (subtype : Byte) (info : List Byte)
  | avs (mV : Nat)
  deriving DecidableEq, Repr

/-- Ports and transport (03_ports_transport.md). -/
structure Net where
  ports : Tbl PortSt := []
  sas : Tbl SecAssoc := []
  groups : Tbl GroupSt := []
  joinKeys : Tbl (BitVec 256) := []
  conns : Tbl Conn := []
  nextConn : Nat := 1
  freed : Tbl Nat := []
  sent : List Sent := []
  deriving DecidableEq, Repr

/-! ### Store -/

/-- A line whose stored codeword is altered: in how many bytes (R110, R111). -/
structure Flaw where
  syms : Nat
  deriving DecidableEq, Repr

/-- Grant states (Table 4-4). -/
inductive GrantState where
  | free | granted | revoking | revoked
  deriving DecidableEq, Repr

/-- A grant entry (Table 4-4). -/
structure Extent where
  tenant : Nat := 0
  read : Bool := false
  write : Bool := false
  atomic : Bool := false
  cache : Bool := false
  st : GrantState := .free
  mirrored : Bool := false
  drillOk : Bool := false
  policy : Nat := 0
  filling : Bool := false
  clean : Bool := false
  deriving DecidableEq, Repr

/-- A revocation in progress (R119, R120): T_O (none after a warm reset), recalls not yet opened, operations
completed REVOKED and lines made Ash. -/
structure Revocation where
  tO : Option Nat
  due : List Nat := []
  timedOut : Bool := false
  ops : Nat := 0
  ash : Nat := 0
  deriving DecidableEq, Repr

/-- Quotas of a tenant (R121). -/
structure Quota where
  near : Nat := 0xFFFFF
  bulk : Nat := 0xFFFFF
  refused : Nat := 0
  deriving DecidableEq, Repr

/-- Where a tile lies (Table 4-9). -/
inductive Tier where
  | unbacked | near | bulk | muted
  deriving DecidableEq, Repr

/-- A remap entry (Table 4-9), with the consecutive windows without access that IDLE_WINDOWS counts, whether its decode has
failed (R285), and the bytes of a muted tile's sectors (Table 9-6). -/
structure Tile where
  tier : Tier := .unbacked
  policy : Nat := 0
  moving : Bool := false
  seen : Nat := 0
  accesses : Nat := 0
  sectors : Nat := 0
  location : Nat := 0
  idle : Nat := 0
  bad : Bool := false
  coded : List Byte := []
  deriving DecidableEq, Repr

/-- Why a tile moves. -/
inductive MoveCause where
  | window
  | job (id : Nat)
  | unmute
  deriving DecidableEq, Repr

/-- A move in progress (R32, R33), and the codec that codes or decodes its tile (R282). -/
structure Move where
  target : Tier
  location : Nat
  sectors : Nat := 0
  pass : Nat := 1
  marked : List Nat := []
  cause : MoveCause
  codec : Option Nat := none
  waiting : List Nat := []
  deriving DecidableEq, Repr

/-- Source frames that a switched move frees once the accesses admitted against them have completed. -/
structure FreeSrc where
  tier : Tier
  location : Nat
  sectors : Nat
  ops : List Nat
  deriving DecidableEq, Repr

/-- A near or bulk channel (Table 4-10); a channel of BULK_MAP that failed to train after a warm reset is lost until the next
cold reset (R109). -/
structure Channel where
  trained : Bool := false
  refused : Bool := false
  dimms : List Dimm := []
  speed : Nat := 0
  capacity : Nat := 0
  lost : Bool := false
  scrubAt : Nat := 0
  deriving DecidableEq, Repr

/-- The store (04_store_tiers.md). -/
structure Store where
  mem : List Host.Cell := []
  flawed : Tbl Flaw := []
  corrected : List Nat := []
  extents : Tbl Extent := []
  revs : Tbl Revocation := []
  quotas : Tbl Quota := []
  tiles : Tbl Tile := []
  moves : Tbl Move := []
  freeing : Tbl (List FreeSrc) := []
  near : Tbl Channel := []
  bulk : Tbl Channel := []
  nearList : List Nat := []
  bulkMap : List Nat := []
  windowAt : List Nat := [0, 0]
  deriving DecidableEq, Repr

/-! ### Coherence -/

/-- Home states (Table 5-2). -/
inductive HomeState where
  | u | s | e | m | o | ash | rhm
  deriving DecidableEq, Repr

/-- Sharers of a line (Table 5-1, R138). -/
inductive Sharers where
  | pointers (agents : List Nat)
  | coarse (groups : BitVec 64)
  deriving DecidableEq, Repr

/-- What a line request asks of the home (Table 5-5 and the recalls of R119, R154, R457). -/
inductive ReqKind where
  | getS | getM | upgrade | putM | putO | putE | read | write | snap | evict | revoke | recall
  deriving DecidableEq, Repr

/-- A request at the home of one line: the operation it belongs to (if any) and when it arrived. -/
structure LineReq where
  op : Nat
  kind : ReqKind
  line : Nat
  at_ : Nat
  deriving DecidableEq, Repr

/-- Home messages (Table 5-4). -/
inductive MsgKind where
  | inv | fwdS | fwdM | recall | fetch
  deriving DecidableEq, Repr

/-- A home message and whether its answer has been given (R142, R149); unsent in Dark hold (R169). -/
structure HomeMsg where
  opId : Nat
  target : Nat
  kind : MsgKind
  answered : Bool := false
  unsent : Bool := false
  deriving DecidableEq, Repr

/-- Open transactions (Table 5-1, TXN). -/
inductive TxnKind where
  | invalidating | forwarding | fetching | recalling
  deriving DecidableEq, Repr

/-- An open transaction (R143-R151). -/
structure Txn where
  kind : TxnKind
  req : LineReq
  msgs : List HomeMsg
  was : HomeState
  fwdM : Bool := false
  snap : Bool := false
  selfFwd : Option Nat := none
  fwdDone : Bool := false
  recvDone : Bool := false
  fwdDoneAt : Option Nat := none
  reqDead : Bool := false
  got : Option (List Byte) := none
  lost : Bool := false
  putTaken : Bool := false
  deriving DecidableEq, Repr

/-- A directory entry (Table 5-1), its queue (R143) and its last use (R154); spilled when it lies in the overflow
list (R410). -/
structure DirEntry where
  st : HomeState := .u
  owner : Nat := 0
  sharers : Sharers := .pointers []
  used : Nat := 0
  txn : Option Txn := none
  queue : List LineReq := []
  puts : List LineReq := []
  spilled : Bool := false
  deriving DecidableEq, Repr

/-- An Ash log entry (R159). -/
structure AshEntry where
  cause : Nat
  agent : Nat
  line : Nat
  cleared : Bool := false
  deriving DecidableEq, Repr

/-- A dead agent being reclaimed (R156): its connection, its cause of death, and whether a drill killed it. -/
structure Reclaim where
  conn : Nat
  drill : Bool := false
  deriving DecidableEq, Repr

/-- The rehome window (REHOME_STAT.STATE). -/
inductive RehomeSt where
  | none | awaiting | opened | closed
  deriving DecidableEq, Repr

/-- Coherence (05_coherence.md), with the open INVs of no transaction (R156), and the lines whose directory entry holds an
uncorrectable error that no lookup has met yet: a physical condition, which no command of the table brings about (R155). -/
structure Coherence where
  dir : Tbl DirEntry := []
  nextMsg : Nat := 1
  reclaims : Tbl Reclaim := []
  lastReclaim : Nat := 0
  log : Tbl AshEntry := []
  rehomeSt : RehomeSt := .none
  rehomeSaved : Bool := false
  rehomeAt : Nat := 0
  forcedHold : Bool := false
  clock : Nat := 0
  loose : List (Nat × HomeMsg) := []
  spoilt : List Nat := []
  deriving DecidableEq, Repr

/-! ### Translation -/

/-- A translation context (R178). -/
structure XContext where
  en : Bool := false
  rootBits : Nat := 0
  root : Nat := 0
  deriving DecidableEq, Repr

/-- The right an access needs (Table 6-5, ACCESS). -/
inductive Access where
  | read | write | atomic
  deriving DecidableEq, Repr

/-- A cached translation (R184): tenant, page base and size, target and rights. -/
structure TlbEntry where
  tenant : Nat
  va : Nat
  size : Nat
  pa : Nat
  read : Bool
  write : Bool
  atomic : Bool
  deriving DecidableEq, Repr

/-- A cached pointer entry of levels 1 to 3 (R184): the table that covers va to va + size - 1. -/
structure PtrEntry where
  tenant : Nat
  level : Nat
  va : Nat
  size : Nat
  table : Nat
  deriving DecidableEq, Repr

/-- Who waits for a translation: a job's work unit, its engine and stream (R185), and what it means to do there. -/
structure Waiter where
  job : Nat
  unit : Nat
  engine : Nat
  stream : Nat
  access : Access
  peerCopy : Bool := false
  deriving DecidableEq, Repr

/-- A walk, under way or waiting for a walker, with the tag of the access that caused it (R181, R185, R221). -/
structure Walk where
  half : Nat
  tenant : Nat
  va : Nat
  engine : Nat
  waiters : List Waiter
  tag : Nat := 0
  started : Bool := false
  level : Nat := 1
  table : Nat := 0
  reading : Option Nat := none
  deriving DecidableEq, Repr

/-- A fault record (Table 6-5). -/
structure FaultRec where
  kind : Nat
  access : Access
  level : Nat
  unit : Nat
  stream : Nat
  opId : BitVec 32
  count : Nat := 1
  vpn : Nat
  deriving DecidableEq, Repr

/-- Batch states (R188). -/
inductive BatchSt where
  | free | collecting | closed
  deriving DecidableEq, Repr

/-- A fault batch (R188). -/
structure Batch where
  gen : Nat := 0
  st : BatchSt := .free
  tenant : Nat := 0
  recs : List FaultRec := []
  firstAt : Nat := 0
  closedAt : Nat := 0
  deriving DecidableEq, Repr

/-- A parked stream (R187): who, what it accessed, since when, the batch slot of its record (none: R188 Limits), and
whether it walks again (R190). -/
structure Parked where
  who : Waiter
  va : Nat
  since : Nat
  slot : Option Nat
  walking : Bool := false
  deriving DecidableEq, Repr

/-- An INVAL, or a CTL_WR with XLAT_APPLY, that awaits its answer, the accesses and the peer writes that it waits for
(R194, R199). -/
structure InvalWait where
  conn : Nat
  f : Frame
  since : Nat
  ops : List Nat
  peers : List Nat := []
  apply : Bool := false
  deriving DecidableEq, Repr

/-- Translation (06_translation.md). Each half's second level is a list, most recent first; spoilt names the cached entries
with an uncorrectable error, each with its half (R197), which no command brings about. -/
structure Xlat where
  ctx : Tbl XContext := []
  pendCtrl : Tbl Word := []
  pendRoot : Tbl DWord := []
  tlbs : Tbl (List TlbEntry) := []
  l2 : Tbl (List TlbEntry) := []
  ptrs : Tbl (List PtrEntry) := []
  walks : Tbl Walk := []
  nextWalk : Nat := 0
  batches : Tbl Batch := []
  parked : List Parked := []
  invals : Tbl InvalWait := []
  nextInval : Nat := 0
  tlbHits : Tbl Nat := []
  tlbMisses : Tbl Nat := []
  spoilt : List (Nat × TlbEntry) := []
  deriving DecidableEq, Repr

/-! ### Operations and jobs -/

/-- A reference to a palette generation (R269): slot and generation, and, for a block being decoded, the work unit and
the page of the expander or tier codec that holds it. A raw block under decode refers to none: its slot is its symbol mode. -/
structure PalRef where
  slot : Nat
  gen : Nat
  unit : Nat := 0
  page : Nat := 0
  raw : Bool := false
  deriving DecidableEq, Repr

/-- A block that a work unit has decoded: its failure, or its values, the bits it took, and whether it was raw (R288). -/
structure Decoded where
  unit : Nat
  va : Nat
  fail : Option Status := none
  vals : List Byte := []
  bits : Nat := 0
  raw : Bool := false
  deriving DecidableEq, Repr

/-- Where an operation comes from. -/
inductive OpSrc where
  | agent
  | engine (job : Nat) (unit : Nat)
  | walk (n : Nat)
  | twin
  deriving DecidableEq, Repr

/-- An operation in flight, from admission to its response (R18, R220), or an engine's access to lines: the lines still
to be served, the failures and data of those served, the grant of a coherence request, and whether a forward has
answered in the home's place. -/
structure Op where
  src : OpSrc
  conn : Nat
  f : Frame
  tenant : Nat
  extent : Nat
  half : Nat
  at_ : Nat
  cmd : Nat := 0
  tag : Nat := 0
  left : List Nat := []
  started : Bool := false
  fails : List (Nat × Status) := []
  got : Tbl (List Byte) := []
  fence : Bool := false
  mirrored : Bool := false
  grant : Nat := 0
  silent : Bool := false
  ref : Option PalRef := none
  via : Option (Nat × Nat) := none
  probe : Bool := false
  finished : Bool := false
  deriving DecidableEq, Repr

/-- What a work unit of a job waits for: a translation, an access, or a stream that an earlier unit of the job still has
stopped (R185). -/
inductive Miss where
  | page (va : Nat) (access : Access) (stream : Nat) (peerCopy : Bool)
  | op (op : Nat)
  | behind (stream : Nat)
  deriving DecidableEq, Repr

/-- A work unit (tile, run, piece, query, bulk operation ...) that holds an engine while it waits, and for a query of a
search half the matrix array that it runs on. -/
structure Blocked where
  unit : Nat
  engine : Nat
  misses : List Miss
  array : Option Nat := none
  deriving DecidableEq, Repr

/-- Phases of a job. -/
inductive JobPhase where
  | ingress | waiting | running | done
  deriving DecidableEq, Repr

/-- A job or bulk operation (R202-R211). In phase done its completion has been formed, with the status kept, and the result
is being written at TARGET (R210). Of a work unit that is written whole or not at all, tries keeps what the lines it waited
for came to, and saved the outputs that stand; blocks keeps what a waiting unit has decoded; lowest is the lowest unit that a
stop has left undone (R249). -/
structure Job where
  conn : Nat
  f : Frame
  ty : Nat
  tenant : Nat
  flags : Nat
  target : Nat
  seed : Nat
  limit : Nat
  user : Nat
  body : List Byte
  tAdmit : Nat
  admitted : Nat := 0
  die : Nat
  tag : Nat := 0
  phase : JobPhase := .waiting
  status : Status := .ok
  units : Nat := 1
  next : Nat := 0
  finished : Nat := 0
  blocked : List Blocked := []
  fails : Tbl Status := []
  counts : List Nat := []
  detail : Nat := 0
  result : List Byte := []
  stopped : Option Status := none
  extents : List Nat := []
  staging : Tbl (List Byte) := []
  bad : Tbl Status := []
  held : List TlbEntry := []
  weight : Nat := 0
  bind : List Nat := []
  doneAt : Nat := 0
  isBulk : Bool := false
  engine : Nat := 0
  head : List Byte := []
  written : Nat := 0
  outs : Tbl (List Byte) := []
  todo : List Nat := []
  refs : List PalRef := []
  peerLeft : List Nat := []
  kept : List TlbEntry := []
  via : Option (Nat × Nat) := none
  faultAt : Tbl Nat := []
  tries : Tbl Status := []
  saved : List Nat := []
  blocks : List Decoded := []
  lowest : Option Nat := none
  deriving DecidableEq, Repr

/-- Credits, weights and finish tag of a tenant (R205, R221, R225). -/
structure TenantJobs where
  weight : Nat := 0x100
  credits : Nat := 0x40
  finish : Option Nat := none
  deriving DecidableEq, Repr

/-- States of a peer connection (Table 7-9, PEER_STAT). -/
inductive PeerSt where
  | idle | joining | opened | closing
  deriving DecidableEq, Repr

/-- A write outstanding on a peer connection (R217). -/
structure PeerWrite where
  opId : BitVec 32
  job : Nat
  offset : Nat
  len : Nat
  via : Option (Nat × Nat) := none
  deriving DecidableEq, Repr

/-- An entry of the peer table (R227); live names the paths that have been opened (R86, R217). -/
structure Peer where
  dev : Nat := 0
  ident : BitVec 32 := 0
  ip : BitVec 128 := 0
  st : PeerSt := .idle
  result : Nat := 0
  since : Nat := 0
  conn : BitVec 24 := 0
  incarn : BitVec 8 := 0
  txNext : BitVec 32 := 1
  opNext : BitVec 32 := 1
  ports : List Nat := []
  live : List Nat := []
  writes : List PeerWrite := []
  wait : Option (Nat × Frame) := none
  deriving DecidableEq, Repr

/-- Operations, jobs, fair tags, peers (07_jobs_bulk.md); misfires names the mismatches that the chunk sums of the next query
or merge will show, for each chunk how many (R252), which no command brings about. -/
structure Jobs where
  ops : Tbl Op := []
  nextOp : Nat := 1
  jobs : Tbl Job := []
  nextJob : Nat := 1
  tenants : Tbl TenantJobs := []
  vtime : Option Nat := none
  peers : Tbl Peer := []
  misfires : List Nat := []
  deriving DecidableEq, Repr

/-! ### Arrays and palettes -/

/-- A resident palette generation (R265-R268): its number, and code lengths by symbol. -/
structure Gen where
  num : Nat
  lens : List Nat
  deriving DecidableEq, Repr

/-- States of a palette build (R274, PAL_INFO.BUILD). -/
inductive BuildSt where
  | waiting | collecting | pending
  deriving DecidableEq, Repr

/-- A palette build (R273, R274). -/
structure Build where
  st : BuildSt
  counts : List Nat := []
  blocks : Nat := 0
  since : Nat := 0
  alarmed : Bool := false
  lens : List Nat := []
  deriving DecidableEq, Repr

/-- A palette slot (R267); a slot not in the table is UNCONFIGURED. -/
structure Slot where
  smode : Nat := 0
  always : Bool := false
  auto : Bool := false
  newer : Option Gen := none
  older : Option Gen := none
  build : Option Build := none
  deriving DecidableEq, Repr

/-- Who asks for a histogram unit (R274, R452). -/
inductive HistUser where
  | slot (n : Nat)
  | monitor (m : Nat)
  deriving DecidableEq, Repr

/-- Palettes and histogram units (09_compression.md). -/
structure Palettes where
  slots : Tbl Slot := []
  histQueue : Tbl (List HistUser) := []
  histHeld : Tbl (List HistUser) := []
  deriving DecidableEq, Repr

/-! ### Sessions, tables, collections -/

/-- A session (R295). -/
structure Session where
  gen : Nat := 0
  opened : Bool := false
  tenant : Nat := 0
  layers : Nat := 0
  kvHeads : Nat := 0
  qHeads : Nat := 0
  dim : Nat := 0
  fmt : Nat := 0
  compress : Bool := false
  maxTokens : Nat := 0
  base : Nat := 0
  kSlot : Nat := 0
  vSlot : Nat := 0
  kAlways : Bool := false
  vAlways : Bool := false
  length : Nat := 0
  deriving DecidableEq, Repr

/-- A resident version of an embedding table (R318-R321, R338, R339). -/
structure Version where
  num : Nat
  lo : Nat
  rows : Nat
  base : Nat
  acc : Nat
  hot : Nat
  stride : Nat
  hotRows : Nat
  bound : Nat := 0
  tracker : Tbl Nat := []
  hotSlots : Tbl Nat := []
  windows : Nat := 0
  due : List Nat := []
  deriving DecidableEq, Repr

/-- An embedding table (R317, R345). -/
structure Table where
  gen : Nat := 0
  opened : Bool := false
  closing : Option Nat := none
  tenant : Nat := 0
  rowsTotal : Nat := 0
  e : Nat := 0
  fmt : Nat := 0
  tflags : Nat := 0
  versions : List Version := []
  alert : Nat := 0
  occ : Nat := 0
  fetches : Nat := 0
  updates : Nat := 0
  dropRange : Nat := 0
  dropSent : Nat := 0
  dropAbsent : Nat := 0
  promotions : Nat := 0
  demotions : Nat := 0
  winNow : Nat := 0
  winFetch : Nat := 0
  topCount : Nat := 0
  topRow : Nat := 0
  deriving DecidableEq, Repr

/-- Embeddings (11_embeddings.md): tables and the merge entries that running jobs have claimed. -/
structure Embeddings where
  tables : Tbl Table := []
  claims : Tbl Nat := []
  windowAt : Nat := 0
  deriving DecidableEq, Repr

/-- Merge states of a collection (COLL_MERGE.STATE). -/
inductive MergeSt where
  | none | running | draining | pending
  deriving DecidableEq, Repr

/-- A bucket written by the running merge: table, code, first granule of the heap, granules and IDs written. -/
structure NewBucket where
  table : Nat
  code : Nat
  loc : Nat
  granules : Nat
  ids : Nat
  deriving DecidableEq, Repr

/-- The merge of a collection (R368-R371). -/
structure Merge where
  st : MergeSt := .none
  full : Bool := false
  s : Nat := 0
  job : Option Nat := none
  out : Nat := 0
  built : List NewBucket := []
  retired : List (Nat × Nat) := []
  complete : Bool := false
  drop : List Nat := []
  consumed : Nat := 0
  idsWritten : Nat := 0
  oldGen : Nat := 0
  deriving DecidableEq, Repr

/-- A collection (R347-R349, R360, R375). -/
structure Collection where
  gen : Nat := 0
  opened : Bool := false
  closing : Option Nat := none
  tenant : Nat := 0
  vecBase : Nat := 0
  metaBase : Nat := 0
  metaBytes : Nat := 0
  projBase : Nat := 0
  capPages : Nat := 0
  vstride : Nat := 0
  sideMax : Nat := 0
  d : Nat := 0
  vtype : Nat := 0
  metric : Nat := 0
  tables : Nat := 0
  codeBits : Nat := 0
  heapBytes : Nat := 0
  epoch : Nat := 0
  generation : Nat := 0
  sideLo : Nat := 0
  sideFirst : Nat := 0
  sideUsed : Nat := 0
  live : Nat := 0
  quarantined : Nat := 0
  heapUsed : Nat := 0
  merge : Merge := { }
  hints : Tbl (List Nat) := []
  deriving DecidableEq, Repr

/-- Collections (12_vector_search.md). -/
structure Searches where
  colls : Tbl Collection := []
  deriving DecidableEq, Repr

/-! ### Duotone -/

/-- Lease states (Table 13-5). -/
inductive LeaseSt where
  | none | hold | shadow | giving | lost | solo | fenced | conflict
  deriving DecidableEq, Repr

/-- A lease entry (R392); before is the state left on the way to LOST (R395), given whether GIVE has been sent, partner the
state that the partner last listed (LEASE_INFO code, 0 for none). -/
structure Lease where
  st : LeaseSt := .none
  holder : Nat := 0
  gen : Nat := 0
  before : LeaseSt := .none
  given : Bool := false
  partner : Nat := 0
  deriving DecidableEq, Repr

/-- What a path of the twin connection remembers of PAIR_HELLO (R380): the NONCEs sent and when, the last answer under step
1, and the last PAIR_HELLO of the 10 ms timer. -/
structure TwinPath where
  nonces : List (DWord × Nat) := []
  lastAnswer : Option Nat := none
  lastHello : Option Nat := none
  deriving DecidableEq, Repr

/-- A mirrored operation at its holder (Table 13-3): key, operation and its connection, extent, place, new and old value,
phase; front when the partner is its requester. -/
structure HolderOp where
  key : TwinKey
  op : Nat
  conn : Nat
  extent : Nat
  addr : Nat
  value : List Byte
  old : List Byte
  phase : Nat
  front : Bool := false
  deriving DecidableEq, Repr

/-- A shadow (R388). -/
structure Shadow where
  key : TwinKey
  extent : Nat
  addr : Nat
  value : List Byte
  old : List Byte
  phase : Nat
  deriving DecidableEq, Repr

/-- A request handed over (R389, R390): the sender's copy, when it was sent, whether TAKEN has come, whether it is an
orphan, and whether it answers a requester here (a front entry). -/
structure Handed where
  key : TwinKey
  op : Nat
  extent : Nat
  f : Frame
  since : Nat
  taken : Bool := false
  orphan : Bool := false
  front : Bool := true
  deriving DecidableEq, Repr

/-- A recorded result (R398). -/
structure Recorded where
  key : TwinKey
  status : Status
  payload : List Byte
  deriving DecidableEq, Repr

/-- Resynchronisation of one extent (Table 13-7): at the source the chunks marked by writes, those of the running pass, the
next byte and the pass; the 64 MiB units done; at the partner only these. -/
structure Resync where
  extent : Nat
  source : Bool := true
  marked : List Nat := []
  todo : List Nat := []
  pos : Nat := 0
  pass : Nat := 1
  ckpt : Nat := 0
  suspended : Bool := false
  deriving DecidableEq, Repr

/-- An extent command carried to the partner (R383), and the CTL_WR that completes once it is settled, with its
connection. -/
structure Carried where
  extent : Nat
  cmd : Nat
  arg : Nat
  wait : Option (Nat × Frame) := none
  deriving DecidableEq, Repr

/-- Duotone pairs (13_duotone.md). The twin connection itself stands among the connections, under a number of its own. -/
structure Twin where
  key : Option (BitVec 256) := none
  paths : Tbl TwinPath := []
  partnerIncarn : Option (BitVec 8) := none
  lastHeard : Nat := 0
  listSent : Bool := false
  listed : Bool := false
  leases : Tbl Lease := []
  dirty : List Nat := []
  resync : Option Resync := none
  holders : List HolderOp := []
  shadows : List Shadow := []
  handed : List Handed := []
  waiting : List (Nat × Nat) := []
  recorded : List Recorded := []
  recordedAt : Nat := 0
  carried : List Carried := []
  pairCode : Nat := 0
  lastRenew : Nat := 0
  lastBeat : Nat := 0
  deriving DecidableEq, Repr

/-! ### Events, monitors, drills, power -/

/-- Arguments of the raise that a source's record will carry (Table 15-4). -/
structure RaiseArgs where
  time : Nat := 0
  status : Nat := 0
  arg0 : Nat := 0
  arg1 : Nat := 0
  drill : Bool := false
  soft : Bool := false
  count : Nat := 0
  deriving DecidableEq, Repr

/-- The event controller (15_events_monitors_drills.md). -/
structure Events where
  mask : BitVec 1024 := 0
  pend : BitVec 1024 := 0
  out : BitVec 1024 := 0
  counts : Tbl Nat := []
  args : Tbl RaiseArgs := []
  level : BitVec 1024 := 0
  lostBefore : Bool := false
  ringRaised : Bool := false
  ringOk : Bool := false
  ringBad : Bool := false
  seq : Nat := 1
  lastBeacon : Tbl Nat := []
  beaconDue : List Nat := []
  lastAny : Nat := 0
  deriving DecidableEq, Repr

/-- The samples of one window (R450). -/
structure Win where
  min : Nat := 0xFFFFFFFFFFFFFFFF
  max : Nat := 0
  count : Nat := 0
  sum : Nat := 0
  sumSat : Bool := false
  bins : Tbl Nat := []
  noHist : Bool := false
  partialW : Bool := false
  deriving DecidableEq, Repr

/-- A monitor slot (R449-R453). -/
structure MonSlot where
  run : Bool := false
  badProbe : Bool := false
  now : Win := { }
  latched : Win := { }
  nextClose : Nat := 0
  seq : Nat := 0
  endAt : Nat := 0
  alarm : Bool := false
  deriving DecidableEq, Repr

/-- Drill states (DRILL_STAT). -/
inductive DrillSt where
  | idle | armed | active
  deriving DecidableEq, Repr

/-- The drill unit (R454-R458). -/
structure Drill where
  st : DrillSt := .idle
  key : Nat := 0
  armedAt : Nat := 0
  lastFire : Option Nat := none
  result : Nat := 0
  kind : Nat := 0
  page : Nat := 0
  arg : Nat := 0
  lines : List Nat := []
  endAt : Nat := 0
  frames : Nat := 0
  declared : Bool := false
  deriving DecidableEq, Repr

/-- One rail as last polled (R467, R479). -/
structure Rail where
  mV : Nat := 0
  amps : Nat := 0
  watts : Nat := 0
  status : BitVec 16 := 0
  deriving DecidableEq, Repr

/-- The power and pace unit (16_package_power.md). -/
structure Power where
  thermal : Nat := 850
  power : Nat := 850
  req : Nat := 750
  limit : Nat := 0
  unacked : Bool := false
  above : Bool := false
  thermOver : Bool := false
  paceLow : Bool := false
  sensors : List Int := []
  tj : Int := 0
  rails : Tbl Rail := []
  lastTick : Nat := 0
  lastPoll : Nat := 0
  deriving DecidableEq, Repr

/-- Edges raised only after 1 ms without another, by source (R99, R176, R228, R255, R291, R316, R346, R376, R404). -/
structure QuietEdges where
  last : Tbl Nat := []
  deriving DecidableEq, Repr

/-- The whole state of the device. -/
structure State where
  pending : List Instr := []
  free : Nat := 0
  ctl : Control := { }
  boot : Boot := { }
  time : TimeBase := { }
  net : Net := { }
  store : Store := { }
  coh : Coherence := { }
  xlat : Xlat := { }
  jobs : Jobs := { }
  pal : Palettes := { }
  sess : Tbl Session := []
  emb : Embeddings := { }
  srch : Searches := { }
  twin : Twin := { }
  ev : Events := { }
  mon : Tbl MonSlot := []
  drill : Drill := { }
  pwr : Power := { }
  quiet : QuietEdges := { }
  deriving DecidableEq, Repr

/-- The machine right after reset: power good, cold reset released, the boot ROM about to run (Table 14-1 step 1),
every register at its reset value, the incarnation a free value (R431), tenant 0 holding the fused join key (R101). -/
def State.reset : State :=
  { boot := { incarn := BitVec.ofNat 8 (Config.freeValue 0), standby := some (BitVec.ofNat 8 (Config.freeValue 0)) }
    net := { joinKeys := [(0, Config.fusedJoinKey)] }
    free := 1 }

end Sys2Proof.Machine
end

