-- ==== Sys2Proof/Machine/Regs.lean ====
section
/-! DEFINITION. The register catalogue (Tables 1-5, 1-10, 2-1, 2-9, 3-12, 3-15, 3-16, 4-8, 4-10, 5-10, 5-11, 6-7, 6-8,
7-7 to 7-9, 8-11, 9-8 to 9-10, 10-8, 10-9, 11-7, 11-8, 12-8, 12-9, 13-8, 14-12, 15-8 to 15-10, 16-6): offset, size,
access code, staging, writable bits and reset value of every register, and the control address of each by name. A
reset value that the manual writes as a dash is 0 here (log entry 3). -/

namespace Sys2Proof.Machine

/-- Access codes (R10, Table 0-3). -/
inductive RegAcc where
  | ro | rw | w1c | wo | rws
  deriving DecidableEq, Repr

/-- One register, or n consecutive words of one name. -/
structure RegDef where
  off : Nat
  n : Nat := 1
  wide : Bool := false
  acc : RegAcc
  staged : Bool := false
  mask : Nat := 0xFFFFFFFF
  reset : Nat := 0
  deriving DecidableEq, Repr

/-! ### Control addresses by name -/

abbrev Reg.rootTimeLo : Nat := 0x100
abbrev Reg.rootTimeHi : Nat := 0x104
abbrev Reg.rootTimeCtrl : Nat := 0x108
abbrev Reg.rootTimeStat : Nat := 0x10C
abbrev Reg.rootTimeOffset : Nat := 0x110
abbrev Reg.rootTimeSetLo : Nat := 0x114
abbrev Reg.rootTimeSetHi : Nat := 0x118
abbrev Reg.rootPace : Nat := 0x120
abbrev Reg.rootForeignAddr : Nat := 0x124
abbrev Reg.rootCarveDir : Nat := 0x200
abbrev Reg.rootCarveReq : Nat := 0x204
abbrev Reg.rootCarveStage : Nat := 0x208
abbrev Reg.rootCarveMerge : Nat := 0x20C
abbrev Reg.rootCarveXlat : Nat := 0x210
abbrev Reg.rootCarveTables : Nat := 0x214
abbrev Reg.rootCarveStat : Nat := 0x218
abbrev Reg.unitId (page : Nat) : Nat := page * 4096 + 0x0
abbrev Reg.unitVer (page : Nat) : Nat := page * 4096 + 0x4
abbrev Reg.unitCap (page : Nat) : Nat := page * 4096 + 0x8
abbrev Reg.unitTree (page : Nat) : Nat := page * 4096 + 0xC
abbrev Reg.unitParent (page : Nat) : Nat := page * 4096 + 0x10
abbrev Reg.unitCtrl (page : Nat) : Nat := page * 4096 + 0x14
abbrev Reg.unitStat (page : Nat) : Nat := page * 4096 + 0x18
abbrev Reg.unitErr (page : Nat) : Nat := page * 4096 + 0x1C
abbrev Reg.unitErrMask (page : Nat) : Nat := page * 4096 + 0x20
abbrev Reg.unitEvBase (page : Nat) : Nat := page * 4096 + 0x24
abbrev Reg.unitPace (page : Nat) : Nat := page * 4096 + 0x28
abbrev Reg.unitCfgState (page : Nat) : Nat := page * 4096 + 0x2C
abbrev Reg.rootDeviceNum : Nat := 0x40
abbrev Reg.rootOrderCode : Nat := 0x44
abbrev Reg.rootPageLimit : Nat := 0x48
abbrev Reg.rootAbsentWrites : Nat := 0x4C
abbrev Reg.rootCtlBad : Nat := 0x50
abbrev Reg.rootCtlRefused : Nat := 0x54
abbrev Reg.rootCfgCommitLo : Nat := 0x58
abbrev Reg.rootCfgCommitHi : Nat := 0x5C
abbrev Reg.rootCfgSeq : Nat := 0x60
abbrev Reg.rootCfgReason : Nat := 0x64
abbrev Reg.rootCfgStatus : Nat := 0x68
abbrev Reg.rootCfgCrc : Nat := 0x6C
abbrev Reg.rootCfgDiscard : Nat := 0x70
abbrev Reg.rootService : Nat := 0x300
abbrev Reg.portPortCtrl (page : Nat) : Nat := page * 4096 + 0x40
abbrev Reg.portLaneStat (page : Nat) : Nat := page * 4096 + 0x44
abbrev Reg.portPortIp (page : Nat) : Nat := page * 4096 + 0x48
abbrev Reg.portMacLo (page : Nat) : Nat := page * 4096 + 0x58
abbrev Reg.portMacHi (page : Nat) : Nat := page * 4096 + 0x5C
abbrev Reg.portRxFrames (page : Nat) : Nat := page * 4096 + 0x60
abbrev Reg.portTxFrames (page : Nat) : Nat := page * 4096 + 0x68
abbrev Reg.portFecCorr (page : Nat) : Nat := page * 4096 + 0x70
abbrev Reg.portFecUncorr (page : Nat) : Nat := page * 4096 + 0x78
abbrev Reg.portRxDropBuf (page : Nat) : Nat := page * 4096 + 0x80
abbrev Reg.portRxDropHdr (page : Nat) : Nat := page * 4096 + 0x84
abbrev Reg.portRxCe (page : Nat) : Nat := page * 4096 + 0x88
abbrev Reg.portLinkDowns (page : Nat) : Nat := page * 4096 + 0x8C
abbrev Reg.portLinkDownNs (page : Nat) : Nat := page * 4096 + 0x90
abbrev Reg.portLaneFaults (page : Nat) : Nat := page * 4096 + 0x98
abbrev Reg.portMacsecCtrl (page : Nat) : Nat := page * 4096 + 0xA0
abbrev Reg.portMacsecReplay (page : Nat) : Nat := page * 4096 + 0xA4
abbrev Reg.portSaSel (page : Nat) : Nat := page * 4096 + 0xA8
abbrev Reg.portSak (page : Nat) : Nat := page * 4096 + 0xB0
abbrev Reg.portSalt (page : Nat) : Nat := page * 4096 + 0xD0
abbrev Reg.portSsci (page : Nat) : Nat := page * 4096 + 0xDC
abbrev Reg.portSaInstall (page : Nat) : Nat := page * 4096 + 0xE0
abbrev Reg.portTxPn (page : Nat) : Nat := page * 4096 + 0xE8
abbrev Reg.portMacsecDrop (page : Nat) : Nat := page * 4096 + 0xF0
abbrev Reg.portLldpCtrl (page : Nat) : Nat := page * 4096 + 0xF4
abbrev Reg.lgLgCtrl (page : Nat) : Nat := page * 4096 + 0x40
abbrev Reg.lgLgMembersLo (page : Nat) : Nat := page * 4096 + 0x44
abbrev Reg.lgLgMembersHi (page : Nat) : Nat := page * 4096 + 0x48
abbrev Reg.lgLgIp (page : Nat) : Nat := page * 4096 + 0x4C
abbrev Reg.lgLgStat (page : Nat) : Nat := page * 4096 + 0x60
abbrev Reg.lgLgActiveLo (page : Nat) : Nat := page * 4096 + 0x64
abbrev Reg.lgLgActiveHi (page : Nat) : Nat := page * 4096 + 0x68
abbrev Reg.lgLgRemovals (page : Nat) : Nat := page * 4096 + 0x6C
abbrev Reg.pgJmtUdpPort : Nat := 0x3040
abbrev Reg.pgJmtCtrl : Nat := 0x3044
abbrev Reg.pgOpsMax : Nat := 0x3048
abbrev Reg.pgConnOpen : Nat := 0x304C
abbrev Reg.pgAgentKill : Nat := 0x3050
abbrev Reg.pgJoinKeyTenant : Nat := 0x3054
abbrev Reg.pgJoinKey : Nat := 0x3058
abbrev Reg.pgJoinKeyInstall : Nat := 0x3078
abbrev Reg.pgLldpOui : Nat := 0x307C
abbrev Reg.pgJoinOk : Nat := 0x3080
abbrev Reg.pgJoinDenied : Nat := 0x3084
abbrev Reg.pgJoinHeld : Nat := 0x3088
abbrev Reg.pgJoinBusy : Nat := 0x308C
abbrev Reg.pgDeadSilence : Nat := 0x3090
abbrev Reg.pgDeadKilled : Nat := 0x3094
abbrev Reg.pgDupDropped : Nat := 0x3098
abbrev Reg.pgStaleSent : Nat := 0x309C
abbrev Reg.pgRxWindowDrop : Nat := 0x30A0
abbrev Reg.pgRetxSent : Nat := 0x30A4
abbrev Reg.pgJoinClash : Nat := 0x30A8
abbrev Reg.pgJoinBad : Nat := 0x30AC
abbrev Reg.pgConnSel : Nat := 0x30B0
abbrev Reg.pgConnInfo : Nat := 0x30B4
abbrev Reg.pgConnAgent : Nat := 0x30B8
abbrev Reg.pgConnPaths : Nat := 0x30BC
abbrev Reg.pgConnSrtt : Nat := 0x30C0
abbrev Reg.pgConnAdmitted : Nat := 0x30C4
abbrev Reg.pgLeft : Nat := 0x30C8
abbrev Reg.pgRejoined : Nat := 0x30CC
abbrev Reg.pgStaleDropped : Nat := 0x30D0
abbrev Reg.tmNearPlaced : Nat := 0x1012040
abbrev Reg.tmBulkPlaced : Nat := 0x1012044
abbrev Reg.tmNearExtents : Nat := 0x1012048
abbrev Reg.tmBulkExtents : Nat := 0x101204C
abbrev Reg.tmBulkMap : Nat := 0x1012050
abbrev Reg.tmBlendedMax : Nat := 0x1012054
abbrev Reg.tmWindow : Nat := 0x1012058
abbrev Reg.tmMigrateCtrl : Nat := 0x101205C
abbrev Reg.tmMoveBudget : Nat := 0x1012060
abbrev Reg.tmRevokeTimeout : Nat := 0x1012064
abbrev Reg.tmScrubCtrl : Nat := 0x1012068
abbrev Reg.tmExtSel : Nat := 0x1012070
abbrev Reg.tmExtArg : Nat := 0x1012074
abbrev Reg.tmExtEntry : Nat := 0x1012078
abbrev Reg.tmExtCmd : Nat := 0x101207C
abbrev Reg.tmExtStat : Nat := 0x1012080
abbrev Reg.tmExtAdmitted : Nat := 0x1012084
abbrev Reg.tmRevokeTimeouts : Nat := 0x1012088
abbrev Reg.tmRevokeAsh : Nat := 0x101208C
abbrev Reg.tmQuotaSel : Nat := 0x1012090
abbrev Reg.tmQuotaNear : Nat := 0x1012094
abbrev Reg.tmQuotaBulk : Nat := 0x1012098
abbrev Reg.tmUseNear : Nat := 0x101209C
abbrev Reg.tmUseBulk : Nat := 0x10120A0
abbrev Reg.tmQuotaRefused : Nat := 0x10120A4
abbrev Reg.tmPromotions (page : Nat) : Nat := page * 4096 + 0xC0
abbrev Reg.tmDemotions (page : Nat) : Nat := page * 4096 + 0xC4
abbrev Reg.tmMutes (page : Nat) : Nat := page * 4096 + 0xC8
abbrev Reg.tmUnmutes (page : Nat) : Nat := page * 4096 + 0xCC
abbrev Reg.tmMoveRefused (page : Nat) : Nat := page * 4096 + 0xD0
abbrev Reg.tmMoveAbandoned (page : Nat) : Nat := page * 4096 + 0xD4
abbrev Reg.tmTierFull (page : Nat) : Nat := page * 4096 + 0xD8
abbrev Reg.tmMuteNoGain (page : Nat) : Nat := page * 4096 + 0xDC
abbrev Reg.tmTilesNear (page : Nat) : Nat := page * 4096 + 0xE0
abbrev Reg.tmTilesBulk (page : Nat) : Nat := page * 4096 + 0xE4
abbrev Reg.tmTilesMuted (page : Nat) : Nat := page * 4096 + 0xE8
abbrev Reg.tmMutedSectors (page : Nat) : Nat := page * 4096 + 0xEC
abbrev Reg.chChStat (page : Nat) : Nat := page * 4096 + 0x40
abbrev Reg.chSpeedCap (page : Nat) : Nat := page * 4096 + 0x44
abbrev Reg.chCapacityGib (page : Nat) : Nat := page * 4096 + 0x48
abbrev Reg.chUnusedGib (page : Nat) : Nat := page * 4096 + 0x4C
abbrev Reg.chCorrected (page : Nat) : Nat := page * 4096 + 0x50
abbrev Reg.chUncorrectable (page : Nat) : Nat := page * 4096 + 0x54
abbrev Reg.chLastUeAddr (page : Nat) : Nat := page * 4096 + 0x58
abbrev Reg.chDeviceCorr (page : Nat) : Nat := page * 4096 + 0x60
abbrev Reg.chScrubPasses (page : Nat) : Nat := page * 4096 + 0x64
abbrev Reg.dsDirEntries (page : Nat) : Nat := page * 4096 + 0x40
abbrev Reg.dsDirCapacity (page : Nat) : Nat := page * 4096 + 0x44
abbrev Reg.dsDirAsh (page : Nat) : Nat := page * 4096 + 0x48
abbrev Reg.dsDirOvf (page : Nat) : Nat := page * 4096 + 0x4C
abbrev Reg.dsLookups (page : Nat) : Nat := page * 4096 + 0x50
abbrev Reg.dsForwards (page : Nat) : Nat := page * 4096 + 0x58
abbrev Reg.dsFetches (page : Nat) : Nat := page * 4096 + 0x5C
abbrev Reg.dsInvsSent (page : Nat) : Nat := page * 4096 + 0x60
abbrev Reg.dsRecalls (page : Nat) : Nat := page * 4096 + 0x64
abbrev Reg.dsSetFull (page : Nat) : Nat := page * 4096 + 0x68
abbrev Reg.dsStalePuts (page : Nat) : Nat := page * 4096 + 0x6C
abbrev Reg.dsProtoErr (page : Nat) : Nat := page * 4096 + 0x70
abbrev Reg.dsAshMade (page : Nat) : Nat := page * 4096 + 0x74
abbrev Reg.dsCohTimeouts (page : Nat) : Nat := page * 4096 + 0x78
abbrev Reg.dsLineWaits (page : Nat) : Nat := page * 4096 + 0x7C
abbrev Reg.dsCohCtrl : Nat := 0x1000100
abbrev Reg.dsReclaimStat : Nat := 0x1000104
abbrev Reg.dsReclaims : Nat := 0x1000108
abbrev Reg.dsAshTotal : Nat := 0x100010C
abbrev Reg.dsAshClrAddr : Nat := 0x1000110
abbrev Reg.dsAshClrLines : Nat := 0x1000118
abbrev Reg.dsAshClrCmd : Nat := 0x100011C
abbrev Reg.dsAshClrStat : Nat := 0x1000120
abbrev Reg.dsAshLogHead : Nat := 0x1000124
abbrev Reg.dsAshLogTail : Nat := 0x1000128
abbrev Reg.dsAshLogLost : Nat := 0x100012C
abbrev Reg.dsRehomeStat : Nat := 0x1000130
abbrev Reg.dsRehomeLeft : Nat := 0x1000134
abbrev Reg.dsRehomeAsh : Nat := 0x1000138
abbrev Reg.xlL2Entries (page : Nat) : Nat := page * 4096 + 0x40
abbrev Reg.xlL2Capacity (page : Nat) : Nat := page * 4096 + 0x44
abbrev Reg.xlL2Lookups (page : Nat) : Nat := page * 4096 + 0x48
abbrev Reg.xlL2Hits (page : Nat) : Nat := page * 4096 + 0x50
abbrev Reg.xlWalks (page : Nat) : Nat := page * 4096 + 0x58
abbrev Reg.xlWalkReads (page : Nat) : Nat := page * 4096 + 0x5C
abbrev Reg.xlWalksActive (page : Nat) : Nat := page * 4096 + 0x60
abbrev Reg.xlWalkWaits (page : Nat) : Nat := page * 4096 + 0x64
abbrev Reg.xlTlbSel (page : Nat) : Nat := page * 4096 + 0x68
abbrev Reg.xlTlbHits (page : Nat) : Nat := page * 4096 + 0x6C
abbrev Reg.xlTlbMisses (page : Nat) : Nat := page * 4096 + 0x70
abbrev Reg.xlXlatEcc (page : Nat) : Nat := page * 4096 + 0x74
abbrev Reg.xlXlatTenantSel : Nat := 0x3000100
abbrev Reg.xlXlatCtrl : Nat := 0x3000104
abbrev Reg.xlXlatRoot : Nat := 0x3000108
abbrev Reg.xlXlatApply : Nat := 0x3000110
abbrev Reg.xlXlatResult : Nat := 0x3000114
abbrev Reg.xlFaultCtrl : Nat := 0x3000118
abbrev Reg.xlFaultOpen : Nat := 0x300011C
abbrev Reg.xlFaultNext : Nat := 0x3000120
abbrev Reg.xlFaultBatchSel : Nat := 0x3000124
abbrev Reg.xlFaultBatchTime : Nat := 0x3000128
abbrev Reg.xlFaultBatchInfo : Nat := 0x3000130
abbrev Reg.xlFaultResume : Nat := 0x3000134
abbrev Reg.xlFaultResumeStat : Nat := 0x3000138
abbrev Reg.xlFaultsRecorded : Nat := 0x300013C
abbrev Reg.xlFaultsWaiting : Nat := 0x3000140
abbrev Reg.xlFaultedJobs : Nat := 0x3000144
abbrev Reg.xlResumeBad : Nat := 0x3000148
abbrev Reg.xlInvals : Nat := 0x300014C
abbrev Reg.xlInvalMaxNs : Nat := 0x3000150
abbrev Reg.xlNoRoot : Nat := 0x3000154
abbrev Reg.xlFaultRec : Nat := 0x3000400
abbrev Reg.jiQueueCap (page : Nat) : Nat := page * 4096 + 0x40
abbrev Reg.jiQueueUsed (page : Nat) : Nat := page * 4096 + 0x44
abbrev Reg.jiJobsAdmitted (page : Nat) : Nat := page * 4096 + 0x48
abbrev Reg.jiJobsDone (page : Nat) : Nat := page * 4096 + 0x50
abbrev Reg.jiRefusedCredit (page : Nat) : Nat := page * 4096 + 0x58
abbrev Reg.jiRefusedQueue (page : Nat) : Nat := page * 4096 + 0x5C
abbrev Reg.jiRefusedDesc (page : Nat) : Nat := page * 4096 + 0x60
abbrev Reg.jiParkedIngress (page : Nat) : Nat := page * 4096 + 0x64
abbrev Reg.jiTenantSel : Nat := 0x1011100
abbrev Reg.jiTenantWeight : Nat := 0x1011104
abbrev Reg.jiTenantCredits : Nat := 0x1011108
abbrev Reg.jiTenantCredUsed : Nat := 0x101110C
abbrev Reg.jiVtime : Nat := 0x1011110
abbrev Reg.jiTenantFinish : Nat := 0x1011118
abbrev Reg.rpPoolCap (page : Nat) : Nat := page * 4096 + 0x40
abbrev Reg.rpPoolUsed (page : Nat) : Nat := page * 4096 + 0x44
abbrev Reg.rpPoolHigh (page : Nat) : Nat := page * 4096 + 0x48
abbrev Reg.rpPoolFull (page : Nat) : Nat := page * 4096 + 0x4C
abbrev Reg.rpTenantLimited (page : Nat) : Nat := page * 4096 + 0x50
abbrev Reg.rpPoolTenantMax : Nat := 0x1010100
abbrev Reg.rpPoolHostReserve : Nat := 0x1010104
abbrev Reg.rpPoolTenantSel : Nat := 0x1010108
abbrev Reg.rpPoolTenantUsed : Nat := 0x101010C
abbrev Reg.beBulkStat (page : Nat) : Nat := page * 4096 + 0x40
abbrev Reg.beFills (page : Nat) : Nat := page * 4096 + 0x44
abbrev Reg.beCopies (page : Nat) : Nat := page * 4096 + 0x48
abbrev Reg.beCompares (page : Nat) : Nat := page * 4096 + 0x4C
abbrev Reg.beReduces (page : Nat) : Nat := page * 4096 + 0x50
abbrev Reg.beAtomics (page : Nat) : Nat := page * 4096 + 0x54
abbrev Reg.beBytesRead (page : Nat) : Nat := page * 4096 + 0x58
abbrev Reg.beBytesWritten (page : Nat) : Nat := page * 4096 + 0x60
abbrev Reg.bePeerWrites (page : Nat) : Nat := page * 4096 + 0x68
abbrev Reg.beTakenOver (page : Nat) : Nat := page * 4096 + 0x6C
abbrev Reg.bePeerSel : Nat := 0x1078100
abbrev Reg.bePeerDev : Nat := 0x1078104
abbrev Reg.bePeerId : Nat := 0x1078108
abbrev Reg.bePeerIp : Nat := 0x1078110
abbrev Reg.bePeerToken : Nat := 0x1078120
abbrev Reg.bePeerExpiry : Nat := 0x1078130
abbrev Reg.bePeerCmd : Nat := 0x1078138
abbrev Reg.bePeerStat : Nat := 0x107813C
abbrev Reg.maArrayStat (page : Nat) : Nat := page * 4096 + 0x40
abbrev Reg.maSteps (page : Nat) : Nat := page * 4096 + 0x48
abbrev Reg.maStallStream (page : Nat) : Nat := page * 4096 + 0x50
abbrev Reg.maStallLoad (page : Nat) : Nat := page * 4096 + 0x58
abbrev Reg.maTiles (page : Nat) : Nat := page * 4096 + 0x60
abbrev Reg.maOverflows (page : Nat) : Nat := page * 4096 + 0x64
abbrev Reg.maNanOut (page : Nat) : Nat := page * 4096 + 0x68
abbrev Reg.maResidueErr (page : Nat) : Nat := page * 4096 + 0x6C
abbrev Reg.maRecomputes (page : Nat) : Nat := page * 4096 + 0x70
abbrev Reg.maRedealt (page : Nat) : Nat := page * 4096 + 0x74
abbrev Reg.exExpStat (page : Nat) : Nat := page * 4096 + 0x40
abbrev Reg.exRefsHeld (page : Nat) : Nat := page * 4096 + 0x44
abbrev Reg.exBlocks (page : Nat) : Nat := page * 4096 + 0x48
abbrev Reg.exBitsIn (page : Nat) : Nat := page * 4096 + 0x50
abbrev Reg.exShortSteps (page : Nat) : Nat := page * 4096 + 0x58
abbrev Reg.exRawBlocks (page : Nat) : Nat := page * 4096 + 0x60
abbrev Reg.exCheckFail (page : Nat) : Nat := page * 4096 + 0x64
abbrev Reg.exGone (page : Nat) : Nat := page * 4096 + 0x68
abbrev Reg.tcCodecStat (page : Nat) : Nat := page * 4096 + 0x40
abbrev Reg.tcBuilds (page : Nat) : Nat := page * 4096 + 0x44
abbrev Reg.tcEncBlocks (page : Nat) : Nat := page * 4096 + 0x48
abbrev Reg.tcEncRaw (page : Nat) : Nat := page * 4096 + 0x50
abbrev Reg.tcMutesCoded (page : Nat) : Nat := page * 4096 + 0x54
abbrev Reg.tcUnmutesDone (page : Nat) : Nat := page * 4096 + 0x58
abbrev Reg.tcCheckFail (page : Nat) : Nat := page * 4096 + 0x5C
abbrev Reg.tcRawBytes (page : Nat) : Nat := page * 4096 + 0x60
abbrev Reg.tcCodedBytes (page : Nat) : Nat := page * 4096 + 0x68
abbrev Reg.tcGone (page : Nat) : Nat := page * 4096 + 0x70
abbrev Reg.tcRecoded (page : Nat) : Nat := page * 4096 + 0x74
abbrev Reg.tcPalSel : Nat := 0x1013100
abbrev Reg.tcPalInfo : Nat := 0x1013104
abbrev Reg.tcPalRefs : Nat := 0x1013108
abbrev Reg.tcPalBuildBlocks : Nat := 0x101310C
abbrev Reg.tcPalCfg : Nat := 0x1013110
abbrev Reg.tcPalCmd : Nat := 0x1013114
abbrev Reg.tcPalResult : Nat := 0x1013118
abbrev Reg.tcSlotsConfigured : Nat := 0x101311C
abbrev Reg.tcBuildsWaiting : Nat := 0x1013120
abbrev Reg.tcBuildsCancelled : Nat := 0x1013124
abbrev Reg.tcPalData : Nat := 0x1013200
abbrev Reg.saSaStat (page : Nat) : Nat := page * 4096 + 0x40
abbrev Reg.saPieces (page : Nat) : Nat := page * 4096 + 0x44
abbrev Reg.saGroups (page : Nat) : Nat := page * 4096 + 0x48
abbrev Reg.saGroupsSkipped (page : Nat) : Nat := page * 4096 + 0x50
abbrev Reg.saEmptyRows (page : Nat) : Nat := page * 4096 + 0x58
abbrev Reg.saPiecesFailed (page : Nat) : Nat := page * 4096 + 0x5C
abbrev Reg.saPagesCoded (page : Nat) : Nat := page * 4096 + 0x60
abbrev Reg.saPagesRaw (page : Nat) : Nat := page * 4096 + 0x64
abbrev Reg.saSessCount : Nat := 0x1060100
abbrev Reg.saSessSel : Nat := 0x1060104
abbrev Reg.saSessId : Nat := 0x1060108
abbrev Reg.saSessOwner : Nat := 0x106010C
abbrev Reg.saSessShape : Nat := 0x1060110
abbrev Reg.saSessQheads : Nat := 0x1060114
abbrev Reg.saSessLength : Nat := 0x1060118
abbrev Reg.saSessMax : Nat := 0x106011C
abbrev Reg.saSessBase : Nat := 0x1060120
abbrev Reg.saSessSlots : Nat := 0x1060128
abbrev Reg.saSessPair : Nat := 0x106012C
abbrev Reg.saSessJobs : Nat := 0x1060130
abbrev Reg.saOpens : Nat := 0x1060134
abbrev Reg.saCloses : Nat := 0x1060138
abbrev Reg.saAppends : Nat := 0x106013C
abbrev Reg.saAttends : Nat := 0x1060140
abbrev Reg.saWakes : Nat := 0x1060144
abbrev Reg.saSleeps : Nat := 0x1060148
abbrev Reg.saSessFull : Nat := 0x106014C
abbrev Reg.geGatherStat (page : Nat) : Nat := page * 4096 + 0x40
abbrev Reg.geJobs (page : Nat) : Nat := page * 4096 + 0x44
abbrev Reg.geOccurrences (page : Nat) : Nat := page * 4096 + 0x48
abbrev Reg.geRowsFetched (page : Nat) : Nat := page * 4096 + 0x50
abbrev Reg.geRefetches (page : Nat) : Nat := page * 4096 + 0x58
abbrev Reg.geRowBytes (page : Nat) : Nat := page * 4096 + 0x60
abbrev Reg.gePoolOps (page : Nat) : Nat := page * 4096 + 0x68
abbrev Reg.geRowsUpdated (page : Nat) : Nat := page * 4096 + 0x70
abbrev Reg.gePasses (page : Nat) : Nat := page * 4096 + 0x78
abbrev Reg.gePassSplits (page : Nat) : Nat := page * 4096 + 0x7C
abbrev Reg.geFilterHigh (page : Nat) : Nat := page * 4096 + 0x80
abbrev Reg.geJobsFailed (page : Nat) : Nat := page * 4096 + 0x84
abbrev Reg.geEmbCtrl : Nat := 0x1068100
abbrev Reg.geHotThresh : Nat := 0x1068104
abbrev Reg.geFilterMax : Nat := 0x1068108
abbrev Reg.geMergeMax : Nat := 0x106810C
abbrev Reg.geTablesOpen : Nat := 0x1068110
abbrev Reg.geTblSel : Nat := 0x1068114
abbrev Reg.geTblId : Nat := 0x1068118
abbrev Reg.geTblInfo : Nat := 0x106811C
abbrev Reg.geTblRowsTotal : Nat := 0x1068120
abbrev Reg.geTblShardLo : Nat := 0x1068128
abbrev Reg.geTblShardRows : Nat := 0x1068130
abbrev Reg.geTblE : Nat := 0x1068138
abbrev Reg.geTblCurVer : Nat := 0x106813C
abbrev Reg.geTblResident : Nat := 0x1068140
abbrev Reg.geTblLoadAlert : Nat := 0x1068144
abbrev Reg.geTblOcc : Nat := 0x1068148
abbrev Reg.geTblFetches : Nat := 0x1068150
abbrev Reg.geTblUpdates : Nat := 0x1068158
abbrev Reg.geTblDropRange : Nat := 0x1068160
abbrev Reg.geTblDropSent : Nat := 0x1068164
abbrev Reg.geTblDropAbsent : Nat := 0x1068168
abbrev Reg.geTblHot : Nat := 0x106816C
abbrev Reg.geTblPromotions : Nat := 0x1068170
abbrev Reg.geTblDemotions : Nat := 0x1068174
abbrev Reg.geTblWinFetch : Nat := 0x1068178
abbrev Reg.geTblWinTopCount : Nat := 0x106817C
abbrev Reg.geTblWinTopRow : Nat := 0x1068180
abbrev Reg.geEmbTablesFull : Nat := 0x1068188
abbrev Reg.geVersionBusy : Nat := 0x106818C
abbrev Reg.seSearchStat (page : Nat) : Nat := page * 4096 + 0x40
abbrev Reg.seQueries (page : Nat) : Nat := page * 4096 + 0x44
abbrev Reg.seProbes (page : Nat) : Nat := page * 4096 + 0x48
abbrev Reg.seEntriesRead (page : Nat) : Nat := page * 4096 + 0x50
abbrev Reg.seScored (page : Nat) : Nat := page * 4096 + 0x58
abbrev Reg.seSideScanned (page : Nat) : Nat := page * 4096 + 0x60
abbrev Reg.seDeadSuppressed (page : Nat) : Nat := page * 4096 + 0x68
abbrev Reg.seFiltered (page : Nat) : Nat := page * 4096 + 0x6C
abbrev Reg.seNbrStale (page : Nat) : Nat := page * 4096 + 0x70
abbrev Reg.sePrefetched (page : Nat) : Nat := page * 4096 + 0x74
abbrev Reg.sePrefetchHits (page : Nat) : Nat := page * 4096 + 0x78
abbrev Reg.seTruncated (page : Nat) : Nat := page * 4096 + 0x7C
abbrev Reg.seQueriesFailed (page : Nat) : Nat := page * 4096 + 0x80
abbrev Reg.seSearchCtrl : Nat := 0x1070100
abbrev Reg.seDeleteReserve : Nat := 0x1070104
abbrev Reg.seCollCount : Nat := 0x1070108
abbrev Reg.seCollSel : Nat := 0x107010C
abbrev Reg.seCollId : Nat := 0x1070110
abbrev Reg.seCollOwner : Nat := 0x1070114
abbrev Reg.seCollEpoch : Nat := 0x1070118
abbrev Reg.seCollSideLo : Nat := 0x1070120
abbrev Reg.seCollLive : Nat := 0x1070128
abbrev Reg.seCollQuar : Nat := 0x1070130
abbrev Reg.seCollMergeS : Nat := 0x1070138
abbrev Reg.seCollMergeOut : Nat := 0x1070140
abbrev Reg.seCollShape : Nat := 0x1070148
abbrev Reg.seCollCap : Nat := 0x107014C
abbrev Reg.seCollGen : Nat := 0x1070150
abbrev Reg.seCollSideUsed : Nat := 0x1070154
abbrev Reg.seCollSideMax : Nat := 0x1070158
abbrev Reg.seCollMerge : Nat := 0x107015C
abbrev Reg.seCollHeapFree : Nat := 0x1070160
abbrev Reg.seCollFull : Nat := 0x1070164
abbrev Reg.seSideBusy : Nat := 0x1070168
abbrev Reg.seQuarBusy : Nat := 0x107016C
abbrev Reg.seMerges : Nat := 0x1070170
abbrev Reg.seMergesAbandoned : Nat := 0x1070174
abbrev Reg.twTwinCtrl : Nat := 0x8040
abbrev Reg.twPartnerDev : Nat := 0x8044
abbrev Reg.twPartnerIp : Nat := 0x8048
abbrev Reg.twTakeoverHold : Nat := 0x8058
abbrev Reg.twPairKey : Nat := 0x8060
abbrev Reg.twPairKeyInstall : Nat := 0x8080
abbrev Reg.twTwinStat : Nat := 0x8084
abbrev Reg.twTwinWitness : Nat := 0x8088
abbrev Reg.twWitnessResult : Nat := 0x808C
abbrev Reg.twLeaseSel : Nat := 0x8090
abbrev Reg.twLeaseInfo : Nat := 0x8094
abbrev Reg.twLeaseGen : Nat := 0x8098
abbrev Reg.twLeaseCmd : Nat := 0x809C
abbrev Reg.twLeasesHeld : Nat := 0x80A0
abbrev Reg.twShadows : Nat := 0x80A4
abbrev Reg.twMirrorOps : Nat := 0x80A8
abbrev Reg.twMirrorBytes : Nat := 0x80B0
abbrev Reg.twMirrorWaitNs : Nat := 0x80B8
abbrev Reg.twHandovers : Nat := 0x80C0
abbrev Reg.twOrphansAdopted : Nat := 0x80C4
abbrev Reg.twOrphansDiscarded : Nat := 0x80C8
abbrev Reg.twPairDenied : Nat := 0x80CC
abbrev Reg.twTakeovers : Nat := 0x80D0
abbrev Reg.twTakeoverNs : Nat := 0x80D4
abbrev Reg.twHoldHits : Nat := 0x80D8
abbrev Reg.twDirtyExtents : Nat := 0x80DC
abbrev Reg.twResyncStat : Nat := 0x80E0
abbrev Reg.twResyncDone : Nat := 0x80E4
abbrev Reg.twResyncBytes : Nat := 0x80E8
abbrev Reg.twConflicts : Nat := 0x80F0
abbrev Reg.mgBootStat : Nat := 0x9040
abbrev Reg.mgResetLast : Nat := 0x9044
abbrev Reg.mgResetCount : Nat := 0x9048
abbrev Reg.mgResetCmd : Nat := 0x904C
abbrev Reg.mgWdExpiries : Nat := 0x9050
abbrev Reg.mgAdithRestarts : Nat := 0x9054
abbrev Reg.mgFwSvnRun : Nat := 0x9058
abbrev Reg.mgFuseSvn : Nat := 0x905C
abbrev Reg.mgSvnBurn : Nat := 0x9060
abbrev Reg.mgFwSlotSel : Nat := 0x9064
abbrev Reg.mgFwOffset : Nat := 0x9068
abbrev Reg.mgFwCmd : Nat := 0x906C
abbrev Reg.mgFwResult : Nat := 0x9070
abbrev Reg.mgFwVer : Nat := 0x9078
abbrev Reg.mgIdSerial : Nat := 0x9080
abbrev Reg.mgSpdmLen : Nat := 0x9088
abbrev Reg.mgSpdmCmd : Nat := 0x908C
abbrev Reg.mgSpdmStat : Nat := 0x9090
abbrev Reg.mgSpdmBuf : Nat := 0x9400
abbrev Reg.mgFwWindow : Nat := 0x9800
abbrev Reg.ecEvRingBase : Nat := 0x6040
abbrev Reg.ecEvRingCtrl : Nat := 0x6048
abbrev Reg.ecEvHead : Nat := 0x604C
abbrev Reg.ecEvTail : Nat := 0x6050
abbrev Reg.ecEvStat : Nat := 0x6054
abbrev Reg.ecEvSeq : Nat := 0x6058
abbrev Reg.ecEvOverflow : Nat := 0x605C
abbrev Reg.ecEvDone : Nat := 0x6060
abbrev Reg.ecEvCountClr : Nat := 0x6064
abbrev Reg.ecEvDoneIdle : Nat := 0x6068
abbrev Reg.ecBeaconsSent : Nat := 0x606C
abbrev Reg.ecBeaconIp0 : Nat := 0x6070
abbrev Reg.ecBeaconIp1 : Nat := 0x6080
abbrev Reg.ecBeaconCtrl : Nat := 0x6090
abbrev Reg.ecFatalLast : Nat := 0x6098
abbrev Reg.ecFatalTime : Nat := 0x60A0
abbrev Reg.ecEvPeek : Nat := 0x60C0
abbrev Reg.ecEvMask : Nat := 0x6100
abbrev Reg.ecEvPend : Nat := 0x6180
abbrev Reg.ecEvLevel : Nat := 0x6200
abbrev Reg.ecEvOut : Nat := 0x6280
abbrev Reg.ecEvCount : Nat := 0x6400
abbrev Reg.moMonCtrl (page : Nat) : Nat := page * 4096 + 0x40
abbrev Reg.moMonPage (page : Nat) : Nat := page * 4096 + 0x44
abbrev Reg.moMonWindow (page : Nat) : Nat := page * 4096 + 0x48
abbrev Reg.moMonThresh (page : Nat) : Nat := page * 4096 + 0x50
abbrev Reg.moMonStat (page : Nat) : Nat := page * 4096 + 0x58
abbrev Reg.moMonAlarm (page : Nat) : Nat := page * 4096 + 0x5C
abbrev Reg.moWinSeq (page : Nat) : Nat := page * 4096 + 0x60
abbrev Reg.moWinEnd (page : Nat) : Nat := page * 4096 + 0x68
abbrev Reg.moMin (page : Nat) : Nat := page * 4096 + 0x70
abbrev Reg.moMax (page : Nat) : Nat := page * 4096 + 0x78
abbrev Reg.moCount (page : Nat) : Nat := page * 4096 + 0x80
abbrev Reg.moSum (page : Nat) : Nat := page * 4096 + 0x88
abbrev Reg.moHist (page : Nat) : Nat := page * 4096 + 0x100
abbrev Reg.drDrillKind : Nat := 0xA040
abbrev Reg.drDrillTarget : Nat := 0xA044
abbrev Reg.drDrillAddr : Nat := 0xA048
abbrev Reg.drDrillParam : Nat := 0xA050
abbrev Reg.drDrillCount : Nat := 0xA054
abbrev Reg.drDrillDuration : Nat := 0xA058
abbrev Reg.drDrillGap : Nat := 0xA05C
abbrev Reg.drDrillArm : Nat := 0xA060
abbrev Reg.drDrillFire : Nat := 0xA064
abbrev Reg.drDrillStat : Nat := 0xA068
abbrev Reg.drDrillStop : Nat := 0xA06C
abbrev Reg.drDrillsFired : Nat := 0xA070
abbrev Reg.drDrillRefused : Nat := 0xA074
abbrev Reg.drDrillEffects : Nat := 0xA078
abbrev Reg.ppPpStat : Nat := 0xB040
abbrev Reg.ppVcoreTarget : Nat := 0xB044
abbrev Reg.ppVcoreReq : Nat := 0xB048
abbrev Reg.ppVcoreMeas : Nat := 0xB04C
abbrev Reg.ppTjMax : Nat := 0xB050
abbrev Reg.ppTjSel : Nat := 0xB054
abbrev Reg.ppTjSensor : Nat := 0xB058
abbrev Reg.ppThermCtrl : Nat := 0xB05C
abbrev Reg.ppPowerLimit : Nat := 0xB060
abbrev Reg.ppPowerMeas : Nat := 0xB064
abbrev Reg.ppRailSel : Nat := 0xB068
abbrev Reg.ppRailV : Nat := 0xB06C
abbrev Reg.ppRailI : Nat := 0xB070
abbrev Reg.ppRailStat : Nat := 0xB074
abbrev Reg.ppThrottleNs : Nat := 0xB078
abbrev Reg.ppAvsRetries : Nat := 0xB080
abbrev Reg.ppPmbusErr : Nat := 0xB084
abbrev Reg.ppPpSticky : Nat := 0xB088

/-! ### Registers of each unit type -/

/-- The page header (Table 2-1). -/
def headerRegs : List RegDef :=
  [{ off := 0x0, acc := .ro },
   { off := 0x4, acc := .ro, reset := 0x10000 },
   { off := 0x8, acc := .ro },
   { off := 0xC, acc := .ro },
   { off := 0x10, acc := .ro },
   { off := 0x14, acc := .rw, reset := 0x1 },
   { off := 0x18, acc := .ro },
   { off := 0x1C, acc := .w1c },
   { off := 0x20, acc := .rw },
   { off := 0x24, acc := .ro },
   { off := 0x28, acc := .ro },
   { off := 0x2C, acc := .ro }]

/-- The root page (Tables 1-5, 1-10, 2-9). -/
def rootRegs : List RegDef :=
  [{ off := 0x40, acc := .rws, staged := true, mask := 0xFFFF },
   { off := 0x44, acc := .ro },
   { off := 0x48, acc := .ro, reset := 0x4040 },
   { off := 0x4C, acc := .ro },
   { off := 0x50, acc := .ro },
   { off := 0x54, acc := .ro },
   { off := 0x58, acc := .wo },
   { off := 0x5C, acc := .wo },
   { off := 0x60, acc := .rws },
   { off := 0x64, acc := .ro },
   { off := 0x68, acc := .ro },
   { off := 0x6C, acc := .ro },
   { off := 0x70, acc := .wo, mask := 0x1 },
   { off := 0x100, acc := .ro },
   { off := 0x104, acc := .ro },
   { off := 0x108, acc := .rws, staged := true, mask := 0x13F01 },
   { off := 0x10C, acc := .ro },
   { off := 0x110, acc := .ro },
   { off := 0x114, acc := .wo },
   { off := 0x118, acc := .wo },
   { off := 0x120, acc := .ro },
   { off := 0x124, acc := .ro },
   { off := 0x200, acc := .rw, staged := true, mask := 0x3F, reset := 0x8 },
   { off := 0x204, acc := .rw, staged := true, mask := 0x3F, reset := 0x2 },
   { off := 0x208, acc := .rw, staged := true, mask := 0x3F, reset := 0xE },
   { off := 0x20C, acc := .rw, staged := true, mask := 0x3F, reset := 0x4 },
   { off := 0x210, acc := .rw, staged := true, mask := 0x3F, reset := 0x1 },
   { off := 0x214, acc := .rw, staged := true, mask := 0x3F, reset := 0x3 },
   { off := 0x218, acc := .ro },
   { off := 0x300, acc := .ro }]

/-- A port page (Table 3-12). -/
def portRegs : List RegDef :=
  [{ off := 0x40, acc := .rw, staged := true, mask := 0x73, reset := 0x40 },
   { off := 0x44, acc := .ro },
   { off := 0x48, n := 4, acc := .rw, staged := true },
   { off := 0x58, acc := .ro },
   { off := 0x5C, acc := .ro },
   { off := 0x60, wide := true, acc := .ro, mask := 0xFFFFFFFFFFFFFFFF },
   { off := 0x68, wide := true, acc := .ro, mask := 0xFFFFFFFFFFFFFFFF },
   { off := 0x70, wide := true, acc := .ro, mask := 0xFFFFFFFFFFFFFFFF },
   { off := 0x78, wide := true, acc := .ro, mask := 0xFFFFFFFFFFFFFFFF },
   { off := 0x80, acc := .ro },
   { off := 0x84, acc := .ro },
   { off := 0x88, acc := .ro },
   { off := 0x8C, acc := .ro },
   { off := 0x90, wide := true, acc := .ro, mask := 0xFFFFFFFFFFFFFFFF },
   { off := 0x98, acc := .ro },
   { off := 0xA0, acc := .rw, staged := true, mask := 0x33 },
   { off := 0xA4, acc := .rw, staged := true, mask := 0x3FFFFFFF },
   { off := 0xA8, acc := .rw, mask := 0x103 },
   { off := 0xB0, n := 8, acc := .wo },
   { off := 0xD0, n := 3, acc := .wo },
   { off := 0xDC, acc := .wo },
   { off := 0xE0, acc := .wo },
   { off := 0xE8, wide := true, acc := .ro, mask := 0xFFFFFFFFFFFFFFFF },
   { off := 0xF0, acc := .ro },
   { off := 0xF4, acc := .rw, staged := true, mask := 0xFF01, reset := 0x1E01 }]

/-- A lock-group page (Table 3-15). -/
def lockGroupRegs : List RegDef :=
  [{ off := 0x40, acc := .rw, staged := true, mask := 0x3 },
   { off := 0x44, acc := .rw, staged := true },
   { off := 0x48, acc := .rw, staged := true, mask := 0xFF },
   { off := 0x4C, n := 4, acc := .rw, staged := true },
   { off := 0x60, acc := .ro },
   { off := 0x64, acc := .ro },
   { off := 0x68, acc := .ro },
   { off := 0x6C, acc := .ro }]

/-- Port group 0 (Table 3-16). -/
def portGroup0Regs : List RegDef :=
  [{ off := 0x40, acc := .rw, staged := true, mask := 0xFFFF, reset := 0x4A4D },
   { off := 0x44, acc := .rw, staged := true, mask := 0xFF, reset := 0x10 },
   { off := 0x48, acc := .rw, staged := true, mask := 0x1FFFF, reset := 0x400 },
   { off := 0x4C, acc := .ro },
   { off := 0x50, acc := .wo },
   { off := 0x54, acc := .wo, mask := 0xFFF },
   { off := 0x58, n := 8, acc := .wo },
   { off := 0x78, acc := .wo },
   { off := 0x7C, acc := .ro },
   { off := 0x80, acc := .ro },
   { off := 0x84, acc := .ro },
   { off := 0x88, acc := .ro },
   { off := 0x8C, acc := .ro },
   { off := 0x90, acc := .ro },
   { off := 0x94, acc := .ro },
   { off := 0x98, acc := .ro },
   { off := 0x9C, acc := .ro },
   { off := 0xA0, acc := .ro },
   { off := 0xA4, acc := .ro },
   { off := 0xA8, acc := .ro },
   { off := 0xAC, acc := .ro },
   { off := 0xB0, acc := .rw, mask := 0xFFFFFF },
   { off := 0xB4, acc := .ro },
   { off := 0xB8, acc := .ro },
   { off := 0xBC, acc := .ro },
   { off := 0xC0, acc := .ro },
   { off := 0xC4, acc := .ro },
   { off := 0xC8, acc := .ro },
   { off := 0xCC, acc := .ro },
   { off := 0xD0, acc := .ro }]

/-- Both tier managers (R130, Table 4-8). -/
def tierManagerRegs : List RegDef :=
  [{ off := 0xC0, acc := .ro },
   { off := 0xC4, acc := .ro },
   { off := 0xC8, acc := .ro },
   { off := 0xCC, acc := .ro },
   { off := 0xD0, acc := .ro },
   { off := 0xD4, acc := .ro },
   { off := 0xD8, acc := .ro },
   { off := 0xDC, acc := .ro },
   { off := 0xE0, acc := .ro },
   { off := 0xE4, acc := .ro },
   { off := 0xE8, acc := .ro },
   { off := 0xEC, acc := .ro }]

/-- Tier manager 0 also (R130, Table 4-8). -/
def tierManager0Regs : List RegDef :=
  [{ off := 0x40, acc := .rws, staged := true, mask := 0x800003FF, reset := 0x80000000 },
   { off := 0x44, acc := .rws, staged := true, mask := 0x80001FFF, reset := 0x80000000 },
   { off := 0x48, acc := .ro },
   { off := 0x4C, acc := .ro },
   { off := 0x50, acc := .ro },
   { off := 0x54, acc := .rws, staged := true, mask := 0x3FFF, reset := 0x400 },
   { off := 0x58, acc := .rws, staged := true, mask := 0x3FF, reset := 0xA },
   { off := 0x5C, acc := .rws, staged := true, mask := 0xFFFFF01, reset := 0x2042001 },
   { off := 0x60, acc := .rws, staged := true, mask := 0xFFFF, reset := 0x1000 },
   { off := 0x64, acc := .rws, staged := true, mask := 0x7F, reset := 0x5 },
   { off := 0x68, acc := .rws, staged := true, mask := 0xFF01, reset := 0x1801 },
   { off := 0x70, acc := .rw, mask := 0x1FFFF },
   { off := 0x74, acc := .rw, mask := 0x3FFFFF },
   { off := 0x78, acc := .ro },
   { off := 0x7C, acc := .wo },
   { off := 0x80, acc := .ro },
   { off := 0x84, acc := .ro },
   { off := 0x88, acc := .ro },
   { off := 0x8C, acc := .ro },
   { off := 0x90, acc := .rw, mask := 0xFFF },
   { off := 0x94, acc := .rw, reset := 0xFFFFF },
   { off := 0x98, acc := .rw, reset := 0xFFFFF },
   { off := 0x9C, acc := .ro },
   { off := 0xA0, acc := .ro },
   { off := 0xA4, acc := .ro }]

/-- A near-tier channel (Table 4-10). -/
def nearChannelRegs : List RegDef :=
  [{ off := 0x40, acc := .ro },
   { off := 0x48, acc := .ro },
   { off := 0x50, acc := .ro },
   { off := 0x54, acc := .ro },
   { off := 0x58, wide := true, acc := .ro, mask := 0xFFFFFFFFFFFFFFFF },
   { off := 0x64, acc := .ro }]

/-- A bulk-tier channel (Table 4-10). SPEED_CAP, which the manual gives no width, keeps bits [7:0] (log entry 68). -/
def bulkChannelRegs : List RegDef :=
  [{ off := 0x40, acc := .ro },
   { off := 0x44, acc := .rws, staged := true, mask := 0xFF, reset := 0x58 },
   { off := 0x48, acc := .ro },
   { off := 0x4C, acc := .ro },
   { off := 0x50, acc := .ro },
   { off := 0x54, acc := .ro },
   { off := 0x58, wide := true, acc := .ro, mask := 0xFFFFFFFFFFFFFFFF },
   { off := 0x60, acc := .ro },
   { off := 0x64, acc := .ro }]

/-- Every DIRECTORY_SLICE page (R174). -/
def directorySliceRegs : List RegDef :=
  [{ off := 0x40, acc := .ro },
   { off := 0x44, acc := .ro },
   { off := 0x48, acc := .ro },
   { off := 0x4C, acc := .ro },
   { off := 0x50, wide := true, acc := .ro, mask := 0xFFFFFFFFFFFFFFFF },
   { off := 0x58, acc := .ro },
   { off := 0x5C, acc := .ro },
   { off := 0x60, acc := .ro },
   { off := 0x64, acc := .ro },
   { off := 0x68, acc := .ro },
   { off := 0x6C, acc := .ro },
   { off := 0x70, acc := .ro },
   { off := 0x74, acc := .ro },
   { off := 0x78, acc := .ro },
   { off := 0x7C, acc := .ro }]

/-- The device-wide registers of the first DIRECTORY_SLICE (R175). -/
def directorySlice0Regs : List RegDef :=
  [{ off := 0x100, acc := .rws, staged := true, mask := 0xFF00FF, reset := 0x14000A },
   { off := 0x104, acc := .ro },
   { off := 0x108, acc := .ro },
   { off := 0x10C, acc := .ro },
   { off := 0x110, wide := true, acc := .rw, mask := 0xFFFFFFFFFFFFFFFF },
   { off := 0x118, acc := .rw, mask := 0x7FFF, reset := 0x1 },
   { off := 0x11C, acc := .wo },
   { off := 0x120, acc := .ro },
   { off := 0x124, acc := .ro },
   { off := 0x128, acc := .rws, mask := 0x1FFFFF },
   { off := 0x12C, acc := .ro },
   { off := 0x130, acc := .ro },
   { off := 0x134, acc := .ro },
   { off := 0x138, acc := .ro }]

/-- Every TRANSLATION page (R198). -/
def translationRegs : List RegDef :=
  [{ off := 0x40, acc := .ro },
   { off := 0x44, acc := .ro, reset := 0x8000 },
   { off := 0x48, wide := true, acc := .ro, mask := 0xFFFFFFFFFFFFFFFF },
   { off := 0x50, wide := true, acc := .ro, mask := 0xFFFFFFFFFFFFFFFF },
   { off := 0x58, acc := .ro },
   { off := 0x5C, acc := .ro },
   { off := 0x60, acc := .ro },
   { off := 0x64, acc := .ro },
   { off := 0x68, acc := .rw, mask := 0x7F },
   { off := 0x6C, acc := .ro },
   { off := 0x70, acc := .ro },
   { off := 0x74, acc := .ro }]

/-- The device-wide registers of the first TRANSLATION (R199). -/
def translation0Regs : List RegDef :=
  [{ off := 0x100, acc := .rw, mask := 0xFFF },
   { off := 0x104, acc := .rws, mask := 0x1F01 },
   { off := 0x108, wide := true, acc := .rws, mask := 0xFFFFFFFFFFFFF000 },
   { off := 0x110, acc := .wo },
   { off := 0x114, acc := .ro },
   { off := 0x118, acc := .rws, staged := true, mask := 0xFFF7FFF, reset := 0x644014 },
   { off := 0x11C, acc := .ro },
   { off := 0x120, acc := .ro },
   { off := 0x124, acc := .rw, mask := 0xFFFF },
   { off := 0x128, wide := true, acc := .ro, mask := 0xFFFFFFFFFFFFFFFF },
   { off := 0x130, acc := .ro },
   { off := 0x134, acc := .wo },
   { off := 0x138, acc := .ro },
   { off := 0x13C, acc := .ro },
   { off := 0x140, acc := .ro },
   { off := 0x144, acc := .ro },
   { off := 0x148, acc := .ro },
   { off := 0x14C, acc := .ro },
   { off := 0x150, acc := .ro },
   { off := 0x154, acc := .ro },
   { off := 0x400, n := 256, acc := .ro }]

/-- Every MATRIX_ARRAY page (R254). -/
def matrixArrayRegs : List RegDef :=
  [{ off := 0x40, acc := .ro },
   { off := 0x48, wide := true, acc := .ro, mask := 0xFFFFFFFFFFFFFFFF },
   { off := 0x50, wide := true, acc := .ro, mask := 0xFFFFFFFFFFFFFFFF },
   { off := 0x58, wide := true, acc := .ro, mask := 0xFFFFFFFFFFFFFFFF },
   { off := 0x60, acc := .ro },
   { off := 0x64, acc := .ro },
   { off := 0x68, acc := .ro },
   { off := 0x6C, acc := .ro },
   { off := 0x70, acc := .ro },
   { off := 0x74, acc := .ro }]

/-- Every EXPANDER page (R288). -/
def expanderRegs : List RegDef :=
  [{ off := 0x40, acc := .ro },
   { off := 0x44, acc := .ro },
   { off := 0x48, wide := true, acc := .ro, mask := 0xFFFFFFFFFFFFFFFF },
   { off := 0x50, wide := true, acc := .ro, mask := 0xFFFFFFFFFFFFFFFF },
   { off := 0x58, wide := true, acc := .ro, mask := 0xFFFFFFFFFFFFFFFF },
   { off := 0x60, acc := .ro },
   { off := 0x64, acc := .ro },
   { off := 0x68, acc := .ro }]

/-- Every TIER_CODEC page (R289). -/
def tierCodecRegs : List RegDef :=
  [{ off := 0x40, acc := .ro },
   { off := 0x44, acc := .ro },
   { off := 0x48, wide := true, acc := .ro, mask := 0xFFFFFFFFFFFFFFFF },
   { off := 0x50, acc := .ro },
   { off := 0x54, acc := .ro },
   { off := 0x58, acc := .ro },
   { off := 0x5C, acc := .ro },
   { off := 0x60, wide := true, acc := .ro, mask := 0xFFFFFFFFFFFFFFFF },
   { off := 0x68, wide := true, acc := .ro, mask := 0xFFFFFFFFFFFFFFFF },
   { off := 0x70, acc := .ro },
   { off := 0x74, acc := .ro }]

/-- The device-wide registers of the first TIER_CODEC (R290). -/
def tierCodec0Regs : List RegDef :=
  [{ off := 0x100, acc := .rw, mask := 0x10FFF },
   { off := 0x104, acc := .ro },
   { off := 0x108, acc := .ro },
   { off := 0x10C, acc := .ro },
   { off := 0x110, acc := .rw, mask := 0x113, reset := 0x100 },
   { off := 0x114, acc := .wo },
   { off := 0x118, acc := .ro },
   { off := 0x11C, acc := .ro },
   { off := 0x120, acc := .ro },
   { off := 0x124, acc := .ro },
   { off := 0x200, n := 32, acc := .rw }]

/-- Every SESSION_ATTENTION page (R314). -/
def sessionAttentionRegs : List RegDef :=
  [{ off := 0x40, acc := .ro },
   { off := 0x44, acc := .ro },
   { off := 0x48, wide := true, acc := .ro, mask := 0xFFFFFFFFFFFFFFFF },
   { off := 0x50, wide := true, acc := .ro, mask := 0xFFFFFFFFFFFFFFFF },
   { off := 0x58, acc := .ro },
   { off := 0x5C, acc := .ro },
   { off := 0x60, acc := .ro },
   { off := 0x64, acc := .ro }]

/-- The device-wide registers of the first SESSION_ATTENTION (R315). -/
def sessionAttention0Regs : List RegDef :=
  [{ off := 0x100, acc := .ro },
   { off := 0x104, acc := .rw, mask := 0xFFFF },
   { off := 0x108, acc := .ro },
   { off := 0x10C, acc := .ro },
   { off := 0x110, acc := .ro },
   { off := 0x114, acc := .ro },
   { off := 0x118, acc := .ro },
   { off := 0x11C, acc := .ro },
   { off := 0x120, wide := true, acc := .ro, mask := 0xFFFFFFFFFFFFFFFF },
   { off := 0x128, acc := .ro },
   { off := 0x12C, acc := .ro },
   { off := 0x130, acc := .ro },
   { off := 0x134, acc := .ro },
   { off := 0x138, acc := .ro },
   { off := 0x13C, acc := .ro },
   { off := 0x140, acc := .ro },
   { off := 0x144, acc := .ro },
   { off := 0x148, acc := .ro },
   { off := 0x14C, acc := .ro }]

/-- Every GATHER page (R344). -/
def gatherRegs : List RegDef :=
  [{ off := 0x40, acc := .ro },
   { off := 0x44, acc := .ro },
   { off := 0x48, wide := true, acc := .ro, mask := 0xFFFFFFFFFFFFFFFF },
   { off := 0x50, wide := true, acc := .ro, mask := 0xFFFFFFFFFFFFFFFF },
   { off := 0x58, wide := true, acc := .ro, mask := 0xFFFFFFFFFFFFFFFF },
   { off := 0x60, wide := true, acc := .ro, mask := 0xFFFFFFFFFFFFFFFF },
   { off := 0x68, wide := true, acc := .ro, mask := 0xFFFFFFFFFFFFFFFF },
   { off := 0x70, wide := true, acc := .ro, mask := 0xFFFFFFFFFFFFFFFF },
   { off := 0x78, acc := .ro },
   { off := 0x7C, acc := .ro },
   { off := 0x80, acc := .ro },
   { off := 0x84, acc := .ro }]

/-- The device-wide registers of the first GATHER (R345). -/
def gather0Regs : List RegDef :=
  [{ off := 0x100, acc := .rws, staged := true, mask := 0x103FF, reset := 0x1000A },
   { off := 0x104, acc := .rws, staged := true, mask := 0xFFFFFF, reset := 0x40 },
   { off := 0x108, acc := .rws, staged := true, mask := 0xFFFFFF, reset := 0x80000 },
   { off := 0x10C, acc := .rws, staged := true, mask := 0xFFFFFF, reset := 0x400000 },
   { off := 0x110, acc := .ro },
   { off := 0x114, acc := .rw, mask := 0x3FF },
   { off := 0x118, acc := .ro },
   { off := 0x11C, acc := .ro },
   { off := 0x120, wide := true, acc := .ro, mask := 0xFFFFFFFFFFFFFFFF },
   { off := 0x128, wide := true, acc := .ro, mask := 0xFFFFFFFFFFFFFFFF },
   { off := 0x130, wide := true, acc := .ro, mask := 0xFFFFFFFFFFFFFFFF },
   { off := 0x138, acc := .ro },
   { off := 0x13C, acc := .ro },
   { off := 0x140, acc := .ro },
   { off := 0x144, acc := .rw },
   { off := 0x148, wide := true, acc := .ro, mask := 0xFFFFFFFFFFFFFFFF },
   { off := 0x150, wide := true, acc := .ro, mask := 0xFFFFFFFFFFFFFFFF },
   { off := 0x158, wide := true, acc := .ro, mask := 0xFFFFFFFFFFFFFFFF },
   { off := 0x160, acc := .ro },
   { off := 0x164, acc := .ro },
   { off := 0x168, acc := .ro },
   { off := 0x16C, acc := .ro },
   { off := 0x170, acc := .ro },
   { off := 0x174, acc := .ro },
   { off := 0x178, acc := .ro },
   { off := 0x17C, acc := .ro },
   { off := 0x180, wide := true, acc := .ro, mask := 0xFFFFFFFFFFFFFFFF },
   { off := 0x188, acc := .ro },
   { off := 0x18C, acc := .ro }]

/-- Every SEARCH page (R374). -/
def searchRegs : List RegDef :=
  [{ off := 0x40, acc := .ro },
   { off := 0x44, acc := .ro },
   { off := 0x48, wide := true, acc := .ro, mask := 0xFFFFFFFFFFFFFFFF },
   { off := 0x50, wide := true, acc := .ro, mask := 0xFFFFFFFFFFFFFFFF },
   { off := 0x58, wide := true, acc := .ro, mask := 0xFFFFFFFFFFFFFFFF },
   { off := 0x60, wide := true, acc := .ro, mask := 0xFFFFFFFFFFFFFFFF },
   { off := 0x68, acc := .ro },
   { off := 0x6C, acc := .ro },
   { off := 0x70, acc := .ro },
   { off := 0x74, acc := .ro },
   { off := 0x78, acc := .ro },
   { off := 0x7C, acc := .ro },
   { off := 0x80, acc := .ro }]

/-- The device-wide registers of the first SEARCH (R375). -/
def search0Regs : List RegDef :=
  [{ off := 0x100, acc := .rws, staged := true, mask := 0x80FFFFFF, reset := 0x80010000 },
   { off := 0x104, acc := .rws, staged := true, mask := 0xFFFFF, reset := 0x1000 },
   { off := 0x108, acc := .ro },
   { off := 0x10C, acc := .rw, mask := 0xFF },
   { off := 0x110, acc := .ro },
   { off := 0x114, acc := .ro },
   { off := 0x118, wide := true, acc := .ro, mask := 0xFFFFFFFFFFFFFFFF },
   { off := 0x120, wide := true, acc := .ro, mask := 0xFFFFFFFFFFFFFFFF },
   { off := 0x128, wide := true, acc := .ro, mask := 0xFFFFFFFFFFFFFFFF },
   { off := 0x130, wide := true, acc := .ro, mask := 0xFFFFFFFFFFFFFFFF },
   { off := 0x138, wide := true, acc := .ro, mask := 0xFFFFFFFFFFFFFFFF },
   { off := 0x140, wide := true, acc := .ro, mask := 0xFFFFFFFFFFFFFFFF },
   { off := 0x148, acc := .ro },
   { off := 0x14C, acc := .ro },
   { off := 0x150, acc := .ro },
   { off := 0x154, acc := .ro },
   { off := 0x158, acc := .ro },
   { off := 0x15C, acc := .ro },
   { off := 0x160, acc := .ro },
   { off := 0x164, acc := .ro },
   { off := 0x168, acc := .ro },
   { off := 0x16C, acc := .ro },
   { off := 0x170, acc := .ro },
   { off := 0x174, acc := .ro }]

/-- Every JOB_INGRESS page (R225). -/
def jobIngressRegs : List RegDef :=
  [{ off := 0x40, acc := .ro, reset := 0x2000 },
   { off := 0x44, acc := .ro },
   { off := 0x48, wide := true, acc := .ro, mask := 0xFFFFFFFFFFFFFFFF },
   { off := 0x50, wide := true, acc := .ro, mask := 0xFFFFFFFFFFFFFFFF },
   { off := 0x58, acc := .ro },
   { off := 0x5C, acc := .ro },
   { off := 0x60, acc := .ro },
   { off := 0x64, acc := .ro }]

/-- The device-wide registers of the first JOB_INGRESS (R225). -/
def jobIngress0Regs : List RegDef :=
  [{ off := 0x100, acc := .rw, mask := 0xFFF },
   { off := 0x104, acc := .rws, mask := 0xFFF, reset := 0x100 },
   { off := 0x108, acc := .rws, mask := 0xFFFF, reset := 0x40 },
   { off := 0x10C, acc := .ro },
   { off := 0x110, wide := true, acc := .ro, mask := 0xFFFFFFFFFFFFFFFF },
   { off := 0x118, wide := true, acc := .ro, mask := 0xFFFFFFFFFFFFFFFF }]

/-- Every REQUEST_POOL page (R226). -/
def requestPoolRegs : List RegDef :=
  [{ off := 0x40, acc := .ro, reset := 0x8000 },
   { off := 0x44, acc := .ro },
   { off := 0x48, acc := .rw },
   { off := 0x4C, acc := .ro },
   { off := 0x50, acc := .ro }]

/-- The device-wide registers of the first REQUEST_POOL (R226). -/
def requestPool0Regs : List RegDef :=
  [{ off := 0x100, acc := .rws, staged := true, mask := 0xFFFF, reset := 0x4000 },
   { off := 0x104, acc := .rws, staged := true, mask := 0x1FFF, reset := 0x100 },
   { off := 0x108, acc := .rw, mask := 0xFFF },
   { off := 0x10C, acc := .ro }]

/-- Every BULK_ENGINE page (R227). -/
def bulkEngineRegs : List RegDef :=
  [{ off := 0x40, acc := .ro },
   { off := 0x44, acc := .ro },
   { off := 0x48, acc := .ro },
   { off := 0x4C, acc := .ro },
   { off := 0x50, acc := .ro },
   { off := 0x54, acc := .ro },
   { off := 0x58, wide := true, acc := .ro, mask := 0xFFFFFFFFFFFFFFFF },
   { off := 0x60, wide := true, acc := .ro, mask := 0xFFFFFFFFFFFFFFFF },
   { off := 0x68, acc := .ro },
   { off := 0x6C, acc := .ro }]

/-- The device-wide registers of the first BULK_ENGINE (R227). -/
def bulkEngine0Regs : List RegDef :=
  [{ off := 0x100, acc := .rw, mask := 0x3F },
   { off := 0x104, acc := .rw, mask := 0xFFFF },
   { off := 0x108, acc := .rw, mask := 0xFFFFFF80 },
   { off := 0x110, n := 4, acc := .rw },
   { off := 0x120, n := 4, acc := .wo },
   { off := 0x130, wide := true, acc := .wo, mask := 0xFFFFFFFFFFFFFFFF },
   { off := 0x138, acc := .wo },
   { off := 0x13C, acc := .ro }]

/-- The TWIN page (R403). -/
def twinRegs : List RegDef :=
  [{ off := 0x40, acc := .rws, staged := true, mask := 0x3F03 },
   { off := 0x44, acc := .rws, staged := true, mask := 0xFFFF },
   { off := 0x48, n := 4, acc := .rws, staged := true },
   { off := 0x58, acc := .rws, staged := true, mask := 0x3FFF, reset := 0x3E8 },
   { off := 0x60, n := 8, acc := .wo },
   { off := 0x80, acc := .wo },
   { off := 0x84, acc := .ro },
   { off := 0x88, acc := .wo },
   { off := 0x8C, acc := .ro },
   { off := 0x90, acc := .rw, mask := 0x1FFFF },
   { off := 0x94, acc := .ro },
   { off := 0x98, acc := .ro },
   { off := 0x9C, acc := .wo },
   { off := 0xA0, acc := .ro },
   { off := 0xA4, acc := .ro },
   { off := 0xA8, wide := true, acc := .ro, mask := 0xFFFFFFFFFFFFFFFF },
   { off := 0xB0, wide := true, acc := .ro, mask := 0xFFFFFFFFFFFFFFFF },
   { off := 0xB8, wide := true, acc := .ro, mask := 0xFFFFFFFFFFFFFFFF },
   { off := 0xC0, acc := .ro },
   { off := 0xC4, acc := .ro },
   { off := 0xC8, acc := .ro },
   { off := 0xCC, acc := .ro },
   { off := 0xD0, acc := .ro },
   { off := 0xD4, acc := .ro },
   { off := 0xD8, acc := .ro },
   { off := 0xDC, acc := .ro },
   { off := 0xE0, acc := .ro },
   { off := 0xE4, acc := .ro },
   { off := 0xE8, wide := true, acc := .ro, mask := 0xFFFFFFFFFFFFFFFF },
   { off := 0xF0, acc := .ro }]

/-- The MANAGEMENT page (R435). -/
def managementRegs : List RegDef :=
  [{ off := 0x40, acc := .ro },
   { off := 0x44, acc := .ro },
   { off := 0x48, acc := .rws },
   { off := 0x4C, acc := .wo },
   { off := 0x50, acc := .ro },
   { off := 0x54, acc := .ro },
   { off := 0x58, acc := .ro },
   { off := 0x5C, acc := .ro },
   { off := 0x60, acc := .wo },
   { off := 0x64, acc := .rw, mask := 0x1 },
   { off := 0x68, acc := .rw, mask := 0xFFFFFF },
   { off := 0x6C, acc := .wo },
   { off := 0x70, acc := .ro },
   { off := 0x78, wide := true, acc := .ro, mask := 0xFFFFFFFFFFFFFFFF },
   { off := 0x80, wide := true, acc := .ro, mask := 0xFFFFFFFFFFFFFFFF },
   { off := 0x88, acc := .rw, mask := 0x7FF },
   { off := 0x8C, acc := .wo },
   { off := 0x90, acc := .ro },
   { off := 0x400, n := 256, acc := .rw },
   { off := 0x800, n := 256, acc := .rw }]

/-- The EVENT_CONTROLLER page (R460). Bits [30:10] of FATAL_LAST, which the manual gives no field, store (log entry 68). -/
def eventControllerRegs : List RegDef :=
  [{ off := 0x40, wide := true, acc := .rws, mask := 0xFFFFFFFFFFFFFFFF },
   { off := 0x48, acc := .rws, mask := 0x1F },
   { off := 0x4C, acc := .rws, mask := 0x7FFFF },
   { off := 0x50, acc := .ro },
   { off := 0x54, acc := .ro },
   { off := 0x58, acc := .ro, reset := 0x1 },
   { off := 0x5C, acc := .ro },
   { off := 0x60, acc := .wo },
   { off := 0x64, acc := .wo },
   { off := 0x68, acc := .ro },
   { off := 0x6C, acc := .ro },
   { off := 0x70, n := 4, acc := .rws },
   { off := 0x80, n := 4, acc := .rws },
   { off := 0x90, acc := .rws, mask := 0xFF03, reset := 0xA00 },
   { off := 0x98, acc := .rws },
   { off := 0xA0, wide := true, acc := .rws, mask := 0xFFFFFFFFFFFFFFFF },
   { off := 0xC0, n := 8, acc := .ro },
   { off := 0x100, n := 32, acc := .rw },
   { off := 0x180, n := 32, acc := .rw },
   { off := 0x200, n := 32, acc := .ro },
   { off := 0x280, n := 32, acc := .ro },
   { off := 0x400, n := 512, acc := .ro }]

/-- The MONITOR page (R461). -/
def monitorRegs : List RegDef :=
  [{ off := 0x40, acc := .rws, mask := 0xFF3F0F },
   { off := 0x44, acc := .rws, mask := 0xFFFFF },
   { off := 0x48, wide := true, acc := .rws, mask := 0xFFFFFFFFFFFFFFFF, reset := 0x3B9ACA00 },
   { off := 0x50, wide := true, acc := .rws, mask := 0xFFFFFFFFFFFFFFFF },
   { off := 0x58, acc := .ro },
   { off := 0x5C, acc := .w1c, mask := 0x1 },
   { off := 0x60, acc := .ro },
   { off := 0x68, wide := true, acc := .ro, mask := 0xFFFFFFFFFFFFFFFF },
   { off := 0x70, wide := true, acc := .ro, mask := 0xFFFFFFFFFFFFFFFF, reset := 0xFFFFFFFFFFFFFFFF },
   { off := 0x78, wide := true, acc := .ro, mask := 0xFFFFFFFFFFFFFFFF },
   { off := 0x80, wide := true, acc := .ro, mask := 0xFFFFFFFFFFFFFFFF },
   { off := 0x88, wide := true, acc := .ro, mask := 0xFFFFFFFFFFFFFFFF },
   { off := 0x100, n := 32, acc := .ro }]

/-- The DRILL page (R462). -/
def drillRegs : List RegDef :=
  [{ off := 0x40, acc := .rw, mask := 0xF },
   { off := 0x44, acc := .rw, mask := 0x130FFFFF },
   { off := 0x48, wide := true, acc := .rw, mask := 0xFFFFFFFFFFFFFFFF },
   { off := 0x50, acc := .rw, mask := 0xFFFF000F },
   { off := 0x54, acc := .rw, mask := 0x7FF, reset := 0x1 },
   { off := 0x58, acc := .rw, mask := 0x3FFF, reset := 0x1 },
   { off := 0x5C, acc := .rws, mask := 0x3FF, reset := 0xA },
   { off := 0x60, acc := .wo },
   { off := 0x64, acc := .wo },
   { off := 0x68, acc := .ro },
   { off := 0x6C, acc := .wo },
   { off := 0x70, acc := .ro },
   { off := 0x74, acc := .ro },
   { off := 0x78, acc := .ro }]

/-- The POWER_PACE page (R479). -/
def powerPaceRegs : List RegDef :=
  [{ off := 0x40, acc := .ro },
   { off := 0x44, acc := .rws, staged := true, mask := 0x3FF, reset := 0x2EE },
   { off := 0x48, acc := .ro, reset := 0x2EE },
   { off := 0x4C, acc := .ro },
   { off := 0x50, acc := .ro },
   { off := 0x54, acc := .rw, mask := 0x1F },
   { off := 0x58, acc := .ro },
   { off := 0x5C, acc := .rws, staged := true, mask := 0xFFFF, reset := 0x55F },
   { off := 0x60, acc := .rws, staged := true, mask := 0x7FF, reset := 0x5DC },
   { off := 0x64, acc := .ro },
   { off := 0x68, acc := .rw, mask := 0xF },
   { off := 0x6C, acc := .ro },
   { off := 0x70, acc := .ro },
   { off := 0x74, acc := .ro },
   { off := 0x78, wide := true, acc := .ro, mask := 0xFFFFFFFFFFFFFFFF },
   { off := 0x80, acc := .ro },
   { off := 0x84, acc := .ro },
   { off := 0x88, acc := .w1c, mask := 0x3 }]

/-- The registers that the owning chapter gives a page, beyond the header (R43). -/
def ownRegs (page : Nat) : List RegDef :=
  if page = 0 then rootRegs
  else if page = 3 then portGroup0Regs
  else if page = 6 then eventControllerRegs
  else if page = 8 then twinRegs
  else if page = 9 then managementRegs
  else if page = 0xA then drillRegs
  else if page = 0xB then powerPaceRegs
  else if 0x2000 ≤ page ∧ page < 0x2028 then portRegs
  else if 0x2100 ≤ page ∧ page < 0x2114 then lockGroupRegs
  else if page = 0x3000 then translationRegs ++ translation0Regs
  else if page = 0x3001 then translationRegs
  else if 0x4000 ≤ page ∧ page < 0x4040 then monitorRegs
  else if 0x1000 ≤ page ∧ page < 0x1800 then
    let low := page % 0x400
    let first := page < 0x1400
    if low = 0 ∧ first then directorySliceRegs ++ directorySlice0Regs
    else if low < 16 then directorySliceRegs
    else if low = 0x10 then if first then requestPoolRegs ++ requestPool0Regs else requestPoolRegs
    else if low = 0x11 then if first then jobIngressRegs ++ jobIngress0Regs else jobIngressRegs
    else if low = 0x12 then if first then tierManager0Regs ++ tierManagerRegs else tierManagerRegs
    else if low = 0x13 then if first then tierCodecRegs ++ tierCodec0Regs else tierCodecRegs
    else if 0x20 ≤ low ∧ low < 0x24 then nearChannelRegs
    else if 0x30 ≤ low ∧ low < 0x38 then bulkChannelRegs
    else if 0x50 ≤ low ∧ low < 0x54 then matrixArrayRegs
    else if 0x58 ≤ low ∧ low < 0x5C then expanderRegs
    else if low = 0x60 then if first then sessionAttentionRegs ++ sessionAttention0Regs else sessionAttentionRegs
    else if low = 0x68 then if first then gatherRegs ++ gather0Regs else gatherRegs
    else if low = 0x69 then gatherRegs
    else if low = 0x70 then if first then searchRegs ++ search0Regs else searchRegs
    else if low = 0x78 then if first then bulkEngineRegs ++ bulkEngine0Regs else bulkEngineRegs
    else []
  else []

/-- The register that covers offset off of a page, and the offset of the word or pair of words within it that off
names; none where the page has no register there (R12). -/
def findReg (page off : Nat) : Option (RegDef × Nat) :=
  let hit (r : RegDef) : Bool := r.off ≤ off && off < r.off + (if r.wide then 8 else 4 * r.n)
  match (if off < 0x40 then headerRegs else ownRegs page).find? hit with
  | some r => some (r, if r.wide then r.off else off)
  | none => none

/-- Reset value of PORT_CTRL of a port: DEGRADE_EN 1, RATE 0 and the role of Table 3-1 (Table 3-13). -/
def portCtrlReset (p : Nat) : Nat := 0x40 + (if p < 2 then 0 else if p < 34 then 1 else 2)

/-- Reset value of the register at a control address. -/
def resetValue (a : Nat) : Nat :=
  let page := a / 4096
  let off := a % 4096
  if 0x2000 ≤ page ∧ page < 0x2028 ∧ off = 0x40 then portCtrlReset (page - 0x2000)
  else match findReg page off with
    | some (r, _) => r.reset
    | none => 0

end Sys2Proof.Machine
end

