-- ==== Sys2Proof/Machine/Ops.lean ====
section
/-! DEFINITION. The named operations that every meaning is built from: updates of one part of the state, registers
and counters, free values, event sources, bytes of the store, and what the device sends. -/

namespace Sys2Proof.Machine

/-- What a step answers. -/
abbrev Answer := Host.Outcome State Fault Refusal

/-! ### Updates of one part -/

def State.onCtl (s : State) (f : Control → Control) : State := { s with ctl := f s.ctl }
def State.onBoot (s : State) (f : Boot → Boot) : State := { s with boot := f s.boot }
def State.onTime (s : State) (f : TimeBase → TimeBase) : State := { s with time := f s.time }
def State.onNet (s : State) (f : Net → Net) : State := { s with net := f s.net }
def State.onStore (s : State) (f : Store → Store) : State := { s with store := f s.store }
def State.onCoh (s : State) (f : Coherence → Coherence) : State := { s with coh := f s.coh }
def State.onXlat (s : State) (f : Xlat → Xlat) : State := { s with xlat := f s.xlat }
def State.onJobs (s : State) (f : Jobs → Jobs) : State := { s with jobs := f s.jobs }
def State.onPal (s : State) (f : Palettes → Palettes) : State := { s with pal := f s.pal }
def State.onSess (s : State) (f : Tbl Session → Tbl Session) : State := { s with sess := f s.sess }
def State.onEmb (s : State) (f : Embeddings → Embeddings) : State := { s with emb := f s.emb }
def State.onSrch (s : State) (f : Searches → Searches) : State := { s with srch := f s.srch }
def State.onTwin (s : State) (f : Twin → Twin) : State := { s with twin := f s.twin }
def State.onEv (s : State) (f : Events → Events) : State := { s with ev := f s.ev }
def State.onMon (s : State) (f : Tbl MonSlot → Tbl MonSlot) : State := { s with mon := f s.mon }
def State.onDrill (s : State) (f : Drill → Drill) : State := { s with drill := f s.drill }
def State.onPwr (s : State) (f : Power → Power) : State := { s with pwr := f s.pwr }
def State.onQuiet (s : State) (f : QuietEdges → QuietEdges) : State := { s with quiet := f s.quiet }

/-- Do f when the condition holds, nothing otherwise. -/
def State.when (s : State) (c : Bool) (f : State → State) : State := if c then f s else s

/-! ### Registers and counters (R10, R58, R59) -/

/-- The running value of the register at a control address. -/
def State.reg (s : State) (a : Nat) : Nat :=
  match s.ctl.regs.get? a with
  | some v => v.toNat
  | none => resetValue a

/-- The shadow of a staged register (R59). -/
def State.shadowReg (s : State) (a : Nat) : Nat :=
  match s.ctl.shadow.get? a with
  | some v => v.toNat
  | none => s.reg a

/-- Give a register its value. -/
def State.setReg (s : State) (a v : Nat) : State :=
  s.onCtl fun c => { c with regs := c.regs.put a (BitVec.ofNat 64 v) }

/-- Add n to a 32-bit saturating counter. -/
def State.bump (s : State) (a : Nat) (n : Nat := 1) : State := s.setReg a (satAdd 32 (s.reg a) n)

/-- Add n to a 64-bit saturating counter (R58). -/
def State.bump64 (s : State) (a : Nat) (n : Nat := 1) : State := s.setReg a (satAdd 64 (s.reg a) n)

/-- A write refused by the device, which ROOT.CTL_REFUSED counts. -/
def State.refuse (s : State) : State := s.bump Reg.rootCtlRefused

/-! ### Free values and time -/

/-- Draw the next free value (log entry 1). -/
def State.draw (s : State) : Nat × State := (Config.freeValue s.free, { s with free := s.free + 1 })

/-- TIME in nanoseconds (R24). -/
def State.now (s : State) : Nat := s.time.now

/-- The nanoseconds that have passed since power-good, which no setting of TIME moves: all intervals are measured in it. -/
def State.ran (s : State) : Nat := s.time.ran

/-- Whether n ns have passed since t. -/
def State.since (s : State) (t n : Nat) : Bool := decide (t + n ≤ s.ran)

/-! ### Event sources (R445, R446) -/

/-- Whether a source is masked. -/
def Events.masked (e : Events) (src : Nat) : Bool := e.mask.getLsbD src

/-- Set one bit of a vector of sources. -/
def setBit (v : BitVec 1024) (i : Nat) : BitVec 1024 := v ||| BitVec.twoPow 1024 i

/-- Clear one bit of a vector of sources. -/
def clearBit (v : BitVec 1024) (i : Nat) : BitVec 1024 := v &&& ~~~ BitVec.twoPow 1024 i

/-- A source becomes pending unless it is masked; the record of a source that was pending already keeps the
arguments of its first raise (R439, R445). -/
def Events.pending (e : Events) (src : Nat) (a : RaiseArgs) : Events :=
  if e.masked src then e
  else if e.pend.getLsbD src then e
  else { e with pend := setBit e.pend src, args := e.args.put src a }

/-- A LANE_DOWN or PORT_DOWN drill holds this port (Table 15-7). -/
def State.portDrilled (s : State) (p : Nat) : Bool :=
  s.drill.st = .active && (s.drill.kind = 3 || s.drill.kind = 4) && s.drill.page = 0x2000 + p

/-- Whether an active drill is what makes a source rise: the sources of a drilled port, and LOST and PAIR under
TWIN_SILENCE (R456). -/
def State.drilledSource (s : State) (src : Nat) : Bool :=
  if 16 ≤ src && src < 176 then s.portDrilled ((src - 16) / 4)
  else (src = 8 || src = 10) && s.drill.st = .active && s.drill.kind = 7

/-- An edge of a source: its count, and its pending bit (R445). -/
def State.raise (s : State) (src : Nat) (a : RaiseArgs := { }) : State :=
  s.onEv fun e =>
    let c := min (e.counts.getD src 0 + 1) 0xFFFF
    let e := { e with counts := e.counts.put src c }
    e.pending src { a with time := s.now, count := c, drill := a.drill || s.drilledSource src }

/-- An edge that is raised only after 1 ms without a happening of its kind. -/
def State.raiseQuiet (s : State) (src : Nat) (a : RaiseArgs := { }) : State :=
  let last := s.quiet.last.get? src
  let s := s.onQuiet fun q => { q with last := q.last.put src s.ran }
  match last with
  | none => s.raise src a
  | some t => if s.since t 1000000 then s.raise src a else s

/-- A UNIT_ERR bit of a unit is set, and raises the unit's error event unless UNIT_ERR_MASK stops that bit (Table 2-1). -/
def State.unitError (s : State) (page k : Nat) (event : State → State) : State :=
  let a := Reg.unitErr page
  let s := s.setReg a (s.reg a ||| 2 ^ k)
  if bit (s.reg (Reg.unitErrMask page)) k then s else event s

/-- The assertion of a level condition (R445). -/
def State.assertLevel (s : State) (src : Nat) : State :=
  s.onEv fun e => e.pending src { time := s.now, count := e.counts.getD src 0, drill := s.drilledSource src }

/-! ### Bytes of the store (R102; log entry 7) -/

/-- The byte that memory holds at an address: 0 where nothing is listed. -/
def memGet : List Host.Cell → Nat → Byte
  | [], _ => 0
  | (k, v) :: m, a => if k = a then v else memGet m a

/-- The entries of bytes stored at rising addresses from a on; a byte of 0 has none. -/
def memNew : Nat → List Byte → List Host.Cell
  | _, [] => []
  | a, b :: bs => if b = 0 then memNew (a + 1) bs else (a, b) :: memNew (a + 1) bs

/-- Store bytes at rising addresses from a on. -/
def memWrite (m : List Host.Cell) (a : Nat) (bs : List Byte) : List Host.Cell :=
  m.filter (fun c => decide (c.1 < a)) ++ memNew a bs ++ m.filter fun c => decide (a + bs.length ≤ c.1)

/-- n bytes from address a on. -/
def memRead (m : List Host.Cell) (a n : Nat) : List Byte :=
  let near := m.filter fun c => decide (a ≤ c.1) && decide (c.1 < a + n)
  (List.range n).map fun i => memGet near (a + i)

/-- Zero every byte from lo up to but not including hi. -/
def memClear (m : List Host.Cell) (lo hi : Nat) : List Host.Cell := m.filter fun c => c.1 < lo || hi ≤ c.1

/-- The canonical form from an address on. -/
def memOkFrom : List Host.Cell → Nat → Bool
  | [], _ => true
  | (k, v) :: m, lo => lo ≤ k && v != 0 && memOkFrom m (k + 1)

/-- The canonical form of memory: addresses strictly rising, no entry equal to what an unlisted address reads as. -/
def Memory.wf (m : List Host.Cell) : Bool := memOkFrom m 0

/-- One byte of the store. -/
def State.byte (s : State) (a : Nat) : Byte := memGet s.store.mem a

/-- n bytes of the store from an offset on. -/
def State.bytes (s : State) (a n : Nat) : List Byte := memRead s.store.mem a n

/-- Write bytes to the store. -/
def State.poke (s : State) (a : Nat) (bs : List Byte) : State :=
  s.onStore fun st => { st with mem := memWrite st.mem a bs }

/-- Zero the store from lo up to but not including hi. -/
def State.zero (s : State) (lo hi : Nat) : State :=
  s.onStore fun st => { st with mem := memClear st.mem lo hi }

/-- A little-endian number of n bytes in the store. -/
def State.leAt (s : State) (a n : Nat) : Nat := leNat (s.bytes a n)

/-! ### Status codes (R84) -/

/-- The code of a completion status (Table 3-8). -/
def Status.code : Status → Nat
  | .ok => 0x00
  | .lost => 0x01
  | .revoked => 0x02
  | .denied => 0x03
  | .notPresent => 0x04
  | .unsupported => 0x05
  | .quota => 0x06
  | .busy => 0x07
  | .check => 0x08
  | .paletteGone => 0x09
  | .uncorrectable => 0x0A
  | .timeout => 0x0B
  | .held => 0x0C
  | .staleIncarnation => 0x0D
  | .reset => 0x0E
  | .faulted => 0x0F
  | .version => 0x10

/-- The status of a code (Table 3-8). -/
def statusOf (code : Nat) : Status :=
  (([.ok, .lost, .revoked, .denied, .notPresent, .unsupported, .quota, .busy, .check, .paletteGone, .uncorrectable, .timeout,
    .held, .staleIncarnation, .reset, .faulted, .version] : List Status)[code]?).getD .unsupported

/-! ### The device and its addresses -/

/-- The device number (R13). -/
def State.device (s : State) : Nat := s.reg Reg.rootDeviceNum

/-- 128-bit address in four registers from a on, the first holding bits [127:96]. -/
def State.ip (s : State) (a : Nat) : BitVec 128 :=
  BitVec.ofNat 128 (((s.reg a * 2 ^ 32 + s.reg (a + 4)) * 2 ^ 32 + s.reg (a + 8)) * 2 ^ 32 + s.reg (a + 12))

/-- A key of 256 bits in eight registers from a on, the first holding bits [255:224]. -/
def State.key256 (s : State) (a : Nat) : BitVec 256 :=
  BitVec.ofNat 256 ((List.range 8).foldl (fun k i => k * 2 ^ 32 + s.reg (a + 4 * i)) 0)

/-- The directory slice of the line at a store offset (R17). -/
def sliceOf (off : Nat) : Nat := bits off 10 6 ^^^ bits off 15 11 ^^^ bits off 20 16

/-- The page of a directory slice (Table 2-7). -/
def slicePage (n : Nat) : Nat := 0x1000 + 0x400 * (n / 16) + n % 16

/-- The home die of the line at a store offset (R17). -/
def homeDie (off : Nat) : Nat := if sliceOf off < 16 then 0 else 1

/-- The page of a unit of core group g at offset low of its base page (Table 2-7). -/
def corePage (g low : Nat) : Nat := 0x1000 + 0x400 * g + low

end Sys2Proof.Machine
end

