-- ==== Sys2Proof/Machine/Tree.lean ====
section
/-! DEFINITION. The unit tree (R46 to R57, R480): types, instances, parents and children of the pages, which units
an ordering code has, and what a unit's header reads. -/

namespace Sys2Proof.Machine

/-- Unit types (Table 2-7). -/
inductive UnitType where
  | root | group | port | lockGroup | nearChannel | bulkChannel | tierManager | directorySlice | requestPool
  | translation | matrixArray | expander | tierCodec | sessionAttention | gather | search | bulkEngine | jobIngress
  | twin | eventController | monitor | drill | management | powerPace
  deriving DecidableEq, Repr

/-- TYPE codes (Table 2-7). -/
def UnitType.code : UnitType → Nat
  | .root => 0x01
  | .group => 0x02
  | .port => 0x10
  | .lockGroup => 0x11
  | .nearChannel => 0x20
  | .bulkChannel => 0x21
  | .tierManager => 0x22
  | .directorySlice => 0x30
  | .requestPool => 0x31
  | .translation => 0x40
  | .matrixArray => 0x50
  | .expander => 0x51
  | .tierCodec => 0x52
  | .sessionAttention => 0x53
  | .gather => 0x60
  | .search => 0x70
  | .bulkEngine => 0x80
  | .jobIngress => 0x81
  | .twin => 0x90
  | .eventController => 0xA0
  | .monitor => 0xA1
  | .drill => 0xA2
  | .management => 0xB0
  | .powerPace => 0xC0

/-- A unit: its type, its instance, for groups the VARIANT (Table 2-6), and its parent's page. -/
structure UnitRef where
  ty : UnitType
  inst : Nat
  variant : Nat := 0
  parent : Nat := 0
  deriving DecidableEq, Repr

/-- The units of a core group's pages, by the offset from its base page (Table 2-7). -/
def coreUnit (g low : Nat) : Option UnitRef :=
  let cg := 1 + g
  let eg := corePage g 0x40
  let ag := corePage g 0x41
  if low < 16 then some ⟨.directorySlice, 16 * g + low, 0, cg⟩
  else if low = 0x10 then some ⟨.requestPool, g, 0, cg⟩
  else if low = 0x11 then some ⟨.jobIngress, g, 0, cg⟩
  else if low = 0x12 then some ⟨.tierManager, g, 0, cg⟩
  else if low = 0x13 then some ⟨.tierCodec, g, 0, cg⟩
  else if 0x20 ≤ low ∧ low < 0x24 then some ⟨.nearChannel, 4 * g + (low - 0x20), 0, cg⟩
  else if 0x30 ≤ low ∧ low < 0x38 then some ⟨.bulkChannel, 8 * g + (low - 0x30), 0, cg⟩
  else if low = 0x40 then some ⟨.group, g, 0x02, cg⟩
  else if low = 0x41 then some ⟨.group, g, 0x03, eg⟩
  else if 0x50 ≤ low ∧ low < 0x54 then some ⟨.matrixArray, 4 * g + (low - 0x50), 0, ag⟩
  else if 0x58 ≤ low ∧ low < 0x5C then some ⟨.expander, 4 * g + (low - 0x58), 0, ag⟩
  else if low = 0x60 then some ⟨.sessionAttention, g, 0, eg⟩
  else if 0x68 ≤ low ∧ low < 0x6A then some ⟨.gather, 2 * g + (low - 0x68), 0, eg⟩
  else if low = 0x70 then some ⟨.search, g, 0, eg⟩
  else if low = 0x78 then some ⟨.bulkEngine, g, 0, eg⟩
  else none

/-- The unit whose page this is (Table 2-7); none for the gaps (R40). -/
def unitOf (page : Nat) : Option UnitRef :=
  if page = 0 then some ⟨.root, 0, 0, 0⟩
  else if page < 3 then some ⟨.group, page - 1, 0x01, 0⟩
  else if page < 5 then some ⟨.group, page - 3, 0x04, 0⟩
  else if page = 5 then some ⟨.group, 0, 0x05, 0⟩
  else if page = 6 then some ⟨.eventController, 0, 0, 0⟩
  else if page = 7 then some ⟨.group, 0, 0x06, 0⟩
  else if page = 8 then some ⟨.twin, 0, 0, 0⟩
  else if page = 9 then some ⟨.management, 0, 0, 0⟩
  else if page = 0xA then some ⟨.drill, 0, 0, 0⟩
  else if page = 0xB then some ⟨.powerPace, 0, 0, 0⟩
  else if 0x1000 ≤ page ∧ page < 0x1400 then coreUnit 0 (page - 0x1000)
  else if 0x1400 ≤ page ∧ page < 0x1800 then coreUnit 1 (page - 0x1400)
  else if 0x2000 ≤ page ∧ page < 0x2028 then some ⟨.port, page - 0x2000, 0, 3 + page % 2⟩
  else if 0x2100 ≤ page ∧ page < 0x2114 then some ⟨.lockGroup, page - 0x2100, 0, 3 + (page - 0x2100) / 10⟩
  else if page = 0x3000 ∨ page = 0x3001 then some ⟨.translation, page - 0x3000, 0, 5⟩
  else if 0x4000 ≤ page ∧ page < 0x4040 then some ⟨.monitor, page - 0x4000, 0, 7⟩
  else none

/-- The pages from lo on, n of them. -/
def pagesFrom (lo n : Nat) : List Nat := (List.range n).map (lo + ·)

/-- The pages of core group g's children (Table 2-7), in ascending page order. -/
def coreChildren (g : Nat) : List Nat :=
  let b := corePage g 0
  pagesFrom b 20 ++ pagesFrom (b + 0x20) 4 ++ pagesFrom (b + 0x30) 8 ++ [b + 0x40]

/-- The children that a page lists by Table 2-7; a lock group lists its members instead (R47). -/
def fixedChildren (page : Nat) : List Nat :=
  if page = 0 then pagesFrom 1 11
  else if page = 1 then coreChildren 0
  else if page = 2 then coreChildren 1
  else if page = 3 ∨ page = 4 then
    (List.range 20).map (fun i => 0x2000 + 2 * i + (page - 3)) ++ pagesFrom (0x2100 + 10 * (page - 3)) 10
  else if page = 5 then [0x3000, 0x3001]
  else if page = 7 then pagesFrom 0x4000 64
  else if page = 0x1040 ∨ page = 0x1440 then
    [page + 1, page + 0x20, page + 0x28, page + 0x29, page + 0x30, page + 0x38]
  else if page = 0x1041 ∨ page = 0x1441 then pagesFrom (page + 0xF) 4 ++ pagesFrom (page + 0x17) 4
  else []

/-- Every page of Table 2-7, ascending. -/
def allPages : List Nat :=
  pagesFrom 0 12 ++ coreChildren 0 ++
  [0x1041] ++ pagesFrom 0x1050 4 ++ pagesFrom 0x1058 4 ++ [0x1060, 0x1068, 0x1069, 0x1070, 0x1078] ++
  coreChildren 1 ++
  [0x1441] ++ pagesFrom 0x1450 4 ++ pagesFrom 0x1458 4 ++ [0x1460, 0x1468, 0x1469, 0x1470, 0x1478] ++
  pagesFrom 0x2000 40 ++ pagesFrom 0x2100 20 ++ [0x3000, 0x3001] ++ pagesFrom 0x4000 64

/-- Whether an ordering code has a leaf unit (Table 0-1). -/
def leafPresent (order : OrderCode) (u : UnitRef) : Bool :=
  match u.ty, order with
  | .matrixArray, .b | .expander, .b => u.inst % 4 < 2
  | .matrixArray, .c | .expander, .c => false
  | .sessionAttention, .c => false
  | .search, .b | .search, .c => false
  | .gather, .b | .gather, .c => u.inst % 2 = 0
  | .nearChannel, .c => u.inst % 4 < 2
  | .port, .c => u.inst < 18 || 34 ≤ u.inst
  | _, _ => true

/-- Whether a page's unit is present (R1, R49): a group is present when some child is. -/
def pagePresent (order : OrderCode) (page : Nat) : Bool :=
  match unitOf page with
  | none => false
  | some u =>
    if u.ty = .group then
      let leaf (c : Nat) : Bool := match unitOf c with
        | some v => leafPresent order v
        | none => false
      (fixedChildren page).any fun c => leaf c && (unitOf c |>.any (·.ty != .group))
    else leafPresent order u

/-- Whether a page's unit is present on this device. -/
def State.present (s : State) (page : Nat) : Bool := pagePresent s.boot.order page

/-- The member ports that lock group n names, by its running registers (R72). -/
def State.lgMembers (s : State) (n : Nat) : List Nat :=
  let pg := 0x2100 + n
  let m := s.reg (Reg.lgLgMembersLo pg) + s.reg (Reg.lgLgMembersHi pg) * 2 ^ 32
  if s.reg (Reg.lgLgCtrl pg) % 4 = 0 then [] else (List.range 40).filter fun p => bit m p

/-- The child list of a page (R47, Table 2-1). -/
def State.children (s : State) (page : Nat) : List Nat :=
  match unitOf page with
  | some u => if u.ty = .lockGroup then (s.lgMembers u.inst).map (0x2000 + ·) else fixedChildren page
  | none => []

/-- The present children of a page. -/
def State.presentChildren (s : State) (page : Nat) : List Nat := (s.children page).filter s.present

/-- The present leaves below a page, or the page itself when it is a leaf. A lock group is a leaf here. -/
def State.leavesBelow (s : State) (page : Nat) : List Nat :=
  let isInner (p : Nat) : Bool := match unitOf p with
    | some u => decide (u.ty = .group ∨ u.ty = .root)
    | none => false
  let down (ps : List Nat) : List Nat :=
    ps.flatMap fun p => if isInner p then (fixedChildren p).filter s.present else [p]
  down (down (down (down [page])))

/-- The present descendants of a page, groups included, the page itself excluded. -/
def State.descendants (s : State) (page : Nat) : List Nat :=
  let kids (ps : List Nat) : List Nat :=
    ps.flatMap fun p => match unitOf p with
      | some u => if u.ty = .lockGroup then [] else (fixedChildren p).filter s.present
      | none => []
  let a := kids [page]
  let b := kids a
  let c := kids b
  a ++ b ++ c ++ kids c

/-- UNIT_CAP of a present leaf (Table 2-10). -/
def leafCap : UnitType → Nat
  | .root => 0x3
  | .group => 0x7
  | .lockGroup => 0xF
  | .port | .nearChannel | .bulkChannel | .twin => 0xD
  | .matrixArray => 0x00FE0005
  | .expander => 0x00070005
  | .tierCodec => 0x000F0005
  | .eventController | .monitor | .drill => 0x1
  | _ => 0x5

/-- UNIT_CAP of a page (R47, R49, R57, R480). -/
def State.unitCap (s : State) (page : Nat) : Nat :=
  if s.present page then
    match unitOf page with
    | some u =>
      if u.ty = .group then
        let drillable := (s.leavesBelow page).any fun p => match unitOf p with
          | some v => bit (leafCap v.ty) 3
          | none => false
        0x7 + 8 * b2n drillable
      else leafCap u.ty
    | none => 0
  else 0

/-- UNIT_ID of a page (Table 2-1). -/
def unitId (page : Nat) : Nat :=
  match unitOf page with
  | some u => u.ty.code * 2 ^ 24 + u.variant * 2 ^ 16 + u.inst
  | none => 0

/-- Groups and the root: pages whose header combines their children's. -/
def isGroup (page : Nat) : Bool :=
  match unitOf page with
  | some u => u.ty = .group || u.ty = .root
  | none => false

/-! ### What a unit reads of itself (Tables 2-3, 2-4) -/

/-- UNIT_CTRL.ENABLE of a page. -/
def State.enabled (s : State) (page : Nat) : Bool := bit (s.reg (Reg.unitCtrl page)) 0

/-- UNIT_CTRL.QUIESCE of a page. -/
def State.quiesced (s : State) (page : Nat) : Bool := bit (s.reg (Reg.unitCtrl page)) 1

/-- Whether a page's unit is in FAILED (R45). -/
def State.failed (s : State) (page : Nat) : Bool := s.ctl.failed.contains page

/-- Whether a unit is asked to drain (R44). -/
def State.stopping (s : State) (page : Nat) : Bool := !s.enabled page || s.quiesced page

/-- States of UNIT_STAT (Table 2-4). -/
inductive UnitState where
  | off | greyscale | run | quiesced | held | failed
  deriving DecidableEq, Repr

/-- The code of a unit state. -/
def UnitState.code : UnitState → Nat
  | .off => 0
  | .greyscale => 1
  | .run => 2
  | .quiesced => 3
  | .held => 4
  | .failed => 5

/-- Whether a page is that of a lock group without members (R47). -/
def State.lgUnused (s : State) (page : Nat) : Bool :=
  match unitOf page with
  | some u => decide (u.ty = .lockGroup) && (s.lgMembers u.inst).isEmpty
  | none => false

/-- STATE that a unit reads of itself: FAILED, then OFF or QUIESCED once drained, then what the service state gives (R44,
R45); a unit in Dark hold reads HELD (log entry 12). -/
def State.ownState (s : State) (page : Nat) : UnitState :=
  if s.failed page then .failed
  else if s.stopping page && s.ctl.drained.contains page then (if s.enabled page then .quiesced else .off)
  else match s.boot.service with
    | .darkHold => .held
    | .greyscale => .greyscale
    | .full => .run

/-- The first state of R50's list that some state of a list is. -/
def groupState (l : List UnitState) : UnitState :=
  if l.contains .failed then .failed
  else if l.contains .held then .held
  else if l.contains .run then .run
  else if l.contains .greyscale then .greyscale
  else if l.contains .quiesced then .quiesced
  else .off

/-- STATE of a page without groups below it: a lock group combines its member ports, and reads OFF without members
(R47). -/
def State.leafState (s : State) (page : Nat) : UnitState :=
  if (unitOf page).any fun u => u.ty = .lockGroup then groupState ((s.presentChildren page).map s.ownState) else s.ownState page

/-- STATE of a page (R44, R50). -/
def State.unitState (s : State) (page : Nat) : UnitState :=
  if isGroup page then groupState ((s.leavesBelow page).map s.leafState) else s.leafState page

/-- Whether a unit takes new work: it reads RUN or GREYSCALE, it is not asked to stop and it is not being reset. -/
def State.serves (s : State) (page : Nat) : Bool :=
  s.present page && !s.stopping page && !s.ctl.resetting.contains page &&
    (s.leafState page = .run || s.leafState page = .greyscale)

/-- Whether every page of a list of units of one kind is stopped, so that none can accept a job (R55). -/
def State.noneServes (s : State) (pages : List Nat) : Bool := !pages.any s.serves

/-- Pages of the matrix arrays, by instance. -/
def arrayPages : List Nat := pagesFrom 0x1050 4 ++ pagesFrom 0x1450 4

/-- Page of matrix array a. -/
def arrayPage (a : Nat) : Nat := corePage (a / 4) (0x50 + a % 4)

/-- Page of expander a. -/
def expanderPage (a : Nat) : Nat := corePage (a / 4) (0x58 + a % 4)

/-- Page of gather engine e. -/
def gatherPage (e : Nat) : Nat := corePage (e / 2) (0x68 + e % 2)

/-- Page of a near-tier channel by stack, and of a bulk-tier channel. -/
def nearPage (n : Nat) : Nat := corePage (n / 4) (0x20 + n % 4)
def bulkPage (c : Nat) : Nat := corePage (c / 8) (0x30 + c % 8)

/-- Page of tier codec g. -/
def codecPage (g : Nat) : Nat := corePage g 0x13

/-- Page of port p. -/
def portPage (p : Nat) : Nat := 0x2000 + p

end Sys2Proof.Machine
end

