-- ==== Sys2Proof/Machine/Operands.lean ====
section
/-! DEFINITION. The fields of a JMT frame (Tables 3-3 to 3-6), its extensions (R79), and the frames the device
forms. -/

namespace Sys2Proof.Machine

/-! ### Flags (Table 3-4) -/

def fProbe : Nat := 11
def fCompress : Nat := 10
def fVolatile : Nat := 9
def fFence : Nat := 8
def fCmdEnd : Nat := 7
def fCwr : Nat := 6
def fEce : Nat := 5
def fRetx : Nat := 4
def fUnseq : Nat := 3
def fResp : Nat := 2
def fSack : Nat := 1
def fAckValid : Nat := 0

/-- One flag of a frame, by its bit counted from word 0 bit 8. -/
def has (f : Frame) (k : Nat) : Bool := f.flags.getLsbD k

/-- A frame with a flag set. -/
def withFlag (f : Frame) (k : Nat) : Frame := { f with flags := f.flags ||| BitVec.twoPow 12 k }

/-- A frame with a flag set when a condition holds. -/
def flagIf (c : Bool) (k : Nat) (f : Frame) : Frame := if c then withFlag f k else f

/-! ### Types (Table 3-5) -/

/-- Types that Table 3-5 lists. -/
def listedTypes : List Nat :=
  [0x01, 0x02, 0x03, 0x04, 0x05, 0x06, 0x10, 0x11, 0x12, 0x13, 0x14, 0x15, 0x16, 0x17, 0x18, 0x19, 0x1A, 0x1B, 0x20,
   0x30, 0x31, 0x40, 0x50, 0x51, 0x52, 0x53, 0x60]

/-- Types that only the device sends (R81): JOB_DONE, FWD_S, FWD_M, INV, RECALL, EVT_BEACON, ACCEPT. -/
def deviceTypes : List Nat := [0x06, 0x16, 0x17, 0x18, 0x19, 0x40, 0x51]

/-- A TYPE that an agent may not send: unlisted, or sent only by the device (R81). -/
def strayType (ty : Nat) : Bool := !listedTypes.contains ty || deviceTypes.contains ty

/-! ### Extensions (R79) -/

/-- The extensions of a frame in order: EXT_TYPE and the words after the opening word; none when one of them is not
well formed. -/
def parseExt : Nat → List Word → Option (List (Nat × Nat × List Word))
  | _, [] => some []
  | 0, _ :: _ => none
  | n + 1, w :: ws =>
    let ty := bits w.toNat 31 24
    let len := bits w.toNat 23 16
    let cnt := bits w.toNat 7 0
    if len = 0 || ws.length + 1 < len then none
    else if ty = 1 && (cnt = 0 || 3 < cnt || len != 1 + 2 * cnt) then none
    else (parseExt n (ws.drop (len - 1))).map fun r => (ty, cnt, ws.take (len - 1)) :: r

/-- The extensions of a frame whose words fill its header (HLEN counts 9 base words and these). -/
def frameExt (f : Frame) : Option (List (Nat × Nat × List Word)) :=
  if 9 ≤ f.hlen.toNat && f.hlen.toNat ≤ 16 && f.ext.length + 9 = f.hlen.toNat then parseExt 8 f.ext else none

/-- The received ranges [START, END) that SACK reports (R79). -/
def sackBlocks (f : Frame) : List (BitVec 32 × BitVec 32) :=
  let rec pairs : List Word → List (BitVec 32 × BitVec 32)
    | a :: b :: r => (a, b) :: pairs r
    | _ => []
  if has f fSack then
    match frameExt f with
    | some l => l.flatMap fun e => if e.1 = 1 then pairs e.2.2 else []
    | none => []
  else []

/-- The words of the twin extension (EXT_TYPE 0x02) and its opening word's COUNT field, if the frame has one. -/
def twinExt (f : Frame) : Option (Nat × List Word) :=
  match frameExt f with
  | some l => (l.find? fun e => e.1 = 2).map fun e => (e.2.1, e.2.2)
  | none => none

/-! ### Addresses -/

/-- ADDR[63:48], the device number (R102). -/
def devOf (a : Nat) : Nat := a / 2 ^ 48

/-- ADDR[47:0], the offset. -/
def offOf (a : Nat) : Nat := a % 2 ^ 48

/-- An identity as TENANT[31:20], AGENT[19:7]. -/
def identOf (tenant agent : Nat) : Nat := tenant * 2 ^ 20 + agent * 2 ^ 7

/-! ### Frames the device forms -/

/-- The response to a request: its TYPE with RESP, its OP_ID and ADDR, the status and the payload (R81). -/
def respFrame (req : Frame) (st : Status) (payload : List Byte) : Frame :=
  { ty := req.ty, flags := BitVec.twoPow 12 fResp, tenant := req.tenant, agent := req.agent, opId := req.opId,
    addr := req.addr, len := BitVec.ofNat 16 payload.length, status := BitVec.ofNat 8 st.code, payload := payload }

/-- A HELLO's payload: SENT_TIME and ECHO_TIME (Table 3-5). -/
def helloPayload (sent echo : Nat) : List Byte := beBytes 8 sent ++ beBytes 8 echo

end Sys2Proof.Machine
end

