-- ==== Sys2Proof/Machine/Transport.lean ====
section
/-! DEFINITION. Ports, lock groups, and the sending side of the transport (03_ports_transport.md): what leaves a port,
paths, acknowledgement, retransmission, congestion windows, and responses. -/

namespace Sys2Proof.Machine

/-! ### Ports and lock groups (R65 to R75) -/

def State.portSt (s : State) (p : Nat) : PortSt := s.net.ports.getD p { }

def State.onPort (s : State) (p : Nat) (f : PortSt → PortSt) : State :=
  s.onNet fun n => { n with ports := n.ports.put p (f (n.ports.getD p { })) }

/-- Whether a port of this number exists on the device. -/
def State.hasPort (s : State) (p : Nat) : Bool := decide (p < 40) && s.present (portPage p)

/-- PORT_CTRL.ROLE: 0 command, 1 client, 2 twin. -/
def State.role (s : State) (p : Nat) : Nat := s.reg (Reg.portPortCtrl (portPage p)) % 4

/-- PORT_CTRL.RATE: 0 for 800G, 1 for 400G, 2 for 200G. -/
def State.rateOf (s : State) (p : Nat) : Nat := bits (s.reg (Reg.portPortCtrl (portPage p))) 5 4

/-- PORT_CTRL.DEGRADE_EN. -/
def State.degrade (s : State) (p : Nat) : Bool := bit (s.reg (Reg.portPortCtrl (portPage p))) 6

/-- A port's own IPv6 address. -/
def State.portIp (s : State) (p : Nat) : BitVec 128 := s.ip (Reg.portPortIp (portPage p))

/-- A lock group's IPv6 address. -/
def State.lgIp (s : State) (g : Nat) : BitVec 128 := s.ip (Reg.lgLgIp (0x2100 + g))

/-- The lock group of which a port is a member. -/
def State.groupOf (s : State) (p : Nat) : Option Nat := (List.range 20).find? fun g => (s.lgMembers g).contains p

def State.groupSt (s : State) (g : Nat) : GroupSt := s.net.groups.getD g { }

def State.onGroup (s : State) (g : Nat) (f : GroupSt → GroupSt) : State :=
  s.onNet fun n => { n with groups := n.groups.put g (f (n.groups.getD g { })) }

/-- The active members of a lock group (R73), ascending. -/
def State.lgActive (s : State) (g : Nat) : List Nat :=
  (s.lgMembers g).filter fun p => (s.portSt p).up && !(s.groupSt g).removed.contains p

/-- The active set of a group has changed: the rotation of its paths restarts (R75). -/
def State.restartRotation (s : State) (g : Nat) : State :=
  let ip := s.lgIp g
  s.onNet fun n => { n with conns := n.conns.map fun (i, c) =>
    (i, { c with paths := c.paths.map fun (j, q) => (j, if q.dip = ip then { q with rot := 0 } else q) }) }

/-- A counter of a drilled port has counted: DRILL_EFFECTS counts it as well (R456). -/
def State.drillCount (s : State) (p : Nat) : State := s.when (s.portDrilled p) fun s => s.bump Reg.drDrillEffects

/-- Remove a member from its group (R74): counted, its BUFFER source raised, the rotation restarted. -/
def State.removeMember (s : State) (g p : Nat) : State :=
  if (s.groupSt g).removed.contains p then s
  else
    let s := s.onGroup g fun x => { x with removed := p :: x.removed, upSince := x.upSince.put p s.ran }
    let s := (s.bump (Reg.lgLgRemovals (0x2100 + g))).drillCount p
    (s.raise (16 + 4 * p + 3)).restartRotation g

/-- The lanes that a rate uses when the good lanes allow it (R71): the rate and its lanes. -/
def widest (good : BitVec 4) (rate : Nat) : Option (Nat × BitVec 4) :=
  if rate = 0 && good = 15 then some (0, 15)
  else if rate ≤ 1 && good &&& 3 = 3 then some (1, 3)
  else if rate ≤ 1 && good &&& 12 = 12 then some (1, 12)
  else if good.getLsbD 0 then some (2, 1)
  else if good.getLsbD 1 then some (2, 2)
  else if good.getLsbD 2 then some (2, 4)
  else if good.getLsbD 3 then some (2, 8)
  else none

/-- No full service since the last reset: the ports that come up do so at 200G on lane 0 (R95). -/
def State.narrow (s : State) : Bool := s.boot.service = .greyscale || (s.boot.service = .darkHold && !s.boot.entered)

/-- The rate and lanes at which a port trains now: 200G on lane 0 before full service (R95), else its configured rate
or, with DEGRADE_EN, the widest that its healthy lanes allow (R71). -/
def State.trainRate (s : State) (p : Nat) : Option (Nat × BitVec 4) :=
  let good := (s.portSt p).lanesGood
  if s.narrow then
    (if good.getLsbD 0 then some (2, 1) else none)
  else
    let want := s.rateOf p
    match widest good want with
    | none => none
    | some (r, l) => if r = want || s.degrade p then some (r, l) else none

/-- A port's link goes down (R70): LINK_UP 0, the LINK source (a level, from downAt), the count, training restarted. A loss
of link during a retraining of R408 is declared as well (R95). -/
def State.declareDown (s : State) (p : Nat) : State :=
  if (s.portSt p).up || (s.portSt p).retraining then
    let s := s.onPort p fun q => { q with up := false, lanes := 0, training := true, tried := q.retraining,
                                          retraining := false, downAt := some s.ran }
    let s := (s.bump (Reg.portLinkDowns (portPage p))).drillCount p
    match s.groupOf p with
    | some g => s.removeMember g p
    | none => s
  else s

/-- Take a link down and train it again without a link-down declaration. A retraining under R408 is exempt: it counts no time
and raises no LINK source (R95); any other (a unit reset, a commit of PORT_CTRL, the end of a drill) leaves a link that is
down (R97, R99; log entry 72). -/
def State.retrain (s : State) (p : Nat) (exempt : Bool) : State :=
  let wasUp := (s.portSt p).up
  let s := s.onPort p fun q => { q with
    up := false, lanes := 0, training := !q.serviceDown, tried := false, retraining := exempt || q.retraining,
    downAt := if exempt || q.serviceDown || !(q.up || q.downAt.isSome) then none else some s.ran }
  match s.groupOf p with
  | some g => s.when wasUp fun s => s.removeMember g p
  | none => s

/-- The time for which a link is down up to now, as far as LINK_DOWN_NS counts it (R95). -/
def PortSt.downFor (q : PortSt) (now : Nat) : Nat := q.downAt.elim 0 (now - ·)

/-- The time down of a port is added to LINK_DOWN_NS and counts no further (R95). -/
def State.endDown (s : State) (p : Nat) : State :=
  (s.when (s.portSt p).downAt.isSome fun s => s.bump64 (Reg.portLinkDownNs (portPage p)) ((s.portSt p).downFor s.ran)).onPort p
    fun q => { q with downAt := none }

/-- A port's training completes (R70, R71): the link is up at the rate its lanes allow, and the time down is added. A width
that degradation or the return from it changes counts (R71); a member that has not been removed adds itself to the active
set of its group (R73, R75). -/
def State.linkUp (s : State) (p : Nat) : State :=
  match s.trainRate p with
  | none => s
  | some (r, l) =>
    let q := s.portSt p
    let short := r != s.rateOf p
    let changed := !s.narrow && (q.degraded || short) && q.wide.getD (s.rateOf p) != r
    let s := s.endDown p
    let wide := if s.narrow then q.wide else some r
    let degraded := if s.narrow then q.degraded else short
    let s := s.onPort p fun q => { q with up := true, rate := r, lanes := l, training := false, tried := false,
                                          retraining := false, wide := wide, degraded := degraded }
    let s := s.when changed fun s => ((s.raise (16 + 4 * p + 1)).bump (Reg.portLaneFaults (portPage p))).drillCount p
    match s.groupOf p with
    | some g =>
      let s := s.onGroup g fun x => { x with upSince := x.upSince.put p s.ran }
      s.when (!(s.groupSt g).removed.contains p) fun s => s.restartRotation g
    | none => s

/-! ### What leaves a port -/

/-- Every ONE_INth frame of a FRAME_DROP drill is dropped (Table 15-7): DIR 0 receive, 1 transmit. -/
def State.drillDrop (s : State) (p dir : Nat) : Bool × State :=
  let d := s.drill
  let aims := d.page = portPage p || (match s.groupOf p with
    | some g => d.page == 0x2100 + g
    | none => false)
  if d.st = .active ∧ d.kind = 5 ∧ d.arg % 2 = dir ∧ aims then
    let n := d.frames + 1
    let s := s.onDrill fun d => { d with frames := n }
    if n % (d.arg / 2) = 0 then (true, s.bump Reg.drDrillEffects) else (false, s)
  else (false, s)

/-- A TWIN_SILENCE drill runs and this is a twin port (Table 15-7). -/
def State.twinMuted (s : State) (p : Nat) : Bool :=
  s.drill.st = .active && s.drill.kind = 7 && s.role p = 2

/-- Key of a security association: port, direction (0 receive, 1 transmit), association number. -/
def saKey (p dir an : Nat) : Nat := p * 8 + dir * 4 + an

/-- Take the packet number of the next protected frame on a port (Table 3-2); none when MACsec is on and no transmit
association is installed. -/
def State.protect (s : State) (p : Nat) : Option State :=
  let ctrl := s.reg (Reg.portMacsecCtrl (portPage p))
  if bit ctrl 0 then
    let k := saKey p 1 (bits ctrl 5 4)
    match s.net.sas.get? k with
    | some sa => some (s.onNet fun n => { n with sas := n.sas.put k { sa with pn := sa.pn + 1 } })
    | none => none
  else some s

/-- JMT_UDP_PORT. -/
def State.udpPort (s : State) : BitVec 16 := BitVec.ofNat 16 (s.reg Reg.pgJmtUdpPort)

/-- Put a frame on the wire of a port, from a source port to JMT_UDP_PORT (R76): nothing leaves a port that is not up or
that a drill mutes; a protected port without a transmit association sends nothing (log entry 13). -/
def State.emitRaw (s : State) (p : Nat) (dst : BitVec 128) (sport : BitVec 16) (f : Frame) : State :=
  let dport := s.udpPort
  if (s.portSt p).up && !s.twinMuted p then
    let (drop, s) := s.drillDrop p 1
    if drop then s
    else match s.protect p with
      | none => s
      | some s => (s.bump64 (Reg.portTxFrames (portPage p))).onNet fun n => { n with sent := n.sent ++ [.jmt p dst sport dport f] }
  else s

/-- Send a frame that carries the device's incarnation (Table 3-3). -/
def State.emit (s : State) (p : Nat) (dst : BitVec 128) (sport : BitVec 16) (f : Frame) : State :=
  s.emitRaw p dst sport { f with incarn := s.boot.incarn }

/-! ### Connections and paths -/

def State.conn? (s : State) (c : Nat) : Option Conn := s.net.conns.get? c

def State.onConn (s : State) (c : Nat) (f : Conn → Conn) : State :=
  s.onNet fun n => { n with conns := n.conns.update c f }

def State.onPath (s : State) (c n : Nat) (f : PathSt → PathSt) : State :=
  s.onConn c fun k => { k with paths := k.paths.update n f }

/-- The retransmission timeout of a path: max(50 us, SRTT + 4 RTTVAR) (R88). -/
def rtoOf (q : PathSt) : Nat := max 50000 (q.srtt + 4 * q.rttvar)

/-- Bytes of a frame's header and payload. -/
def frameBytes (f : Frame) : Nat := 4 * f.hlen.toNat + f.payload.length

/-- Bytes of a connection in flight on a path. -/
def Conn.inFlight (c : Conn) (n : Nat) : Nat :=
  (c.unacked.vals.filter (·.path = n)).foldl (fun a e => a + frameBytes e.f) 0

/-- The live path with the most free congestion window, the lowest number on a tie (R87); one path is passed over
where another is live. -/
def Conn.bestPath (c : Conn) (avoid : Option Nat) : Option Nat :=
  let live := c.paths.filter fun e => e.2.live
  let free (n : Nat) (q : PathSt) : Int := (q.cwnd : Int) - (c.inFlight n : Int)
  let pick (l : List (Nat × PathSt)) : Option Nat :=
    (l.foldl (fun (b : Option (Nat × Int)) e =>
      match b with
      | none => some (e.1, free e.1 e.2)
      | some (n, w) => if w < free e.1 e.2 then some (e.1, free e.1 e.2) else some (n, w)) none).map (·.1)
  match pick (live.filter fun e => some e.1 != avoid) with
  | some n => some n
  | none => pick live

/-- The lock group whose address a path names, if any. -/
def State.pathGroup (s : State) (q : PathSt) : Option Nat :=
  (List.range 20).find? fun g => !(s.lgMembers g).isEmpty && s.lgIp g = q.dip

/-- The port that the next frame of a path leaves: the path's own, or the active member of the group in rotation
(R73). -/
def State.outPort (s : State) (q : PathSt) : Option Nat :=
  match s.pathGroup q with
  | some g =>
    let a := s.lgActive g
    if a.isEmpty then none else a[q.rot % a.length]?
  | none => some q.port

/-- Put a frame on a path of a connection: ECE echoed while CE has been seen there and CWR is awaited; CWR on the first
frame after a reduction (R89). -/
def State.sendOnPath (s : State) (c n : Nat) (f : Frame) : State :=
  match s.conn? c with
  | none => s
  | some k => match k.paths.get? n with
    | none => s
    | some q => match s.outPort q with
      | none => s
      | some p =>
        let f := flagIf q.echoEce fEce (flagIf q.sendCwr fCwr { f with path := BitVec.ofNat 8 n })
        let s := s.onPath c n fun q => { q with rot := q.rot + 1, sendCwr := false }
        s.emit p q.aip (Config.sourcePort c n) f

/-- Frames received beyond a gap, as ranges [START, END) of at most three SACK blocks, one on the
twin connection (R79, R381). -/
def Conn.sackRanges (c : Conn) : List (BitVec 32 × BitVec 32) :=
  let near := (List.range 256).filter fun d => (c.rxHeld.get? (c.rxNext + BitVec.ofNat 32 d).toNat).isSome
  let ranges := near.foldl (fun (l : List (Nat × Nat)) d =>
    match l with
    | (a, b) :: r => if b = d then (a, d + 1) :: r else (d, d + 1) :: (a, b) :: r
    | [] => [(d, d + 1)]) []
  (ranges.reverse.take (if c.agent = 8192 then 1 else 3)).map fun (a, b) => (c.rxNext + BitVec.ofNat 32 a, c.rxNext + BitVec.ofNat 32 b)

/-- ACK_VALID and, where frames are missing, SACK (R85). -/
def Conn.withAck (c : Conn) (f : Frame) : Frame :=
  let f := withFlag { f with ack := c.rxNext } fAckValid
  let r := c.sackRanges
  if r.isEmpty then f
  else
    let w := BitVec.ofNat 32 (0x01000000 + (1 + 2 * r.length) * 0x10000 + r.length)
    withFlag { f with hlen := f.hlen + BitVec.ofNat 8 (1 + 2 * r.length),
                      ext := f.ext ++ w :: r.flatMap fun (a, b) => [a, b] } fSack

/-- The number under which the twin connection stands: 0x00_0001 in a space of its own (R378). Its identity is none that an
agent can have, since its frames carry the identity of the operation they are about (R381). -/
def twinConn : Nat := 2 ^ 24 + 1

/-- The header of a frame of a connection: its number and the agent's identity. -/
def Conn.stamp (c : Conn) (n : Nat) (f : Frame) : Frame :=
  if n = twinConn then { f with conn := 1 }
  else { f with conn := BitVec.ofNat 24 n, tenant := BitVec.ofNat 12 c.tenant, agent := BitVec.ofNat 13 c.agent }

/-- Send a sequenced frame (R85, R87): it takes the next SEQ, it carries the acknowledgement, and it is kept until
it is acknowledged. With no live path it waits for its RTO (log entry 14). -/
def State.sendSeq (s : State) (c : Nat) (f : Frame) : State :=
  match s.conn? c with
  | none => s
  | some k =>
    let f := k.withAck (k.stamp c { f with seq := k.txNext })
    let n := (k.bestPath none).getD k.joinPath
    let q := k.paths.getD n { }
    let e : TxEntry := { f := f, path := n, time := s.ran, rto := rtoOf q, once := true }
    let live := (k.bestPath none).isSome
    let s := s.onConn c fun k => { k with txNext := k.txNext + 1, unacked := k.unacked.put k.txNext.toNat e,
                                          unackedCount := 0, unackedSince := none }
    if live then s.sendOnPath c n f else s

/-- Send an UNSEQ frame on a path. -/
def State.sendUnseq (s : State) (c n : Nat) (f : Frame) : State :=
  match s.conn? c with
  | none => s
  | some k => s.sendOnPath c n (withFlag (k.stamp c f) fUnseq)

/-- A HELLO that carries an acknowledgement (R85, R86): PROBE 0, ECHO_TIME 0. -/
def State.sendAck (s : State) (c n : Nat) : State :=
  match s.conn? c with
  | none => s
  | some k =>
    let f := k.withAck { ty := 0x53, len := 16, payload := helloPayload s.now 0 }
    let s := s.onConn c fun k => { k with unackedCount := 0, unackedSince := none }
    s.sendUnseq c n f

/-- A probe on a path (R86). -/
def State.sendProbe (s : State) (c n : Nat) : State :=
  s.sendUnseq c n (withFlag { ty := 0x53, len := 16, payload := helloPayload s.now 0 } fProbe)

/-! ### Responses (R80, R85) -/

/-- Whether some operation of a command of the connection has not completed. -/
def Conn.cmdBusy (c : Conn) (cmd : Nat) : Bool := c.ops.any fun o => o.cmd = cmd && o.resp.isNone

/-- Send the held response of a command whose operations have all completed (R80). -/
def State.releaseCmd (s : State) (c cmd : Nat) : State :=
  match s.conn? c with
  | none => s
  | some k =>
    if k.cmdBusy cmd then s
    else
      let due := (k.ops.filter fun o => o.cmd = cmd && o.held).filterMap (·.resp)
      let s := s.onConn c fun k => { k with ops := k.ops.map fun o => if o.cmd = cmd then { o with held := false } else o }
      due.foldl (fun s f => s.sendSeq c f) s

/-- The answer to an admitted operation is formed: it is kept for a duplicate (R85), it waits while it ends a command
whose other operations run (R80), and it is discarded once the connection is no longer OPEN or LEAVING (R90). -/
def State.answer (s : State) (c : Nat) (req f : Frame) : State :=
  match s.conn? c with
  | none => s
  | some k =>
    match k.ops.find? (·.opId = req.opId) with
    | none => s
    | some o =>
      let alive := k.st = .openC || k.st = .leaving
      let f := k.stamp c f
      let others := k.ops.any fun x => x.cmd = o.cmd && x.resp.isNone && x.opId != req.opId
      let hold := alive && has req fCmdEnd && others
      let s := s.onConn c fun k => { k with ops := k.ops.map fun x =>
        if x.opId = req.opId then { x with resp := some f, held := hold, acked := !alive } else x }
      let s := if alive && !hold then s.sendSeq c f else s
      s.releaseCmd c o.cmd

/-- Answer a request with a status and a payload. -/
def State.respond (s : State) (c : Nat) (req : Frame) (st : Status) (payload : List Byte := []) : State :=
  s.answer c req (respFrame req st payload)

/-! ### Acknowledgements taken (R85, R88, R89) -/

/-- A round-trip sample (R88; the first sample sets SRTT and half of it RTTVAR, log entry 15). -/
def PathSt.sample (q : PathSt) (r : Nat) : PathSt :=
  if q.sampled then
    { q with rttvar := (3 * q.rttvar + (if q.srtt < r then r - q.srtt else q.srtt - r)) / 4, srtt := (7 * q.srtt + r) / 8 }
  else { q with srtt := r, rttvar := r / 2, sampled := true }

/-- Whether SEQ a comes before b, modulo 2^32. -/
def seqBefore (a b : BitVec 32) : Bool := a != b && decide ((b - a).toNat < 2 ^ 31)

/-- Send a kept frame again (R88): on another live path where one exists, with RETX and the ACK and
SACK fields that it had (log entry 73). -/
def State.resend (s : State) (c : Nat) (seq : BitVec 32) : State :=
  match s.conn? c with
  | none => s
  | some k => match k.unacked.get? seq.toNat with
    | none => s
    | some e => match k.bestPath (some e.path) with
      | none => s
      | some n =>
        let f := withFlag e.f fRetx
        let e2 := { e with f := f, path := n, time := s.ran, once := false }
        let s := s.onConn c fun k => { k with unacked := k.unacked.put seq.toNat e2 }
        (s.bump Reg.pgRetxSent).sendOnPath c n f

/-- One kept frame is acknowledged by a frame that came on path n with or without ECE. -/
def State.ackOne (s : State) (c n : Nat) (ece : Bool) (e : TxEntry) : State :=
  let s := s.onConn c fun k => { k with
    unacked := k.unacked.del e.f.seq.toNat,
    ops := k.ops.map fun o => match o.resp with
      | some r => if r.opId = e.f.opId && r.ty = e.f.ty && !o.held then { o with acked := true } else o
      | none => o }
  s.onPath c e.path fun q =>
    let q := { q with lastAcked := s.ran, ackedAll := q.ackedAll + 1,
                      ackedEce := q.ackedEce + b2n (ece && e.path = n) }
    if e.once then q.sample (s.ran - e.time) else q

/-- Take the acknowledgement that an arriving frame carries. -/
def State.takeAck (s : State) (c n : Nat) (f : Frame) : State :=
  match s.conn? c with
  | none => s
  | some k =>
    if has f fAckValid then
      let blocks := sackBlocks f
      let isAcked (q : BitVec 32) : Bool :=
        seqBefore q f.ack || blocks.any fun (a, b) => (q = a || seqBefore a q) && seqBefore q b
      let (got, left) := k.unacked.vals.partition fun e => isAcked e.f.seq
      let s := got.foldl (fun s e => s.ackOne c n (has f fEce) e) s
      let again := left.filter fun e => !blocks.isEmpty && got.any fun g => g.path = e.path && seqBefore e.f.seq g.f.seq
      again.foldl (fun s e => s.resend c e.f.seq) s
    else s

/-! ### Rows: links (R70 to R75) -/

/-- LINK_DOWN: a link that is up goes down; the training of one that is not up has failed, and starts again. -/
def execLinkDownCore (port : Nat) (s : State) : State :=
  if !s.hasPort port then s
  else if (s.portSt port).up || (s.portSt port).retraining then s.declareDown port
  else s.onPort port fun q => { q with tried := q.tried || q.training }

/-- LANE_FAULT: the lanes that kept block lock; the LANE source for the loss; a link that used a lost lane goes down
and retrains, at the widest rate its lanes allow where DEGRADE_EN is set. -/
def execLaneFaultCore (port : Nat) (lanesOk : BitVec 4) (s : State) : State :=
  if s.hasPort port then
    let q := s.portSt port
    let lanesOk := if s.portDrilled port && s.drill.kind = 3 then lanesOk &&& ~~~ BitVec.twoPow 4 (s.drill.arg % 4) else lanesOk
    let s := s.onPort port fun q => { q with lanesGood := lanesOk }
    let lost := q.lanes &&& ~~~ lanesOk
    if q.up && lost != 0 then (s.raise (16 + 4 * port + 1)).declareDown port else s
  else s

/-- LINK_TRAINED: training of a port that its service state lets come up completes. -/
def execLinkTrainedCore (port : Nat) (s : State) : State :=
  let q := s.portSt port
  let held := s.portDrilled port && s.drill.kind = 4
  if s.hasPort port && q.training && !q.serviceDown && !held && s.enabled (portPage port) then s.linkUp port else s

/-- MEMBER_REJOIN: a removed member whose link has been up for 10 ms rejoins (R74, R75). -/
def execMemberRejoinCore (group port : Nat) (s : State) : State :=
  let g := s.groupSt group
  if g.removed.contains port && (s.portSt port).up && s.since (g.upSince.getD port 0) 10000000 then
    (s.onGroup group fun x => { x with removed := x.removed.filter (· != port) }).restartRotation group
  else s

/-- The information of the LLDP TLV (R69). -/
def State.lldpInfo (s : State) (p : Nat) : List Byte :=
  beBytes 2 s.device ++ beBytes 1 p ++ beBytes 1 (s.role p) ++ beBytes 1 s.boot.incarn.toNat ++
  beBytes 1 (match s.boot.order with
    | .a => 0
    | .b => 1
    | .c => 2) ++
  beBytes 1 (match s.boot.service with
    | .greyscale => 1
    | .darkHold => 2
    | .full => 3) ++
  beBytes 1 ((s.groupOf p).getD 0xFF) ++ beBytes 2 s.udpPort.toNat ++ [0#8, 0#8]

/-- LLDP_TRANSMIT: with LLDP_CTRL.EN, once per TX_INTERVAL seconds. -/
def execLldpTransmitCore (port : Nat) (s : State) : State :=
  let ctrl := s.reg (Reg.portLldpCtrl (portPage port))
  if s.hasPort port && (s.portSt port).up && bit ctrl 0 && decide ((s.portSt port).nextLldp ≤ s.ran) then
    let s := s.onPort port fun q => { q with nextLldp := s.ran + bits ctrl 15 8 * 1000000000 }
    s.onNet fun n => { n with sent := n.sent ++ [.lldp port Config.lldpOui 0x01 (s.lldpInfo port)] }
  else s

/-! ### Rows: MACsec associations and join keys (R98, R101) -/

/-- SA_INSTALL: the association of SA_SEL with PN 1. -/
def execSaInstallCore (port : Nat) (s : State) : State :=
  if s.hasPort port then
    let pg := portPage port
    let sel := s.reg (Reg.portSaSel pg)
    let salt := (s.reg (Reg.portSalt pg) * 2 ^ 32 + s.reg (Reg.portSalt pg + 4)) * 2 ^ 32 + s.reg (Reg.portSalt pg + 8)
    let sa : SecAssoc := { sak := s.key256 (Reg.portSak pg), salt := BitVec.ofNat 96 salt,
                           ssci := BitVec.ofNat 32 (s.reg (Reg.portSsci pg)), pn := 1 }
    s.onNet fun n => { n with sas := n.sas.put (saKey port (b2n (bit sel 8)) (sel % 4)) sa }
  else s

/-- SA_RETIRE: the association of SA_SEL is erased. -/
def execSaRetireCore (port : Nat) (s : State) : State :=
  if s.hasPort port then
    let sel := s.reg (Reg.portSaSel (portPage port))
    s.onNet fun n => { n with sas := n.sas.del (saKey port (b2n (bit sel 8)) (sel % 4)) }
  else s

/-- JOIN_KEY_INSTALL with INSTALL. -/
def joinKeyInstallOp (s : State) : State :=
  let t := s.reg Reg.pgJoinKeyTenant % 4096
  s.onNet fun n => { n with joinKeys := n.joinKeys.put t (s.key256 Reg.pgJoinKey) }

/-- JOIN_KEY_INSTALL with ERASE: tenant 0's key returns to the fused value. -/
def joinKeyEraseOp (s : State) : State :=
  let t := s.reg Reg.pgJoinKeyTenant % 4096
  s.onNet fun n => { n with joinKeys := if t = 0 then n.joinKeys.put 0 Config.fusedJoinKey else n.joinKeys.del t }

/-! ### Rows: timers of a connection (R85 to R90) -/

/-- The path on which the device sends an acknowledgement or the like: the best live one. -/
def State.anyPath (s : State) (c : Nat) : Nat :=
  match s.conn? c with
  | some k => (k.bestPath none).getD k.joinPath
  | none => 0

/-- ACK_TIMER: 2 us since receipt. -/
def execAckTimerCore (conn : Nat) (s : State) : State :=
  match s.conn? conn with
  | some k => match k.unackedSince with
    | some t => if s.since t 2000 then s.sendAck conn (s.anyPath conn) else s
    | none => s
  | none => s

/-- Whether a connection sends and is probed: OPEN or LEAVING. -/
def Conn.active (k : Conn) : Bool := k.st = .openC || k.st = .leaving

/-- PROBE_TIMER: a live path without an acknowledged frame for 25 us, and no probe outstanding on it. -/
def execProbeTimerCore (conn path : Nat) (s : State) : State :=
  match s.conn? conn with
  | some k => match k.paths.get? path with
    | some q =>
      if k.active && q.live && q.probeAt.isNone && s.since q.lastAcked 25000 then
        (s.onPath conn path fun q => { q with probeAt := some s.ran }).sendProbe conn path
      else s
    | none => s
  | none => s

/-- PROBE_LOST: 25 us without an answer; the third in a row drops the path. -/
def execProbeLostCore (conn path : Nat) (s : State) : State :=
  match s.conn? conn with
  | some k => match k.paths.get? path with
    | some q => match q.probeAt with
      | some t =>
        if q.live && s.since t 25000 then
          s.onPath conn path fun q =>
            if q.lost + 1 < 3 then { q with probeAt := none, lost := q.lost + 1 }
            else { q with probeAt := none, lost := 0, live := false, droppedAt := some s.ran }
        else s
      | none => s
    | none => s
  | none => s

/-- REPROBE: 10 ms after a path was dropped or last probed. -/
def execReprobeCore (conn path : Nat) (s : State) : State :=
  match s.conn? conn with
  | some k => match k.paths.get? path with
    | some q => match q.droppedAt with
      | some t =>
        if k.active && !q.live && s.since t 10000000 then
          (s.onPath conn path fun q => { q with droppedAt := some s.ran }).sendProbe conn path
        else s
      | none => s
    | none => s
  | none => s

/-- RTO_EXPIRY: the frame is sent again, its RTO doubled up to 4 ms, its path's window cut to 4,352 bytes (R88, R89). -/
def execRtoExpiryCore (conn : Nat) (seq : BitVec 32) (s : State) : State :=
  match s.conn? conn with
  | some k => match k.unacked.get? seq.toNat with
    | some e =>
      if k.active && s.since e.time e.rto then
        let s := s.onPath conn e.path fun q => { q with cwnd := 4352, sendCwr := true }
        let e2 := { e with rto := min (2 * e.rto) 4000000, time := s.ran }
        let s := s.onConn conn fun k => { k with unacked := k.unacked.put seq.toNat e2 }
        s.resend conn seq
      else s
    | none => s
  | none => s

/-- CWND_UPDATE: once per round-trip time (R89); a cut window is rounded down to whole bytes (log entry 16). -/
def execCwndUpdateCore (conn path : Nat) (s : State) : State :=
  match s.conn? conn with
  | some k => match k.paths.get? path with
    | some q =>
      if k.active && q.sampled && s.since q.roundAt q.srtt then
        s.onPath conn path fun q =>
          let fr : Rat := if q.ackedAll = 0 then 0 else (q.ackedEce : Rat) / (q.ackedAll : Rat)
          let al := q.alpha + (fr - q.alpha) / 16
          let cut := q.eceSeen || q.ackedEce != 0
          let w := if cut then ((q.cwnd : Rat) * (1 - al / 2)).floor.toNat else q.cwnd + 4352
          { q with alpha := al, cwnd := min (max w 4352) (4 * 1024 * 1024), sendCwr := q.sendCwr || cut,
                   ackedAll := 0, ackedEce := 0, eceSeen := false, roundAt := s.ran }
      else s
    | none => s
  | none => s

/-- KEEPALIVE: every 1 ms a HELLO on each live path. -/
def execKeepaliveCore (conn : Nat) (s : State) : State :=
  match s.conn? conn with
  | some k =>
    if k.active && conn != twinConn && s.since k.lastKeep 1000000 then
      let live := (k.paths.filter fun e => e.2.live).map (·.1)
      live.foldl (fun s n => s.sendAck conn n) (s.onConn conn fun k => { k with lastKeep := s.ran })
    else s
  | none => s

end Sys2Proof.Machine
end

