-- ==== Sys2Proof/Machine/Store.lean ====
section
/-! DEFINITION. The store (04_store_tiers.md): windows, extents and their admission checks, quotas, the two media and
their line codes, and the tiles of Blended regions. -/

namespace Sys2Proof.Machine

/-! ### Windows and sizes (R102 to R106) -/

/-- Windows of the store map (Table 4-1). -/
inductive Window where
  | near | bulk | blended | reserved
  deriving DecidableEq, Repr

/-- The window of an offset. -/
def windowOf (off : Nat) : Window :=
  if off < 2 ^ 40 then .near
  else if off < 2 ^ 44 then .bulk
  else if off < 2 ^ 47 then .blended
  else .reserved

/-- The extent index of an offset (R102). -/
def extentOf (off : Nat) : Nat := off / 2 ^ 30

/-- The lines of a range. -/
def linesOf (off len : Nat) : List Nat :=
  let first := off / 64
  (List.range ((off + len - 1) / 64 + 1 - first)).map (first + ·)

/-- The tile of an offset: 64 KiB, aligned. -/
def tileOf (off : Nat) : Nat := off / 65536

/-- The stacks that the near tier uses: those of N once it has trained, the present ones before (R106, R107). -/
def State.stacks (s : State) : List Nat :=
  if s.store.nearList.isEmpty && s.boot.step != .near && s.boot.step != .bulk then
    (List.range 8).filter fun n => s.present (nearPage n)
  else s.store.nearList

/-- NEAR_EXTENTS (R105). -/
def State.nearExtents (s : State) : Nat := s.stacks.length * 80000000000 / 2 ^ 30 - 4

/-- Capacity that each channel of BULK_MAP contributes, in bytes: that of the smallest (R109). -/
def State.bulkShare (s : State) : Nat :=
  match s.store.bulkMap with
  | [] => 0
  | c :: cs => cs.foldl (fun m d => min m (s.store.bulk.getD d { }).capacity) (s.store.bulk.getD c { }).capacity

/-- BULK_EXTENTS (R105): 0 until the bulk tier has trained. -/
def State.bulkExtents (s : State) : Nat := s.store.bulkMap.length * s.bulkShare / 2 ^ 30

/-- Extents of the near-tier placed window (Table 4-8 NEAR_PLACED). -/
def State.nearPlaced (s : State) : Nat :=
  let r := s.reg Reg.tmNearPlaced
  if bit r 31 then s.nearExtents else min (bits r 9 0) s.nearExtents

/-- Extents of the bulk-tier placed window (BULK_PLACED). -/
def State.bulkPlaced (s : State) : Nat :=
  let r := s.reg Reg.tmBulkPlaced
  if bit r 31 then s.bulkExtents else min (bits r 12 0) s.bulkExtents

/-- Whether an offset lies where R103 serves accesses. -/
def State.placed (s : State) (off : Nat) : Bool :=
  match windowOf off with
  | .near => off < s.nearPlaced * 2 ^ 30
  | .bulk => off < 2 ^ 40 + s.bulkPlaced * 2 ^ 30
  | .blended => true
  | .reserved => false

/-- Whether a tier extent backs an extent (R114): a Blended extent needs none. -/
def State.backed (s : State) (e : Nat) : Bool := e < 131072 && s.placed (e * 2 ^ 30)

/-- The window checks of R103 for an access of len bytes. -/
def State.windowCheck (s : State) (off len : Nat) : Option Status :=
  if !s.placed off then some .notPresent
  else if 2 ^ 30 < off % 2 ^ 30 + len then some .unsupported
  else none

/-! ### Media (R106 to R111) -/

/-- Where the bytes of an offset lie. -/
inductive Medium where
  | none
  | near (a : Nat)
  | bulk (a : Nat)
  deriving DecidableEq, Repr

def State.tile (s : State) (t : Nat) : Tile :=
  match s.store.tiles.get? t with
  | some x => x
  | none => { policy := (s.store.extents.getD (t / 16384) { }).policy }

def State.extent (s : State) (e : Nat) : Extent := s.store.extents.getD e { }

def State.onExtent (s : State) (e : Nat) (f : Extent → Extent) : State :=
  s.onStore fun st => { st with extents := st.extents.put e (f (st.extents.getD e { })) }

def State.onTile (s : State) (t : Nat) (f : Tile → Tile) : State :=
  let x := f (s.tile t)
  s.onStore fun st => { st with tiles := st.tiles.put t x }

/-- The tier-relative address of an offset (R104, R106, Table 4-9). -/
def State.mediumOf (s : State) (off : Nat) : Medium :=
  match windowOf off with
  | .near => .near off
  | .bulk => .bulk (off - 2 ^ 40)
  | .blended =>
    let x := s.tile (tileOf off)
    match x.tier with
    | .unbacked => .none
    | .near => .near (x.location * 65536 + off % 65536)
    | .bulk => .bulk (x.location * 65536 + off % 65536)
    | .muted => .bulk (x.location * 4096)
  | .reserved => .none

/-- Where a tier-relative address lies among the channels of its tier: the channel, and the offset within it (R106). -/
def spreadOver (l : List Nat) (a : Nat) : Option (Nat × Nat) :=
  (l[(a / 4096) % l.length]?).map fun n => (n, a / 4096 / l.length * 4096 + a % 4096)

/-- The channel page that holds a tier-relative address, and the offset within the channel (R106). -/
def State.channelAt (s : State) (m : Medium) : Option (Nat × Nat) :=
  match m with
  | .none => none
  | .near a => (spreadOver s.stacks a).map fun x => (nearPage x.1, x.2)
  | .bulk a => (spreadOver s.store.bulkMap a).map fun x => (bulkPage x.1, x.2)

/-- The channel page that holds a tier-relative address (R106). -/
def State.channelOf (s : State) (m : Medium) : Option Nat := (s.channelAt m).map (·.1)

/-- The channel pages on which an access to an offset rests: every sector of a muted tile, since each of its bytes is
decoded from the whole (R127). -/
def State.channelsOf (s : State) (off : Nat) : List Nat :=
  let x := s.tile (tileOf off)
  if windowOf off = .blended && x.tier = .muted then
    ((List.range x.sectors).filterMap fun i => s.channelOf (.bulk ((x.location + i) * 4096))).eraseDups
  else (s.channelOf (s.mediumOf off)).toList

/-- Whether a channel page's medium is a near stack. -/
def isNearPage (page : Nat) : Bool := page % 0x400 < 0x30

/-- The event source of a channel page (R132). -/
def channelSource (page : Nat) : Nat :=
  if isNearPage page then 176 + 4 * ((page - 0x1000) / 0x400) + (page % 0x400 - 0x20)
  else 184 + 8 * ((page - 0x1000) / 0x400) + (page % 0x400 - 0x30)

/-- Bytes that the code of a channel corrects (Table 4-3). -/
def codeLimit (page : Nat) : Nat := if isNearPage page then 4 else 8

/-- The channel state of a channel page. -/
def State.channel (s : State) (page : Nat) : Channel :=
  if isNearPage page then s.store.near.getD (4 * ((page - 0x1000) / 0x400) + (page % 0x400 - 0x20)) { }
  else s.store.bulk.getD (8 * ((page - 0x1000) / 0x400) + (page % 0x400 - 0x30)) { }

/-- Whether the accesses that a channel's medium serves complete UNCORRECTABLE (R107, R109). -/
def State.channelDead (s : State) (page : Nat) : Bool := s.failed page || (s.channel page).lost

/-- Whether a channel of an offset has failed, so that its accesses complete UNCORRECTABLE (R107, R109). -/
def State.mediumFailed (s : State) (off : Nat) : Bool := (s.channelsOf off).any s.channelDead

/-- Whether a channel carries x4 devices (R110). -/
def Channel.narrow (c : Channel) : Bool := c.dimms.any fun d => d.width = 4

/-- Read one line of the store through its code (R110, R111): whether the data can be had, and what the read leaves.
Flaws come from drills alone, so DRILL_EFFECTS counts what they cause (R456). -/
def State.readLine (s : State) (line : Nat) : Bool × State :=
  let off := line * 64
  match s.channelOf (s.mediumOf off) with
  | none => (true, s)
  | some page =>
    if s.mediumFailed off then (false, s)
    else match s.store.flawed.get? line with
      | none => (true, s)
      | some fl =>
        let s := s.bump Reg.drDrillEffects
        if fl.syms ≤ codeLimit page then
          let s := s.bump (Reg.chCorrected page)
          let device := !isNearPage page && fl.syms = 8 && (s.channel page).narrow && Config.oneDevice line
          let s := s.when device fun s => s.bump (Reg.chDeviceCorr page)
          (true, s.onStore fun st =>
            { st with corrected := if st.corrected.contains line then st.corrected else st.corrected ++ [line] })
        else
          let s := (s.bump (Reg.chUncorrectable page)).setReg (Reg.chLastUeAddr page) off
          (false, s.raise (channelSource page) { status := Status.uncorrectable.code, arg0 := off, drill := true })

/-- A whole line is encoded afresh: its flaw ends (R111). -/
def State.freshLine (s : State) (line : Nat) : State :=
  s.onStore fun st => { st with flawed := st.flawed.del line, corrected := st.corrected.filter (· != line) }

/-! ### Quotas (R121) -/

def State.quota (s : State) (t : Nat) : Quota := s.store.quotas.getD t { }

def State.onQuota (s : State) (t : Nat) (f : Quota → Quota) : State :=
  s.onStore fun st => { st with quotas := st.quotas.put t (f (st.quotas.getD t { })) }

/-- The tenant of a tile's extent. -/
def State.tileTenant (s : State) (t : Nat) : Nat := (s.extent (t / 16384)).tenant

/-- Placed extents of a tenant between two indices. -/
def State.placedCount (s : State) (t lo hi : Nat) : Nat :=
  s.store.extents.count fun e x => lo ≤ e && e < hi && x.st != .free && x.tenant = t

/-- USE_NEAR of a tenant in 4 KiB units: placed extents, tiles, and frames that moves have claimed. -/
def State.useNear (s : State) (t : Nat) : Nat :=
  s.placedCount t 0 1024 * 262144 +
  16 * (s.store.tiles.count fun k x => x.tier = .near && s.tileTenant k = t) +
  16 * (s.store.moves.count fun k m => m.target = .near && s.tileTenant k = t)

/-- USE_BULK of a tenant in 4 KiB units, muted sectors included. -/
def State.useBulk (s : State) (t : Nat) : Nat :=
  s.placedCount t 1024 16384 * 262144 +
  16 * (s.store.tiles.count fun k x => x.tier = .bulk && s.tileTenant k = t) +
  16 * (s.store.moves.count fun k m => m.target = .bulk && s.tileTenant k = t) +
  (s.store.tiles.foldl (fun n (k, x) => if x.tier = .muted && s.tileTenant k = t then n + x.sectors else n) 0) +
  (s.store.moves.foldl (fun n (k, m) => if m.target = .muted && s.tileTenant k = t then n + m.sectors else n) 0)

/-- Whether n more 4 KiB units keep a tenant within its near quota; 0x000F_FFFF sets no limit. -/
def State.nearRoom (s : State) (t n : Nat) : Bool :=
  (s.quota t).near = 0xFFFFF || s.useNear t + n ≤ (s.quota t).near * 262144

/-- The same for the bulk quota. -/
def State.bulkRoom (s : State) (t n : Nat) : Bool :=
  (s.quota t).bulk = 0xFFFFF || s.useBulk t + n ≤ (s.quota t).bulk * 262144

/-! ### Frames (R104, Table 4-9) -/

/-- Search for room: the first aligned place from c on that overlaps no interval used, within fuel tries. -/
def roomFrom (used : List (Nat × Nat)) (hi len align : Nat) : Nat → Nat → Option Nat
  | 0, _ => none
  | n + 1, c =>
    if hi < c + len then none
    else match used.find? fun (a, l) => c < a + l && a < c + len with
      | none => some c
      | some (a, l) => roomFrom used hi len align n (ceilDiv (a + l) align * align)

/-- A place of len units in [lo, hi): the search begins where a free value says (log entry 17). -/
def findRoom (used : List (Nat × Nat)) (lo hi len align fv : Nat) : Option Nat :=
  if hi < lo + len then none
  else
    let start := lo + fv % ((hi - lo) / align) * align
    match roomFrom used hi len align (used.length + 2) start with
    | some c => some c
    | none => roomFrom used hi len align (used.length + 2) lo

/-- Near frames in use by tiles, moves and sources not yet freed. -/
def State.nearUsed (s : State) : List (Nat × Nat) :=
  (s.store.tiles.vals.filterMap fun x => if x.tier = .near then some (x.location, 1) else none) ++
  (s.store.moves.vals.filterMap fun m => if m.target = .near then some (m.location, 1) else none) ++
  (s.store.freeing.vals.flatten.filterMap fun f => if f.tier = .near then some (f.location, 1) else none)

/-- Bulk sectors in use. -/
def State.bulkUsed (s : State) : List (Nat × Nat) :=
  let place (t : Tier) (loc sec : Nat) : Option (Nat × Nat) :=
    match t with
    | .bulk => some (loc * 16, 16)
    | .muted => some (loc, sec)
    | _ => none
  (s.store.tiles.vals.filterMap fun x => place x.tier x.location x.sectors) ++
  (s.store.moves.vals.filterMap fun m => place m.target m.location m.sectors) ++
  (s.store.freeing.vals.flatten.filterMap fun f => place f.tier f.location f.sectors)

/-- A free near frame (R104). -/
def State.nearFrame (s : State) : Option Nat × State :=
  let (fv, s) := s.draw
  (findRoom s.nearUsed (s.nearPlaced * 16384) (s.nearExtents * 16384) 1 1 fv, s)

/-- A free bulk frame. -/
def State.bulkFrame (s : State) : Option Nat × State :=
  let (fv, s) := s.draw
  ((findRoom s.bulkUsed (s.bulkPlaced * 262144) (s.bulkExtents * 262144) 16 16 fv).map (· / 16), s)

/-- n free bulk sectors in a row. -/
def State.bulkSectors (s : State) (n : Nat) : Option Nat × State :=
  let (fv, s) := s.draw
  (findRoom s.bulkUsed (s.bulkPlaced * 262144) (s.bulkExtents * 262144) n 1 fv, s)

/-- The die whose tier manager looks after a tile: the home die of its first line (log entry 18). -/
def tileDie (t : Nat) : Nat := homeDie (t * 65536)

/-- Page of tier manager d. -/
def tmPage (d : Nat) : Nat := corePage d 0x12

/-- The TIER source of die d (R132). -/
def tierSource (d : Nat) : Nat := if d = 0 then 201 else 202

/-! ### Admission (R117, R118, R128) -/

/-- The rights an access needs (R117 step 5). -/
structure Needs where
  read : Bool := false
  write : Bool := false
  atomic : Bool := false
  cache : Bool := false
  put : Bool := false
  deriving DecidableEq, Repr

/-- Whether the units that serve an offset are stopped or resetting (R117 step 6). -/
def State.unitsBusy (s : State) (off : Nat) : Bool :=
  let stop (p : Nat) : Bool := s.stopping p || s.ctl.resetting.contains p
  let held (p : Nat) : Bool := s.ctl.resetting.contains p || (s.stopping p && !s.failed p)
  stop (slicePage (sliceOf off)) || (s.channelsOf off).any held

/-- R117: the first check that fails, for tenant t. -/
def State.grantCheck (s : State) (t off len : Nat) (n : Needs) : Option Status :=
  match s.windowCheck off len with
  | some st => some st
  | none =>
    let x := s.extent (extentOf off)
    if x.st = .free then some .notPresent
    else if x.tenant != t then some .denied
    else if x.st = .revoked || (x.st = .revoking && !n.put) then some .revoked
    else if (n.read && !x.read) || (n.write && !x.write) || (n.atomic && !x.atomic) || (n.cache && !x.cache) then
      some .denied
    else if x.filling || (linesOf off len).any (fun line => s.unitsBusy (line * 64)) then some .busy
    else none

/-- The service gate of stored accesses (R96, R128, R171, R406): HELD in Dark hold, before the near tier is trained,
outside the near-tier placed window or in MIRRORED extents in Greyscale service, and in CACHE extents until the rehome window of a forced
reset closes. -/
def State.accessHeld (s : State) (off : Nat) : Bool :=
  match s.boot.service with
  | .darkHold => true
  | .greyscale =>
    s.boot.step = .rom || s.boot.step = .recovery || s.boot.step = .command || windowOf off != .near ||
    (s.extent (extentOf off)).mirrored || (s.coh.forcedHold && (s.extent (extentOf off)).cache)
  | .full => s.coh.forcedHold && (s.extent (extentOf off)).cache

/-- CLEAN is cleared at the admission of the first access that writes (R115). -/
def State.soil (s : State) (e : Nat) : State :=
  if (s.extent e).clean then s.onExtent e fun x => { x with clean := false } else s

end Sys2Proof.Machine
end

