-- ==== Sys2Proof/Machine/Tiles.lean ====
section
/-! DEFINITION. Tiles of the Blended window (R32, R122 to R127, R282 to R285): how a move begins, what a first write allocates,
and what an access finds at its tile. -/

namespace Sys2Proof.Machine

/-! ### Beginning a move (R122, R126) -/

/-- The tier codec that mutes and unmutes the tiles of a die: its own, or the other while its own does not serve
(R282). -/
def State.muteCodec (s : State) (d : Nat) : Option Nat :=
  if s.serves (codecPage d) then some d else if s.serves (codecPage (1 - d)) then some (1 - d) else none

/-- The bytes of a tile. -/
def State.tileBytes (s : State) (t : Nat) : List Byte := s.bytes (t * 65536) 65536

/-- What became of a move that was asked for: it began, no frame or sectors are free, it is refused for another cause, or it
brings no gain. -/
inductive MoveAns where
  | begun | noFrame | refused | noGain
  deriving DecidableEq, Repr

/-- Claim space in the target tier and begin a move (steps 2 and 3 of a migration). -/
def State.beginMove (s : State) (t : Nat) (target : Tier) (cause : MoveCause) : MoveAns × State :=
  let d := tileDie t
  let x := s.tile t
  let ten := s.tileTenant t
  let refuse (s : State) (a : MoveAns) : MoveAns × State := (a, s.bump (Reg.tmMoveRefused (tmPage d)))
  let codec := if x.tier = .muted || target = .muted then s.muteCodec d else none
  let start (s : State) (loc sectors : Nat) : MoveAns × State :=
    let m : Move := { target := target, location := loc, sectors := sectors, cause := cause, codec := codec }
    (.begun, (s.onTile t fun x => { x with moving := true }).onStore fun st => { st with moves := st.moves.put t m })
  if x.moving then (.refused, s)
  else if x.bad then refuse s .refused
  else match target with
    | .near =>
      if !s.nearRoom ten 16 || (x.tier = .muted && codec.isNone) then refuse s .refused
      else match s.nearFrame with
        | (some f, s) => start s f 0
        | (none, s) => refuse s .noFrame
    | .bulk =>
      if !s.bulkRoom ten 16 then refuse s .refused
      else match s.bulkFrame with
        | (some f, s) => start s f 0
        | (none, s) => refuse s .noFrame
    | .muted =>
      if codec.isNone then refuse s .refused
      else
        let n := muteSectors (s.tileBytes t)
        if 15 < n then (.noGain, s.bump (Reg.tmMuteNoGain (tmPage d)))
        else if !s.bulkRoom ten n then refuse s .refused
        else match s.bulkSectors n with
          | (some f, s) => start s f n
          | (none, s) => refuse s .noFrame
    | .unbacked => (.refused, s)

/-! ### First writes (R122, R126, Table 4-7) -/

/-- What an access finds at its tile. -/
inductive TileRes where
  | go
  | wait
  | fail (st : Status)
  deriving DecidableEq, Repr

/-- The coldest of a list of tiles, the highest address first on a tie (R124). -/
def coldest (l : List (Nat × Tile)) : Option Nat :=
  match l with
  | [] => none
  | x :: xs => some (xs.foldl (fun b y =>
      if y.2.accesses < b.2.accesses || (y.2.accesses = b.2.accesses && b.1 < y.1) then y else b) x).1

/-- Demotions and mutes are tried for a first write that finds no frame (R126; log entry 19): whether room is on its way. In
the near tier the coldest PREFER_NEAR or PREFER_BULK tile is demoted, in the bulk tier the coldest MUTE_WHEN_IDLE tile is
muted; while such a move, or the freeing of its source, is under way none begins. -/
def State.makeRoom (s : State) (tier : Tier) : Bool × State :=
  let coming := (s.store.moves.any fun e => (s.tile e.1).tier = tier && e.2.target != tier) ||
    s.store.freeing.vals.flatten.any fun f => f.tier = tier
  if coming then (true, s)
  else
    let fit (x : Tile) : Bool := x.tier = tier && !x.moving && !x.bad &&
      (if tier = .near then x.policy = 1 || x.policy = 2 else x.policy = 3)
    match coldest (s.store.tiles.filter fun e => fit e.2) with
    | none => (false, s)
    | some t => match s.beginMove t (if tier = .near then .bulk else .muted) .window with
      | (.begun, s) => (true, s)
      | (_, s) => (false, s)

/-- Allocate a frame for the first write of a tile (Table 4-7). Where no frame is free, room is made; where none can be, the
write completes BUSY (R126). -/
def State.allocate (s : State) (t : Nat) : TileRes × State :=
  let x := s.tile t
  let ten := s.tileTenant t
  let full (s : State) (tier : Tier) : TileRes × State :=
    match s.makeRoom tier with
    | (true, s) => (.wait, s)
    | (false, s) => (.fail .busy, (s.bump (Reg.tmTierFull (tmPage (tileDie t)))).raise (tierSource (tileDie t)))
  let take (s : State) (tier : Tier) (loc : Nat) : TileRes × State :=
    (.go, s.onTile t fun x => { x with tier := tier, location := loc, seen := 0, accesses := 0, idle := 0 })
  let tryBulk (s : State) : TileRes × State :=
    if !s.bulkRoom ten 16 then (.fail .quota, s.onQuota ten fun q => { q with refused := satAdd 32 q.refused 1 })
    else match s.bulkFrame with
      | (some f, s) => take s .bulk f
      | (none, s) => full s .bulk
  if x.policy = 0 then
    if !s.nearRoom ten 16 then (.fail .quota, s.onQuota ten fun q => { q with refused := satAdd 32 q.refused 1 })
    else match s.nearFrame with
      | (some f, s) => take s .near f
      | (none, s) => full s .near
  else if x.policy = 1 then
    if !s.nearRoom ten 16 then tryBulk s
    else match s.nearFrame with
      | (some f, s) => take s .near f
      | (none, s) => tryBulk s
  else tryBulk s

/-- A write at a home to a tile without a frame that no admission has allocated: the data that an agent gives back for a line
of it (R122). Where no frame can be had the data has no place (log entry 77). -/
def State.backLine (s : State) (a : Nat) : Bool × State :=
  if windowOf a = .blended && (s.tile (tileOf a)).tier = .unbacked then
    match s.allocate (tileOf a) with
    | (.go, s) => (true, s)
    | (_, s) => (false, s)
  else (true, s)

/-! ### Muted tiles (R127, R285) -/

/-- Read a whole tile for a copy or a decode: whether every line can be had (R111, R126). -/
def State.readTile (s : State) (t : Nat) : Bool × State :=
  if (List.range 16).any fun i => s.mediumFailed (t * 65536 + 4096 * i) then (false, s)
  else ((s.store.flawed.map (·.1)).filter fun l => l / 1024 = t).foldl
    (fun (ok, s) l => if ok then s.readLine l else (false, s)) (true, s)

/-- Whether a tile holds a line that cannot be had. -/
def State.tileLost (s : State) (t : Nat) : Bool := !(s.readTile t).1

/-- The codec that a move of a tile uses, or that would decode the tile now. -/
def State.codecOf (s : State) (t : Nat) : Nat :=
  (((s.store.moves.get? t).bind (·.codec)).orElse fun _ => s.muteCodec (tileDie t)).getD (tileDie t)

/-- A muted tile does not decode: CHECK_FAIL and the codec's source with the tile's address; the tile stays muted and fails
every access from now on (R285, R291). -/
def State.decodeFails (s : State) (t : Nat) : State :=
  let g := s.codecOf t
  let s := (s.bump (Reg.tcCheckFail (codecPage g))).unitError (codecPage g) 0 fun s =>
    (s.onQuiet fun q => { q with last := q.last.put (344 + g) s.ran }).raise (344 + g)
      { status := Status.check.code, arg0 := t * 65536 }
  s.onTile t fun x => { x with bad := true }

/-- A write into a muted tile: its sectors hold the tile's new bytes. -/
def State.recodeMuted (s : State) (a : Nat) : State :=
  s.when (windowOf a = .blended && (s.tile (tileOf a)).tier = .muted) fun s =>
    s.onTile (tileOf a) fun x => { x with coded := muteTile (s.tileBytes (tileOf a)) }

/-- Decode the sectors of a muted tile: its bytes stand in the store again, unless the decode fails (R285). -/
def State.decodeTile (s : State) (t : Nat) : Bool × State :=
  match unmuteTile (s.tile t).coded with
  | some bs => (true, s.poke (t * 65536) bs)
  | none => (false, s.decodeFails t)

/-- An access to a muted tile that is served by decoding into engine staging (R32, R127). -/
def State.servedMuted (s : State) (t : Nat) : TileRes × State :=
  match s.decodeTile t with
  | (true, s) => (.go, s)
  | (false, s) => (.fail .check, s)

/-- Begin to unmute a tile into a bulk frame (R127); it is refused where no frame can be had or the quota forbids the growth
(R121, R126). -/
def State.beginUnmute (s : State) (t : Nat) : Bool × State :=
  match s.beginMove t .bulk .unmute with
  | (.begun, s) => (true, s)
  | (_, s) => (false, s)

/-! ### Accesses (R32, R122, R127) -/

/-- An access to part of one tile of the Blended window: its allocation or unmute, the failure of a tile that does not decode
(R285) or cannot be read, the wait of R32 once a move's fourth pass has ended, and the marks of the written lines in the copy
map. A write to a muted tile that is being promoted waits for the move (log entry 78). -/
def State.tileAccess (s : State) (off len : Nat) (write : Bool) : TileRes × State :=
  if windowOf off != .blended then (.go, s)
  else
    let t := tileOf off
    let x := s.tile t
    match x.tier with
    | .unbacked => if write then s.allocate t else (.go, s)
    | .muted =>
      if x.bad then (.fail .check, s)
      else match s.store.moves.get? t with
        | some m => if m.cause = .unmute || write || 4 < m.pass then (.wait, s) else s.servedMuted t
        | none =>
          if s.tileLost t then (.fail .uncorrectable, (s.readTile t).2)
          else match s.beginUnmute t with
            | (true, s) => (.wait, s)
            | (false, s) => if write then (.fail .busy, s) else s.servedMuted t
    | _ => match s.store.moves.get? t with
      | none => (.go, s)
      | some m =>
        if 4 < m.pass then (.wait, s)
        else if write then
          let marked := (linesOf (off % 65536) len).foldl (fun l n => if l.contains n then l else l ++ [n]) m.marked
          (.go, s.onStore fun st => { st with moves := st.moves.put t { m with marked := marked } })
        else (.go, s)

/-- The parts of a range in each of its tiles: offset and length. -/
def tileParts (off len : Nat) : List (Nat × Nat) :=
  let first := tileOf off
  let last := tileOf (off + len - 1)
  (List.range (last + 1 - first)).map fun i =>
    let lo := max off ((first + i) * 65536)
    (lo, min (off + len) ((first + i + 1) * 65536) - lo)

/-- An access to a range: every tile of it, the first answer that is not go deciding. -/
def State.rangeAccess (s : State) (off len : Nat) (write : Bool) : TileRes × State :=
  (tileParts off len).foldl (fun (r, s) p => match r with
    | .go => s.tileAccess p.1 p.2 write
    | r => (r, s)) (.go, s)

/-- ACCESSES of each backed tile that an access touches rises by one (Table 4-9). -/
def State.countAccess (s : State) (off len : Nat) : State :=
  (tileParts off len).foldl (fun s p =>
    let t := tileOf p.1
    s.when (windowOf p.1 = .blended && (s.tile t).tier != .unbacked) fun s =>
      s.onTile t fun x => { x with accesses := min (x.accesses + 1) 65535 }) s

end Sys2Proof.Machine
end

