-- ==== Sys2Proof/Machine/Pool.lean ====
section
/-! DEFINITION. Operations in flight, the request pool (R220), fair tags (R221, R222), and the new value of an atomic
(Table 7-6). -/

namespace Sys2Proof.Machine

/-! ### The pool (R18, R220) -/

/-- Whether a job holds a pool entry: from its queue entry to its completion (R207). Type 0 marks work that an engine does
of itself, such as copies of hot rows (R340); it holds none. -/
def Job.pooled (j : Job) : Bool := j.ty != 0 && j.phase != .ingress

/-- Whether an operation holds a pool entry: every one but an engine's accesses, which its job's entry covers, and
mirrored operations that wait at admission (R387). -/
def Op.pooled (o : Op) : Bool :=
  match o.src with
  | .agent | .twin => !o.mirrored || o.started
  | .engine _ _ | .walk _ => false

/-- POOL_USED of a half, the shadows of mirrored operations included (R388). -/
def State.poolUsed (s : State) (h : Nat) : Nat :=
  (s.twin.shadows.countP fun x => 0 < x.phase && homeDie x.addr = h) + s.jobs.ops.count (fun _ o => o.pooled && o.half = h) + s.jobs.jobs.count (fun _ j => j.pooled && j.die = h)

/-- Entries of a half that a tenant holds. -/
def State.poolTenant (s : State) (h t : Nat) : Nat :=
  s.jobs.ops.count (fun _ o => o.pooled && o.half = h && o.tenant = t) +
  s.jobs.jobs.count (fun _ j => j.pooled && j.die = h && j.tenant = t)

/-- Page of pool half h. -/
def poolPage (h : Nat) : Nat := corePage h 0x10

/-- Entries of one half (R220). -/
def poolCap : Nat := 32768

/-- Ask for an entry of a half: none when one is free, and the counts of a refusal otherwise (R220); a half that is
stopped or resetting gives none (R44). -/
def State.poolRefuses (s : State) (h t : Nat) : Bool × State :=
  let used := s.poolUsed h
  if s.stopping (poolPage h) || s.ctl.resetting.contains (poolPage h) then (true, s)
  else if poolCap ≤ used then (true, (s.bump (Reg.rpPoolFull (poolPage h))).raiseQuiet (320 + h))
  else if s.reg Reg.rpPoolTenantMax ≤ s.poolTenant h t then (true, s.bump (Reg.rpTenantLimited (poolPage h)))
  else if t != 0 && poolCap - used ≤ s.reg Reg.rpPoolHostReserve then
    (true, s.bump (Reg.rpTenantLimited (poolPage h)))
  else (false, s)

/-- POOL_HIGH follows POOL_USED (Table 7-8). -/
def State.notePool (s : State) (h : Nat) : State :=
  let a := Reg.rpPoolHigh (poolPage h)
  if s.reg a < s.poolUsed h then s.setReg a (s.poolUsed h) else s

/-! ### Fair tags (R221) -/

def State.tenantJobs (s : State) (t : Nat) : TenantJobs := s.jobs.tenants.getD t { }

def State.onTenant (s : State) (t : Nat) (f : TenantJobs → TenantJobs) : State :=
  s.onJobs fun j => { j with tenants := j.tenants.put t (f (j.tenants.getD t { })) }

/-- Tags of the stamped operations in the pool. -/
def State.poolTags (s : State) : List Nat :=
  (s.jobs.ops.vals.filterMap fun o => if o.pooled then some o.tag else none) ++
  (s.jobs.jobs.vals.filterMap fun j => if j.pooled then some j.tag else none)

/-- V: the smallest tag of the pool, or the largest finish tag; it never decreases, and it starts at TIME (R221). -/
def State.vnow (s : State) : Nat :=
  match s.jobs.vtime with
  | none => s.now
  | some v =>
    let m := match s.poolTags with
      | [] => s.jobs.tenants.vals.foldl (fun a t => max a (t.finish.getD 0)) 0
      | t :: ts => ts.foldl min t
    max v m

/-- The tag that the next request of a tenant would be stamped with. -/
def State.nextTag (s : State) (t : Nat) : Nat := max s.vnow ((s.tenantJobs t).finish.getD s.vnow)

/-- stamp(t, c, w) of R221: the tag, and the finish tag and V it leaves. -/
def State.stampTag (s : State) (t c w : Nat) : Nat × State :=
  let v := s.vnow
  let f := (s.tenantJobs t).finish.getD v
  let start := max v f
  let s := s.onTenant t fun x => { x with finish := some (start + ceilDiv (max c 64 * 256) (max w 1)) }
  (start, s.onJobs fun j => { j with vtime := some v })

/-- The weight of a tenant, or a lower override (R203). -/
def State.weightOf (s : State) (t override : Nat) : Nat :=
  let w := (s.tenantJobs t).weight
  if override = 0 then w else min override w

/-- The one of a list of waiting requests that an arbiter takes: among the 16 oldest, the smallest tag, then the lower
tenant, then the older (R222). -/
def arbiterPick (l : List (Nat × Nat × Nat)) : Option Nat :=
  match l.take 16 with
  | [] => none
  | x :: xs => some (xs.foldl (fun b y => if y.2.1 < b.2.1 || (y.2.1 = b.2.1 && y.2.2 < b.2.2) then y else b) x).1

/-- The order in which an arbiter dispatches a list of waiting requests that can all proceed (R222). -/
def fairOrder : Nat → List (Nat × Nat × Nat) → List Nat
  | 0, _ => []
  | n + 1, l => match arbiterPick l with
    | none => []
    | some i => i :: fairOrder n (l.filter (·.1 != i))

/-! ### Operations -/

def State.op? (s : State) (i : Nat) : Option Op := s.jobs.ops.get? i

def State.onOp (s : State) (i : Nat) (f : Op → Op) : State := s.onJobs fun j => { j with ops := j.ops.update i f }

/-- Enter an operation: its number, and the state with it. -/
def State.addOp (s : State) (o : Op) : Nat × State :=
  let i := s.jobs.nextOp
  (i, (s.onJobs fun j => { j with ops := j.ops.put i o, nextOp := i + 1 }).notePool o.half)

/-- One line of an operation has been served: its status or its data; the operation is finished with its last line. -/
def State.opLine (s : State) (i line : Nat) (st : Status) (data : List Byte) : State :=
  s.onOp i fun o =>
    let left := o.left.filter (· != line)
    { o with left := left, finished := left.isEmpty,
             fails := if st = .ok then o.fails else o.fails ++ [(line, st)],
             got := if data.isEmpty then o.got else o.got.put line data }

/-- The status of an operation: that of its failing line at the lowest address (log entry 24). -/
def Op.status (o : Op) : Status :=
  match o.fails with
  | [] => .ok
  | x :: xs => (xs.foldl (fun b y => if y.1 < b.1 then y else b) x).2

/-- The agent that sent an operation. -/
def State.opAgent (s : State) (o : Op) : Nat :=
  match s.conn? o.conn with
  | some c => c.agent
  | none => o.f.agent.toNat

/-! ### Atomics (R218, R219, Table 7-6) -/

/-- Whether Table 7-6 allows an opcode with a length. -/
def atomicAllowed (opcode len : Nat) : Bool :=
  match opcode with
  | 0x01 => len = 4
  | 0x02 => len = 8
  | 0x03 => len = 4
  | 0x04 => len = 4 || len = 8 || len = 16
  | 0x05 => len = 8 || len = 16
  | 0x06 | 0x07 | 0x08 | 0x09 | 0x0A | 0x0B | 0x0C => len = 4 || len = 8
  | _ => false

/-- The new value of an atomic of len bytes (Table 7-6); the store holds numbers least significant byte first. -/
def atomicNew (opcode len old a b : Nat) : Nat :=
  let n := 8 * len
  let so := signedOf n old
  let sa := signedOf n a
  match opcode with
  | 0x01 | 0x02 => (old + a) % 2 ^ n
  | 0x03 => f32Add old a
  | 0x04 => a
  | 0x05 => if old = a then b else old
  | 0x06 => if sa < so then a else old
  | 0x07 => if so < sa then a else old
  | 0x08 => min old a
  | 0x09 => max old a
  | 0x0A => old &&& a
  | 0x0B => old ||| a
  | 0x0C => old ^^^ a
  | _ => old

/-- The opcode of an ATOMIC frame: byte 0 of its control word (R218). -/
def atomicOpcode (f : Frame) : Nat := leField f.payload 0 1

/-- The operand that begins at byte o of an ATOMIC's payload, as the store holds it. -/
def atomicOperand (f : Frame) (o len : Nat) : Nat := leField f.payload o len

end Sys2Proof.Machine
end

