-- ==== Sys2Proof/Machine/Coherence.lean ====
section
/-! DEFINITION. The directory (05_coherence.md): entries and sharers, home messages, transactions and what meets them
(Tables 5-5 and 5-6), eviction, agent death, Ash lines and the rehome window. -/

namespace Sys2Proof.Machine

/-! ### Entries and sharers (R133, R137, R138) -/

/-- An entry that need not exist. -/
def DirEntry.idle (e : DirEntry) : Bool := e.st = .u && e.txn.isNone && e.queue.isEmpty && e.puts.isEmpty

def State.entry (s : State) (line : Nat) : DirEntry := s.coh.dir.getD line { }

def State.setEntry (s : State) (line : Nat) (e : DirEntry) : State :=
  s.onCoh fun c => { c with dir := if e.idle then c.dir.del line else c.dir.put line e }

def State.onEntry (s : State) (line : Nat) (f : DirEntry → DirEntry) : State := s.setEntry line (f (s.entry line))

def State.onTxn (s : State) (line : Nat) (f : Txn → Txn) : State :=
  s.onEntry line fun e => { e with txn := e.txn.map f }

/-- Whether an agent counts as a sharer: a pointer names it, or its group is marked. -/
def Sharers.has : Sharers → Nat → Bool
  | .pointers l, a => l.contains a
  | .coarse v, a => v.getLsbD (a / 128)

/-- Add a sharer; a fourth makes the coarse vector (R138). -/
def Sharers.add (sh : Sharers) (a : Nat) : Sharers :=
  match sh with
  | .pointers l =>
    if l.contains a then sh
    else if l.length < 3 then .pointers (l ++ [a])
    else .coarse ((a :: l).foldl (fun v x => v ||| BitVec.twoPow 64 (x / 128)) 0)
  | .coarse v => .coarse (v ||| BitVec.twoPow 64 (a / 128))

/-- Remove one sharer; nothing under a coarse vector (R138). -/
def Sharers.drop (sh : Sharers) (a : Nat) : Sharers :=
  match sh with
  | .pointers l => .pointers (l.filter (· != a))
  | .coarse v => .coarse v

/-- No sharer is recorded. -/
def Sharers.empty : Sharers → Bool
  | .pointers l => l.isEmpty
  | .coarse _ => false

/-- The page of a line's home slice. -/
def linePage (line : Nat) : Nat := slicePage (sliceOf (line * 64))

/-- The connection, OPEN or LEAVING, of an agent. -/
def State.agentConn (s : State) (a : Nat) : Option Nat :=
  (s.net.conns.find? fun e => e.2.agent = a && e.2.active).map (·.1)

/-- The agents that an INV of these sharers goes to (R138). -/
def State.sharerList (s : State) (sh : Sharers) : List Nat :=
  match sh with
  | .pointers l => l
  | .coarse v => s.net.conns.filterMap fun e => if e.2.active && v.getLsbD (e.2.agent / 128) then some e.2.agent else none

/-- The global address of a line. -/
def State.lineAddr (s : State) (line : Nat) : BitVec 64 := BitVec.ofNat 64 (s.device * 2 ^ 48 + line * 64)

/-- The drills' extent right of a line. -/
def State.lineExtent (s : State) (line : Nat) : Extent := s.extent (extentOf (line * 64))

/-! ### Ash lines (R157 to R159) -/

/-- Places of the Ash log (R159). -/
def ashLogSize : Nat := 2097152

/-- Enter a line in the Ash log; its index, or 0xFFFF_FFFF when the log is full. -/
def State.logAsh (s : State) (line cause agent : Nat) : Nat × State :=
  let head := s.reg Reg.dsAshLogHead
  if (head + 1) % ashLogSize = s.reg Reg.dsAshLogTail then (0xFFFFFFFF, s.bump Reg.dsAshLogLost)
  else
    let s := s.onCoh fun c => { c with log := c.log.put head { cause := cause, agent := agent, line := line } }
    (head, s.setReg Reg.dsAshLogHead ((head + 1) % ashLogSize))

/-- A line is made ASH: its entry, its log entry, its slice's count and source (R159, R176). -/
def State.makeAsh (s : State) (line cause agent : Nat) : State :=
  let s := s.onEntry line fun e => { e with st := .ash, owner := 0, sharers := .pointers [], txn := none }
  let (idx, s) := s.logAsh line cause agent
  let s := s.bump (Reg.dsAshMade (linePage line))
  let s := s.when (cause = 5) fun s => s.bump Reg.drDrillEffects
  s.raise (240 + sliceOf (line * 64))
    { status := Status.lost.code, arg0 := line * 64, arg1 := idx, drill := cause = 5 }

/-- Whether an index of the log lies between ASH_LOG_TAIL and ASH_LOG_HEAD. -/
def State.logLive (s : State) (i : Nat) : Bool :=
  let tail := s.reg Reg.dsAshLogTail
  let head := s.reg Reg.dsAshLogHead
  (i + ashLogSize - tail) % ashLogSize < (head + ashLogSize - tail) % ashLogSize

/-- A line leaves ASH: it becomes U, and every live log entry of it takes CLEARED (R159). -/
def State.leaveAsh (s : State) (line : Nat) : State :=
  let live := s.logLive
  let s := s.onEntry line fun e => { e with st := .u, spilled := false }
  s.onCoh fun c => { c with log := c.log.map fun (i, a) =>
    (i, if a.line = line && live i then { a with cleared := true } else a) }

/-- PROTO_ERR of a line's slice, and the COH_PROTO source (R176). -/
def State.protoErr (s : State) (line : Nat) : State := (s.bump (Reg.dsProtoErr (linePage line))).raiseQuiet 275

/-! ### Home messages (R141, R142, Table 3-6) -/

/-- The payload of a FWD: the requester of the transaction, or the device itself (R151, Table 3-6). -/
def State.fwdPayload (s : State) (t : Txn) (owner : Nat) : List Byte :=
  let build (ip : BitVec 128) (port : BitVec 16) (ident opId conn : Nat) : List Byte :=
    beBytes 16 ip.toNat ++ beBytes 2 port.toNat ++ [0#8, 0#8] ++ beBytes 4 ident ++ beBytes 4 opId ++ beBytes 4 conn
  match t.selfFwd with
  | some i =>
    let ip := match (s.agentConn owner).bind s.conn? with
      | some c => ((c.bestPath none).bind c.paths.get?).elim 0 (·.dip)
      | none => 0
    build ip s.udpPort 0 i 0xFFFFFF
  | none => match s.op? t.req.op with
    | none => []
    | some o => match s.conn? o.conn with
      | none => []
      | some c =>
        let q := ((c.bestPath none).bind c.paths.get?).getD { }
        build q.aip q.aport (identOf c.tenant c.agent) o.f.opId.toNat o.conn

/-- The frame of a home message (Table 5-4). -/
def State.homeFrame (s : State) (line : Nat) (t : Txn) (m : HomeMsg) : Frame :=
  let a := s.lineAddr line
  let f : Frame := { addr := a, opId := BitVec.ofNat 32 m.opId }
  let snap : BitVec 64 := if t.snap then 1 else 0
  match m.kind with
  | .inv => { f with ty := 0x18 }
  | .recall => { f with ty := 0x19 }
  | .fetch => { f with ty := 0x19, addr := a ||| 1 }
  | .fwdS => { f with ty := 0x16, addr := a ||| snap, len := 32, payload := s.fwdPayload t m.target }
  | .fwdM => { f with ty := 0x17, addr := a ||| snap, len := 32, payload := s.fwdPayload t m.target }

/-- Send a home message and count it; in Dark hold it is not sent (R169). -/
def State.sendHome (s : State) (line : Nat) (t : Txn) (m : HomeMsg) : State :=
  match s.agentConn m.target with
  | none => s
  | some c =>
    let pg := linePage line
    let s := match m.kind with
      | .inv => s.bump (Reg.dsInvsSent pg)
      | .fwdS | .fwdM => s.bump (Reg.dsForwards pg)
      | _ => s
    s.sendSeq c (s.homeFrame line t m)

/-- The OP_IDs of the open home messages and of the open self-forwards. -/
def State.openIds (s : State) : List Nat :=
  (s.coh.dir.flatMap fun e => match e.2.txn with
    | some t => (t.msgs.filter fun m => !m.answered).map (·.opId) ++ t.selfFwd.toList
    | none => []) ++ s.coh.loose.map fun e => e.2.opId

/-- The first number from n on, modulo 2^32, that is not in a list, within fuel tries. -/
def freshId (used : List Nat) : Nat → Nat → Nat
  | 0, n => n % 2 ^ 32
  | k + 1, n => if used.contains (n % 2 ^ 32) then freshId used k (n + 1) else n % 2 ^ 32

/-- A fresh OP_ID of 32 bits, unique among the open home messages and self-forwards (R142, R151). -/
def State.newId (s : State) : Nat × State :=
  let used := s.openIds
  let n := freshId used (used.length + 1) s.coh.nextMsg
  (n, s.onCoh fun c => { c with nextMsg := (n + 1) % 2 ^ 32 })

/-- Home messages with fresh OP_IDs; one to an agent without a connection counts as answered (R156). -/
def State.newMsgs (s : State) (targets : List (Nat × MsgKind)) : List HomeMsg × State :=
  targets.foldl (fun (l, s) (a, k) =>
    let (n, s) := s.newId
    (l ++ [{ opId := n, target := a, kind := k, answered := (s.agentConn a).isNone, unsent := s.boot.service = .darkHold }], s))
    (([] : List HomeMsg), s)

/-- What the home messages of no transaction are sent under. -/
def looseTxn (line : Nat) : Txn :=
  { kind := .invalidating, req := { op := 0, kind := .evict, line := line, at_ := 0 }, msgs := [], was := .u }

/-- Invalidate agents without a transaction: the INVs stand open until they are answered, and no request waits for them
(R142, R155, R156); those that fall due in Dark hold are sent later (R169). -/
def State.invalidateLoose (s : State) (line : Nat) (agents : List Nat) : State :=
  agents.foldl (fun s a =>
    let (msgs, s) := s.newMsgs [(a, .inv)]
    let msgs := msgs.filter fun m => !m.answered
    let s := s.onCoh fun c => { c with loose := c.loose ++ msgs.map fun m => (line, m) }
    (msgs.filter fun m => !m.unsent).foldl (fun s m => s.sendHome line (looseTxn line) m) s) s

/-! ### What becomes of requests -/

/-- An operation that a forward has answered: it completes without a response of the home (R145). -/
def State.opSilent (s : State) (i line : Nat) : State := (s.opLine i line .ok []).onOp i fun o => { o with silent := true }

/-- A request of a transaction on a line completes LOST; the request for which a victim was being cleared goes on. -/
def State.reqLost (s : State) (line : Nat) (r : LineReq) : State × List LineReq :=
  if r.line != line then (s, [r])
  else match r.kind with
    | .evict | .revoke | .recall => (s, [])
    | _ => (s.opLine r.op line .lost [], [])

/-- The requests that a line held during a transaction: first its held PUTs, then its queue (R143, Table 5-6). -/
def State.popWork (s : State) (line : Nat) : State × List LineReq :=
  let e := s.entry line
  (s.setEntry line { e with puts := [], queue := [] }, e.puts ++ e.queue)

/-- The transaction on a line ends with the line ASH and its request LOST. -/
def State.txnAsh (s : State) (line cause agent : Nat) : State × List LineReq :=
  match (s.entry line).txn with
  | none => (s, [])
  | some t =>
    let s := s.makeAsh line cause agent
    let (s, a) := s.reqLost line t.req
    let (s, b) := s.popWork line
    (s, a ++ b)

/-- Data of a GET or of a forward, with its grant: 1 S, 2 E, 3 M (Table 5-4). -/
def State.grantData (s : State) (i line grant : Nat) (data : List Byte) : State :=
  (s.opLine i line .ok data).onOp i fun o => { o with grant := grant }

/-- The home serves a GET from its copy (R144). -/
def State.serveGet (s : State) (i line grant : Nat) : State :=
  let (ok, s) := s.readLine line
  if ok then s.grantData i line grant (s.bytes (line * 64) 64)
  else s.opLine i line .uncorrectable []

/-- Write bytes within one line at the home; the whole line when there are 64 of them (R111). A tile without a frame takes
one for the data that an agent gives back (R122), and a muted one is coded again (log entries 77, 78). -/
def State.writeInLine (s : State) (a : Nat) (bs : List Byte) : State :=
  match s.backLine a with
  | (false, s) => s
  | (true, s) =>
    let s := (s.poke a bs).recodeMuted a
    if bs.length = 64 then s.freshLine (a / 64) else s

/-- The part of an operation's range that lies in a line: its first offset and its bytes' number. -/
def partOf (off len line : Nat) : Nat × Nat :=
  let lo := max off (line * 64)
  (lo, min (off + len) (line * 64 + 64) - lo)

/-- Page of the bulk engine of a die. -/
def bulkEnginePage (d : Nat) : Nat := corePage d 0x78

/-- The bulk engine that executes an atomic: that of the home die, or the other die's (R219). -/
def State.atomicEngine (s : State) (off : Nat) : Option Nat :=
  let d := homeDie off
  if s.serves (bulkEnginePage d) then some d
  else if s.serves (bulkEnginePage (1 - d)) then some (1 - d)
  else none

/-- Whether the home's copy of a line can be read (R111). -/
def State.readable (s : State) (line : Nat) : Bool :=
  match s.channelOf (s.mediumOf (line * 64)) with
  | none => true
  | some p => !s.mediumFailed (line * 64) && (match s.store.flawed.get? line with
    | some fl => fl.syms ≤ codeLimit p
    | none => true)

/-- Apply a WRITE or an ATOMIC to one line at the home (R151, R157, R219): the line is U now. A write that only asks whether it
could be applied, since its unit writes all of its lines or none (R249), changes nothing more. -/
def State.applyLine (s : State) (i line : Nat) : State :=
  match s.op? i with
  | none => s
  | some o =>
    let off := offOf o.f.addr.toNat
    if s.mediumFailed (line * 64) then s.opLine i line .uncorrectable []
    else if o.probe && (s.readable line || (partOf off o.f.payload.length line).2 = 64) then s.opLine i line .ok []
    else if o.f.ty = 0x03 then
      match s.atomicEngine off with
      | none => s.opLine i line .busy []
      | some d =>
        let (ok, s) := s.readLine line
        if ok then
          let len := o.f.len.toNat
          let old := s.bytes off len
          let new := atomicNew (atomicOpcode o.f) len (leNat old) (atomicOperand o.f 8 len) (atomicOperand o.f (8 + len) len)
          let s := (s.poke off (leBytes len new)).bump (Reg.beAtomics (bulkEnginePage d))
          s.opLine i line .ok old
        else s.opLine i line .uncorrectable []
    else
      let (lo, n) := partOf off o.f.payload.length line
      let bs := (o.f.payload.drop (lo - off)).take n
      if n = 64 then
        let s := if (s.entry line).st = .ash then s.leaveAsh line else s
        (s.writeInLine lo bs).opLine i line .ok []
      else
        let (ok, s) := s.readLine line
        if ok then (s.writeInLine lo bs).opLine i line .ok [] else s.opLine i line .uncorrectable []

/-- The agent that makes a request, and whether it is dead (R149). -/
def State.reqAgent (s : State) (r : LineReq) : Option Nat :=
  match s.op? r.op with
  | some o => match o.src with
    | .agent => some (s.opAgent o)
    | _ => none
  | none => none

/-- Whether the connection of a request's operation no longer stands (R90). -/
def State.reqGone (s : State) (r : LineReq) : Bool :=
  match s.op? r.op with
  | some o => match o.src with
    | .agent => match s.conn? o.conn with
      | some c => !c.active
      | none => true
    | _ => false
  | none => true

/-- Close the transaction of a line whose answers have all come (Table 5-6): the state and the action of Table 5-5. -/
def State.closeTxn (s : State) (line : Nat) : State × List LineReq :=
  let e := s.entry line
  match e.txn with
  | none => (s, [])
  | some t =>
    let q := (s.reqAgent t.req).getD 0
    let set (st : HomeState) (owner : Nat) (sh : Sharers) : State :=
      s.setEntry line { e with st := st, owner := owner, sharers := sh, txn := none }
    let gone : State := set .u 0 (.pointers [])
    let (s, a) : State × List LineReq :=
      if t.req.line != line then (gone, [t.req])
      else match t.req.kind with
        | .evict | .revoke | .recall => (gone, [])
        | .write => (gone.applyLine t.req.op line, [])
        | .upgrade => ((set .m q (.pointers [])).grantData t.req.op line 3 [], [])
        | .getM =>
          if t.kind = .forwarding then
            if t.reqDead then (gone, []) else ((set .m q (.pointers [])).opSilent t.req.op line, [])
          else ((set .m q (.pointers [])).serveGet t.req.op line 3, [])
        | .getS =>
          if t.reqDead then (set (if e.sharers.empty then .m else .o) e.owner e.sharers, [])
          else ((set .o e.owner (e.sharers.add q)).opSilent t.req.op line, [])
        | .read => ((set e.st e.owner e.sharers).opSilent t.req.op line, [])
        | .snap => ((set e.st e.owner e.sharers).opLine t.req.op line .ok (t.got.getD []), [])
        | .putM | .putO | .putE => (set e.st e.owner e.sharers, [])
    let (s, b) := s.popWork line
    (s, a ++ b)

/-- A fetch has brought the data of a line and written it home, and every sharer has answered: the requester is answered, the
transaction closes (R148, R166, Table 5-6). -/
def State.closeFetch (s : State) (line : Nat) : State × List LineReq :=
  let e := s.entry line
  match e.txn with
  | none => (s, [])
  | some t =>
    let data := t.got.getD []
    let q := (s.reqAgent t.req).getD 0
    let set (st : HomeState) (owner : Nat) (sh : Sharers) : State :=
      s.setEntry line { e with st := st, owner := owner, sharers := sh, txn := none }
    let s : State :=
      match t.req.kind with
      | .getM => if t.reqDead then set .u 0 (.pointers []) else (set .m q (.pointers [])).grantData t.req.op line 3 data
      | .getS => if t.reqDead then set .o e.owner e.sharers else (set .o e.owner (e.sharers.add q)).grantData t.req.op line 1 data
      | _ => (set e.st e.owner e.sharers).opLine t.req.op line .ok data
    s.popWork line

/-- The home fetches the data of a forward itself (R148). -/
def State.startFetch (s : State) (line : Nat) : State × List LineReq :=
  let e := s.entry line
  match e.txn with
  | none => (s, [])
  | some t =>
    let s := s.bump (Reg.dsFetches (linePage line))
    if (s.agentConn e.owner).isNone then s.txnAsh line 1 e.owner
    else
      let (msgs, s) := s.newMsgs [(e.owner, .fetch)]
      let t := { t with kind := .fetching, msgs := t.msgs ++ msgs }
      let s := s.onEntry line fun e => { e with txn := some t }
      ((msgs.filter fun m => !m.unsent).foldl (fun s m => s.sendHome line t m) s, [])

/-- What an open transaction does once an answer or a death has been taken: it closes when every answer has come; a
forward waits for both halves, or acts for a dead requester (Table 5-6). -/
def State.advance (s : State) (line : Nat) : State × List LineReq :=
  match (s.entry line).txn with
  | none => (s, [])
  | some t =>
    if t.msgs.any fun m => !m.answered then (s, [])
    else match t.kind with
      | .forwarding =>
        if t.recvDone then s.closeTxn line
        else if t.reqDead then
          if t.fwdM then s.startFetch line
          else if t.snap then
            let s := s.onTxn line fun t => { t with recvDone := true }
            s.closeTxn line
          else s.closeTxn line
        else (s, [])
      | .fetching => s.closeFetch line
      | _ => s.closeTxn line

/-- Open a transaction on a line (R143): its messages go out; an owner of an M or O line that has no connection makes
the line ASH with cause 1 (R156). -/
def State.openTxn (s : State) (line : Nat) (kind : TxnKind) (r : LineReq) (targets : List (Nat × MsgKind))
    (fwdM snap self : Bool) : State × List LineReq :=
  let e := s.entry line
  let lost := (e.st = .m || e.st = .o) && (targets.any fun x => x.1 = e.owner && x.2 != .inv) &&
    (s.agentConn e.owner).isNone
  let (msgs, s) := s.newMsgs targets
  let (selfId, s) := if self then s.newId else (0, s)
  let t : Txn := { kind := kind, req := r, msgs := msgs, was := e.st, fwdM := fwdM, snap := snap,
                   selfFwd := if self then some selfId else none }
  let s := s.onEntry line fun e => { e with txn := some t }
  if lost then s.txnAsh line 1 e.owner
  else
    let s := (msgs.filter fun m => !m.answered && !m.unsent).foldl (fun s m => s.sendHome line t m) s
    s.advance line

/-! ### Capacity (R153, R154) -/

/-- Entries of one slice (R153). -/
def State.dirCapacity (s : State) : Nat := s.boot.carve.getD 0 8 * 2 ^ 27 / 16 / 32

/-- Whether two lines share one of the sets of 16 ways that a slice's entries make up. -/
def State.sameSet (s : State) (a b : Nat) : Bool :=
  let n := s.dirCapacity / 16
  sliceOf (a * 64) = sliceOf (b * 64) && Config.dirSet n a % n = Config.dirSet n b % n

/-- What a line that needs an entry finds in its set. -/
inductive SetRoom where
  | room
  | victim (line : Nat)
  | full
  deriving DecidableEq, Repr

/-- The set of a line that needs an entry (R154). -/
def State.setRoom (s : State) (line : Nat) : SetRoom :=
  let mates := s.coh.dir.filter fun e => e.1 != line && !e.2.spilled && s.sameSet e.1 line
  if mates.length < 16 then .room
  else
    let free := mates.filter fun e => e.2.txn.isNone && e.2.queue.isEmpty &&
      (e.2.st = .u || e.2.st = .s || e.2.st = .e || e.2.st = .m || e.2.st = .o)
    match free with
    | [] => .full
    | x :: xs => .victim (xs.foldl (fun b y => if y.2.used < b.2.used then y else b) x).1

/-- The messages that clear a line of every holder: RECALL to its owner, INV to its sharers. -/
def State.clearTargets (s : State) (e : DirEntry) : List (Nat × MsgKind) :=
  let invs := ((s.sharerList e.sharers).filter fun a => a != e.owner || e.st = .s).map fun a => (a, MsgKind.inv)
  match e.st with
  | .s => invs
  | .e | .m => [(e.owner, .recall)]
  | .o => (e.owner, .recall) :: invs
  | _ => []

/-- Clear a line of its holders for a request: an eviction, a revocation or a drill's recall. -/
def State.clearLine (s : State) (line : Nat) (r : LineReq) : State × List LineReq :=
  s.openTxn line .recalling r (s.clearTargets (s.entry line)) false false false

/-! ### Reclaim at a lookup (R156) -/

/-- Step 3 of Table 5-7 for one entry without a transaction. -/
def State.reclaimLine (s : State) (line agent : Nat) : State :=
  let e := s.entry line
  if e.txn.isSome then s
  else
    let cause := match s.coh.reclaims.get? agent with
      | some r => if r.drill then 5 else 1
      | none => 1
    match e.st with
    | .s =>
      let sh := e.sharers.drop agent
      s.setEntry line (if sh.empty then { e with st := .u, sharers := sh } else { e with sharers := sh })
    | .e => if e.owner = agent then s.setEntry line { e with st := .u, owner := 0 } else s
    | .m | .o =>
      if e.owner = agent then
        let sh := (s.sharerList e.sharers).filter (· != agent)
        (s.makeAsh line cause agent).invalidateLoose line sh
      else s.setEntry line { e with sharers := e.sharers.drop agent }
    | _ => s

/-! ### A failed directory entry (R155) -/

/-- A lookup or a scan meets a directory entry with an uncorrectable error: its line is ASH with cause 6, an open transaction
ends with its request LOST, and every agent of the extent's tenant is sent INV (log entry 86). -/
def State.checkEntry (s : State) (line : Nat) : State × List LineReq :=
  if s.coh.spoilt.contains line then
    let s := s.onCoh fun c => { c with spoilt := c.spoilt.filter (· != line) }
    let (s, freed) := if (s.entry line).txn.isSome then s.txnAsh line 6 0 else (s.makeAsh line 6 0).popWork line
    let t := (s.lineExtent line).tenant
    (s.invalidateLoose line ((s.net.conns.filter fun e => e.2.tenant = t && e.2.active).map fun e => e.2.agent), freed)
  else (s, [])

/-! ### Requests at the home (Table 5-5) -/

/-- Write the data of a PUT home (R111, R144). -/
def State.putHome (s : State) (i line : Nat) : State :=
  match s.op? i with
  | none => s
  | some o =>
    if s.mediumFailed (line * 64) then s.opLine i line .uncorrectable []
    else (s.writeInLine (line * 64) (slice o.f.payload 0 64)).opLine i line .ok []

/-- A stale PUT: answered OK, its data discarded, counted (R144). -/
def State.stalePut (s : State) (i line : Nat) : State := (s.bump (Reg.dsStalePuts (linePage line))).opLine i line .ok []

/-- A GET that finds no holder, or room made for it: it takes an entry of its set (R154). -/
def State.grantNew (s : State) (r : LineReq) (st : HomeState) (owner : Nat) (sh : Sharers) (grant : Nat) :
    State × List LineReq :=
  let e := s.entry r.line
  if e.st != .u then
    ((s.setEntry r.line { e with st := st, owner := owner, sharers := sh }).serveGet r.op r.line grant, [])
  else if !s.readable r.line then (s.serveGet r.op r.line grant, [])
  else match s.setRoom r.line with
    | .full => ((s.bump (Reg.dsSetFull (linePage r.line))).opLine r.op r.line .busy [], [])
    | .victim v => (s.bump (Reg.dsRecalls (linePage v))).clearLine v r
    | .room => ((s.setEntry r.line { e with st := st, owner := owner, sharers := sh }).serveGet r.op r.line grant, [])

/-- The INVs of a list of agents. -/
def invsTo (l : List Nat) : List (Nat × MsgKind) := l.map fun a => (a, MsgKind.inv)

/-- GET_M, and an UPGRADE served as one (Table 5-5). -/
def State.takeGetM (s : State) (r : LineReq) (q : Nat) : State × List LineReq :=
  let line := r.line
  let e := s.entry line
  let r := { r with kind := .getM }
  let others := (s.sharerList e.sharers).filter (· != q)
  match e.st with
  | .u => s.grantNew r .m q (.pointers []) 3
  | .s =>
    if !s.readable line then (s.serveGet r.op line 3, [])
    else s.openTxn line .invalidating r (invsTo others) false false false
  | .e =>
    if q = e.owner then ((s.protoErr line).opLine r.op line .unsupported [], [])
    else if !s.readable line then (s.serveGet r.op line 3, [])
    else s.openTxn line .invalidating r [(e.owner, .inv)] false false false
  | .m =>
    if q = e.owner then ((s.protoErr line).opLine r.op line .unsupported [], [])
    else s.openTxn line .forwarding r [(e.owner, .fwdM)] true false false
  | .o =>
    if q = e.owner then ((s.protoErr line).opLine r.op line .unsupported [], [])
    else s.openTxn line .forwarding r ((e.owner, .fwdM) :: invsTo (others.filter (· != e.owner))) true false false
  | .ash => (s.opLine r.op line .lost [], [])
  | .rhm => (s.opLine r.op line .held [], [])

/-- GET_S (Table 5-5). -/
def State.takeGetS (s : State) (r : LineReq) (q : Nat) : State × List LineReq :=
  let line := r.line
  let e := s.entry line
  match e.st with
  | .u =>
    if (s.lineExtent line).write then s.grantNew r .e q (.pointers []) 2
    else s.grantNew r .s 0 (.pointers [q]) 1
  | .s =>
    if !s.readable line then (s.serveGet r.op line 1, [])
    else s.grantNew r .s 0 (e.sharers.add q) 1
  | .e =>
    if q = e.owner then ((s.protoErr line).opLine r.op line .unsupported [], [])
    else if !s.readable line then (s.serveGet r.op line 1, [])
    else s.grantNew r .s 0 (.pointers [e.owner, q]) 1
  | .m | .o =>
    if q = e.owner then ((s.protoErr line).opLine r.op line .unsupported [], [])
    else s.openTxn line .forwarding r [(e.owner, .fwdS)] false false false
  | .ash => (s.opLine r.op line .lost [], [])
  | .rhm => (s.opLine r.op line .held [], [])

/-- UPGRADE (Table 5-5). -/
def State.takeUpgrade (s : State) (r : LineReq) (q : Nat) : State × List LineReq :=
  let line := r.line
  let e := s.entry line
  let others := (s.sharerList e.sharers).filter (· != q)
  match e.st with
  | .s =>
    if e.sharers.has q then s.openTxn line .invalidating r (invsTo others) false false false else s.takeGetM r q
  | .e =>
    if q = e.owner then ((s.setEntry line { e with st := .m }).grantData r.op line 3 [], []) else s.takeGetM r q
  | .m => if q = e.owner then (s.grantData r.op line 3 [], []) else s.takeGetM r q
  | .o =>
    if q = e.owner then s.openTxn line .invalidating r (invsTo others) false false false
    else if e.sharers.has q then
      s.openTxn line .invalidating r ((e.owner, .inv) :: invsTo (others.filter (· != e.owner))) false false false
    else s.takeGetM r q
  | _ => s.takeGetM r q

/-- PUT_M and PUT_O (Table 5-5). One that maps to a failed medium completes UNCORRECTABLE and changes nothing (R107, R109,
R111). -/
def State.takePut (s : State) (r : LineReq) (q : Nat) : State × List LineReq :=
  let line := r.line
  let e := s.entry line
  let owned := q = e.owner && (e.st = .e || e.st = .m || e.st = .o || e.st = .rhm)
  if owned && s.mediumFailed (line * 64) then (s.opLine r.op line .uncorrectable [], [])
  else match e.st with
  | .e | .m =>
    if q = e.owner then ((s.setEntry line { e with st := .u, owner := 0, sharers := .pointers [] }).putHome r.op line, [])
    else (s.stalePut r.op line, [])
  | .o =>
    if q = e.owner then
      ((s.setEntry line { e with st := if e.sharers.empty then .u else .s, owner := 0 }).putHome r.op line, [])
    else (s.stalePut r.op line, [])
  | .rhm =>
    if q = e.owner then
      ((s.setEntry line { e with st := .u, owner := 0, sharers := .pointers [], spilled := false }).putHome r.op line, [])
    else (s.opLine r.op line .held [], [])
  | _ => (s.stalePut r.op line, [])

/-- PUT_E (Table 5-5). -/
def State.takePutE (s : State) (r : LineReq) (q : Nat) : State × List LineReq :=
  let line := r.line
  let e := s.entry line
  let done (s : State) : State × List LineReq := (s.opLine r.op line .ok [], [])
  match e.st with
  | .s =>
    let sh := e.sharers.drop q
    done (s.setEntry line (if sh.empty then { e with st := .u, sharers := sh } else { e with sharers := sh }))
  | .e => done (if q = e.owner then s.setEntry line { e with st := .u, owner := 0 } else s)
  | .m => if q = e.owner then ((s.protoErr line).opLine r.op line .unsupported [], []) else done s
  | .o =>
    if q = e.owner then ((s.protoErr line).opLine r.op line .unsupported [], [])
    else done (s.setEntry line { e with sharers := e.sharers.drop q })
  | .rhm => (s.opLine r.op line .held [], [])
  | _ => done s

/-- A READ of one line, and the reads that the device makes itself (Table 5-5, R151). -/
def State.takeRead (s : State) (r : LineReq) : State × List LineReq :=
  let line := r.line
  let e := s.entry line
  match e.st with
  | .m | .o => s.openTxn line .forwarding r [(e.owner, .fwdS)] false true (r.kind = .snap)
  | .ash => (s.opLine r.op line .lost [], [])
  | .rhm => (s.opLine r.op line .held [], [])
  | _ =>
    let (ok, s) := s.readLine line
    (if ok then s.opLine r.op line .ok (s.bytes (line * 64) 64) else s.opLine r.op line .uncorrectable [], [])

/-- Whether an operation is a full write of a line (R157): a WRITE of the whole of it by an agent, the partner or a bulk
engine (R214), not by another engine. -/
def State.wholeLine (s : State) (i line : Nat) : Bool :=
  match s.op? i with
  | some o =>
    (match o.src with
      | .agent | .twin => true
      | .engine j _ => (s.jobs.jobs.get? j).any (·.isBulk)
      | .walk _ => false) && o.f.ty != 0x03 && (partOf (offOf o.f.addr.toNat) o.f.payload.length line).2 = 64
  | none => false

/-- WRITE and ATOMIC (Table 5-5): sharers invalidated, owner recalled, then applied at the home. A partial write of a line
whose copy at the home is current and cannot be read leaves the directory as it is (R111). -/
def State.takeWrite (s : State) (r : LineReq) : State × List LineReq :=
  let line := r.line
  let e := s.entry line
  let spoilt := !s.readable line && !(s.wholeLine r.op line && !s.mediumFailed (line * 64))
  match e.st with
  | .u => (s.applyLine r.op line, [])
  | .s =>
    if spoilt then ((s.readLine line).2.opLine r.op line .uncorrectable [], [])
    else s.openTxn line .invalidating r (invsTo (s.sharerList e.sharers)) false false false
  | .e => if spoilt then ((s.readLine line).2.opLine r.op line .uncorrectable [], []) else s.clearLine line r
  | .m | .o => s.clearLine line r
  | .ash => (if s.wholeLine r.op line then s.applyLine r.op line else s.opLine r.op line .lost [], [])
  | .rhm => (s.opLine r.op line .held [], [])

/-- Take one request at the home of its line, which has no transaction open. A request of an agent that has gone is
discarded when it is a coherence request (R156). The entry itself may have failed (R155). A line of a revoking extent that gains a holder is recalled (R119). -/
def State.take (s : State) (r : LineReq) : State × List LineReq :=
  let line := r.line
  let (s, freed) := s.checkEntry line
  let s := s.coh.reclaims.foldl (fun s (a, _) => s.reclaimLine line a) s
  let s := s.onCoh fun c => { c with clock := c.clock + 1 }
  let q := (s.reqAgent r).getD 0
  let coherent := r.kind = .getS || r.kind = .getM || r.kind = .upgrade || r.kind = .putM || r.kind = .putO || r.kind = .putE
  let device := r.kind = .evict || r.kind = .revoke || r.kind = .recall
  if !device && (s.op? r.op).all (·.finished) then (s, freed)
  else if coherent && s.reqGone r then (s.opSilent r.op line, freed)
  else
    let (s, more) := match r.kind with
      | .getS => s.takeGetS r q
      | .getM => s.takeGetM r q
      | .upgrade => s.takeUpgrade r q
      | .putM | .putO => s.takePut r q
      | .putE => s.takePutE r q
      | .read | .snap => s.takeRead r
      | .write => s.takeWrite r
      | .evict | .revoke | .recall =>
        match (s.entry line).st with
        | .s | .e | .m | .o => s.clearLine line r
        | _ => (s, [])
    let s := if (s.entry line).idle then s else s.onEntry line fun e => { e with used := s.coh.clock }
    let e := s.entry line
    let held := e.txn.isNone && (e.st = .s || e.st = .e || e.st = .m || e.st = .o)
    if held && coherent && (s.lineExtent line).st = .revoking then
      (s, { op := 0, kind := .revoke, line := line, at_ := s.ran } :: (more ++ freed))
    else (s, more ++ freed)

/-- Work through requests in order: one whose line has a transaction open joins the line's queue (R143). -/
def State.homeRun : Nat → List LineReq → State → State
  | 0, _, s => s
  | _, [], s => s
  | n + 1, r :: rest, s =>
    if (s.entry r.line).txn.isSome then
      State.homeRun n rest (s.onEntry r.line fun e => { e with queue := e.queue ++ [r] })
    else
      let (s, more) := s.take r
      State.homeRun n (more ++ rest) s

/-- Go on with the requests that an event at a home has set free. -/
def State.run (x : State × List LineReq) : State := State.homeRun Config.fuel x.2 x.1

/-- A PUT from a target of the line's open transaction (Table 5-6): the owner's is taken at once as the data of its recall, a
sharer's finds it no owner; during other transactions it is held to their close, but a PUT_E is applied during an
invalidation. -/
def State.putInTxn (s : State) (r : LineReq) (t : Txn) : State :=
  match t.kind with
  | .recalling =>
    let e := s.entry r.line
    let owner := e.st != .s && s.reqAgent r = some e.owner
    let clean := r.kind = .putE
    if !owner then (if clean then s.opLine r.op r.line .ok [] else s.stalePut r.op r.line)
    else if clean && e.st != .e then (s.protoErr r.line).opLine r.op r.line .unsupported []
    else
      let s := if clean then s.opLine r.op r.line .ok [] else s.putHome r.op r.line
      s.onTxn r.line fun t => { t with putTaken := true }
  | .invalidating =>
    if r.kind = .putE then s.opLine r.op r.line .ok []
    else s.onEntry r.line fun e => { e with puts := e.puts ++ [r] }
  | _ => s.onEntry r.line fun e => { e with puts := e.puts ++ [r] }

/-- A request arrives at the slice of its line (R143); LOOKUPS counts it here, once (log entry 85). -/
def State.homeArrive (s : State) (r : LineReq) : State :=
  let s := s.when (!(s.op? r.op).any (·.probe)) fun s => s.bump64 (Reg.dsLookups (linePage r.line))
  let s := State.run (s.checkEntry r.line)
  match (s.entry r.line).txn with
  | some t =>
    let put := r.kind = .putM || r.kind = .putO || r.kind = .putE
    let q := s.reqAgent r
    let s := s.bump (Reg.dsLineWaits (linePage r.line))
    if put && t.msgs.any fun m => some m.target = q then s.putInTxn r t
    else
      s.onEntry r.line fun e => { e with queue := e.queue ++ [r] }
  | none => State.run (s, [r])

/-! ### Answers to home messages (R142, R145 to R149) -/

/-- Kinds of answer (Table 5-4). -/
inductive AnsKind where
  | invAck | fwdDone | recallAck | noData | data
  deriving DecidableEq, Repr

/-- The open home message of an OP_ID, with its line. -/
def State.findMsg (s : State) (opId : Nat) : Option (Nat × HomeMsg) :=
  s.coh.dir.findSome? fun (line, e) => match e.txn with
    | some t => (t.msgs.find? fun m => m.opId = opId && !m.answered).map fun m => (line, m)
    | none => none

/-- Mark a home message answered. -/
def State.markAnswered (s : State) (line opId : Nat) : State :=
  s.onTxn line fun t => { t with msgs := t.msgs.map fun m => if m.opId = opId then { m with answered := true } else m }

/-- An answer that names an open INV of no transaction (log entry 87). -/
def State.looseAnswer (s : State) (agent opId : Nat) (k : AnsKind) : State :=
  match s.coh.loose.find? fun e => e.2.opId = opId with
  | none => s
  | some (line, m) =>
    if m.target != agent || k != .invAck then s.protoErr line
    else s.onCoh fun c => { c with loose := c.loose.filter fun e => e.2.opId != opId }

/-- Take an answer from an agent: late ones are discarded; one from another agent, or of a kind that its message does
not expect, counts in PROTO_ERR (R142, R149). -/
def State.takeAnswer (s : State) (agent opId : Nat) (k : AnsKind) (data : List Byte) : State :=
  match s.findMsg opId with
  | none => s.looseAnswer agent opId k
  | some (line, m) =>
    if m.target != agent then s.protoErr line
    else match m.kind, k with
      | .inv, .invAck => State.run ((s.markAnswered line opId).advance line)
      | .fwdS, .fwdDone | .fwdM, .fwdDone =>
        let s := (s.markAnswered line opId).onTxn line fun t => { t with fwdDone := true, fwdDoneAt := some s.ran }
        State.run (s.advance line)
      | .fwdS, .noData | .fwdM, .noData | .fetch, .noData | .fetch, .recallAck =>
        State.run ((s.protoErr line).txnAsh line 3 agent)
      | .recall, .recallAck => State.run ((s.markAnswered line opId).advance line)
      | .recall, .data =>
        let s := s.writeInLine (line * 64) (slice data 0 64)
        State.run ((s.markAnswered line opId).advance line)
      | .fetch, .data =>
        let s := (s.writeInLine (line * 64) (slice data 0 64)).onTxn line fun t => { t with got := some (slice data 0 64) }
        State.run ((s.markAnswered line opId).advance line)
      | _, _ => s.protoErr line

/-- RECV_DONE of a requester for its own GET or READ (R142, R145): after a fetch has begun it changes nothing. -/
def State.takeRecvDone (s : State) (conn : Nat) (opId : BitVec 32) : State :=
  let hit := s.coh.dir.findSome? fun (line, e) => match e.txn with
    | some t => match s.op? t.req.op with
      | some o => if t.kind = .forwarding && o.conn = conn && o.f.opId = opId then some line else none
      | none => none
    | none => none
  match hit with
  | none => s
  | some line => State.run ((s.onTxn line fun t => { t with recvDone := true }).advance line)

/-- A direct DATA for a self-forward of the device: it brings the data and closes the transaction (R151)
without a FWD_DONE (log entry 84). -/
def State.takeDirect (s : State) (opId : Nat) (data : List Byte) : State :=
  let hit := s.coh.dir.findSome? fun (line, e) => match e.txn with
    | some t => if t.selfFwd = some opId && t.kind = .forwarding then some line else none
    | none => none
  match hit with
  | none => s
  | some line =>
    State.run ((s.onTxn line fun t => { t with recvDone := true, got := some (slice data 0 64) }).closeTxn line)

/-! ### Death (R149, R156) -/

/-- What an agent's death does to the open transaction of a line (Table 5-6). A WRITE or ATOMIC that waits for a recall whose
target dies then meets the line in ASH, under R157 (log entry 31). -/
def State.deathInTxn (s : State) (line agent : Nat) : State × List LineReq :=
  match (s.entry line).txn with
  | none => (s, [])
  | some t =>
    let e := s.entry line
    let mine := t.msgs.filter fun m => m.target = agent && !m.answered
    let cause := match s.coh.reclaims.get? agent with
      | some r => if r.drill then 5 else 1
      | none => 1
    let lost := mine.any fun m => match m.kind with
      | .fwdS | .fwdM | .fetch => true
      | .recall => (e.st = .m || e.st = .o) && !t.putTaken
      | .inv => false
    if lost then
      if t.kind = .recalling && t.req.kind = .write && t.req.line = line then
        let (s, b) := (s.makeAsh line cause agent).popWork line
        (s, t.req :: b)
      else s.txnAsh line cause agent
    else
      let s := mine.foldl (fun s m => s.markAnswered line m.opId) s
      let isReq := t.req.line = line && s.reqAgent t.req = some agent
      if isReq then
        match t.kind, t.req.kind with
        | .invalidating, .getM | .invalidating, .upgrade =>
          if t.was = .o then s.txnAsh line cause agent
          else
            let s := s.setEntry line { e with st := .u, owner := 0, sharers := .pointers [], txn := none }
            (s.opSilent t.req.op line).popWork line
        | .forwarding, .write | .recalling, _ => s.advance line
        | .forwarding, _ | .fetching, _ =>
          let s := (s.onTxn line fun t => { t with reqDead := true }).opSilent t.req.op line
          s.advance line
        | _, _ => s.advance line
      else s.advance line

/-- Steps 1 and 2 of Table 5-7: the agent enters the reclaim set, and the transactions that await it go on. -/
def State.beginReclaim (s : State) (agent conn : Nat) (drill : Bool) : State :=
  let s := s.onCoh fun c => { c with reclaims := c.reclaims.put agent { conn := conn, drill := drill },
                                     lastReclaim := agent }
  let s := s.onCoh fun c => { c with loose := c.loose.filter fun e => e.2.target != agent }
  let open_ := (s.coh.dir.filter fun e => e.2.txn.isSome).map (·.1)
  open_.foldl (fun s line => State.run (s.deathInTxn line agent)) s

/-- Step 3 of Table 5-7: every slice scans its entries. -/
def State.reclaimScan (s : State) (agent : Nat) : State :=
  (s.coh.dir.map (·.1)).foldl (fun s line => (State.run (s.checkEntry line)).reclaimLine line agent) s

/-! ### Revocation and recalls (R119, R154, R457) -/

/-- Clear the lines that meet a test of their holders: at once, or after their open transaction. -/
def State.recallLines (s : State) (kind : ReqKind) (p : Nat → DirEntry → Bool) : State :=
  ((s.coh.dir.filter fun e => p e.1 e.2).map (·.1)).foldl
    (fun s line => State.homeRun Config.fuel [{ op := 0, kind := kind, line := line, at_ := s.ran }] s) s

/-- Whether a page is a directory slice's. -/
def isSlice (page : Nat) : Bool := (unitOf page).any fun u => u.ty = .directorySlice

/-- Whether a slice has no transaction open and no request waiting. -/
def State.sliceIdle (s : State) (page : Nat) : Bool :=
  !s.coh.dir.any fun e => linePage e.1 = page && (e.2.txn.isSome || !e.2.queue.isEmpty || !e.2.puts.isEmpty)

/-- The lines that a slice under reset evicts (R173). -/
def State.evictable (s : State) (page : Nat) : List Nat :=
  (s.coh.dir.filter fun e => linePage e.1 = page && (e.2.st = .s || e.2.st = .e || e.2.st = .m || e.2.st = .o)).map (·.1)

/-- Slices under reset that have drained evict their entries, and RECALLS counts each (R154, R173). -/
def State.evictResets (s : State) : State :=
  (s.ctl.resetting.filter fun p => isSlice p && s.sliceIdle p && !(s.evictable p).isEmpty).foldl (fun s p =>
    let lines := s.evictable p
    (s.bump (Reg.dsRecalls p) lines.length).recallLines .evict fun l _ => lines.contains l) s

/-- Whether a directory entry still holds up a revocation or a recall. -/
def DirEntry.pendingHolders (e : DirEntry) : Bool :=
  e.txn.isSome || e.st = .s || e.st = .e || e.st = .m || e.st = .o

/-- Home messages that Dark hold kept back go out (R169). -/
def State.sendUnsent (s : State) : State :=
  let due := s.coh.loose.filter fun e => e.2.unsent
  let s := s.onCoh fun c => { c with loose := c.loose.map fun e => (e.1, { e.2 with unsent := false }) }
  let s := due.foldl (fun s e => s.sendHome e.1 (looseTxn e.1) e.2) s
  (s.coh.dir.map (·.1)).foldl (fun s line =>
    match (s.entry line).txn with
    | none => s
    | some t =>
      let due := t.msgs.filter fun m => m.unsent && !m.answered
      let s := s.onTxn line fun t => { t with msgs := t.msgs.map fun m => { m with unsent := false } }
      due.foldl (fun s m => s.sendHome line t m) s) s

/-! ### Rows of this chapter -/

/-- FWD_WAIT_EXPIRY: FWD_WAIT after FWD_DONE without RECV_DONE (R148). -/
def fwdWaitExpiryOp (line : Nat) (s : State) : State :=
  match (s.entry line).txn with
  | some t => match t.fwdDoneAt with
    | some at_ =>
      if t.kind = .forwarding && !t.recvDone && s.since at_ (bits (s.reg Reg.dsCohCtrl) 7 0 * 10000) then
        State.run (s.startFetch line)
      else s
    | none => s
  | none => s

/-- COH_WAIT_EXPIRY: a request that has waited in the line's queue for COH_WAIT completes TIMEOUT (R152). -/
def cohWaitExpiryOp (line op : Nat) (s : State) : State :=
  let e := s.entry line
  match e.queue.find? fun r => r.op = op && s.since r.at_ (bits (s.reg Reg.dsCohCtrl) 23 16 * 1000000) with
  | some r =>
    let s := s.setEntry line { e with queue := e.queue.filter (· != r) }
    let s := (s.bump (Reg.dsCohTimeouts (linePage line))).raiseQuiet 275
    s.opLine op line .timeout []
  | none => s

/-- CLEAR_ASH (R160): the status and what it leaves. -/
def clearAshOp (s : State) : Status × State :=
  let a := s.reg Reg.dsAshClrAddr
  let n := s.reg Reg.dsAshClrLines
  let bad := a % 64 != 0 || 2 ^ 48 ≤ a || n = 0 || 16384 < n || !s.placed a || extentOf a != extentOf (a + 64 * n - 1)
  let put (s : State) (cleared : Nat) (st : Status) : State :=
    s.setReg Reg.dsAshClrStat (cleared * 2 ^ 16 + st.code * 2 ^ 8)
  if bad then (.unsupported, put s 0 .unsupported)
  else
    let first := a / 64
    let hit := (s.coh.dir.filter fun e => first ≤ e.1 && e.1 < first + n && e.2.st = .ash).map (·.1)
    let s := hit.foldl (fun s line => (s.leaveAsh line).writeInLine (line * 64) (List.replicate 64 0)) s
    (.ok, put s hit.length .ok)

/-- REHOME_WINDOW_CLOSE (R170, R171): 50 ms after it opened, every line still RHM becomes ASH with cause 4, and the
revocations that a reset met learn their lines (R120). -/
def rehomeWindowCloseOp (s : State) : State :=
  if s.coh.rehomeSt = .opened && s.since s.coh.rehomeAt 50000000 then
    let rhm := s.coh.dir.filter fun e => e.2.st = .rhm
    let s := rhm.foldl (fun s e =>
      let s := s.makeAsh e.1 4 e.2.owner
      let x := extentOf (e.1 * 64)
      s.onStore fun st => { st with revs := st.revs.update x fun r => { r with ash := r.ash + 1, timedOut := true } }) s
    let s := s.onCoh fun c => { c with rehomeSt := .closed, forcedHold := false }
    let s := s.setReg Reg.dsRehomeAsh rhm.length
    s.raise 274
  else s

end Sys2Proof.Machine
end

