-- ==== Sys2Proof/Machine/Extents.lean ====
section
/-! DEFINITION. Grants and revocation (R113 to R121): the extent commands on this device, zero fills, revocation with
operations in flight, and quotas. -/

namespace Sys2Proof.Machine

/-- Extents that are FILLING or REVOKING (R116). -/
def State.extActive (s : State) : Nat := s.store.extents.count fun _ x => x.filling || x.st = .revoking

/-- An operation that is admitted of itself: the accesses of an engine belong to their job. -/
def Op.own (o : Op) : Bool :=
  match o.src with
  | .engine _ _ => false
  | _ => true

/-- The operations on an extent that are admitted and not completed; the accesses of an engine count with their job. -/
def State.extOps (s : State) (e : Nat) : List Nat :=
  (s.jobs.ops.filter fun o => o.2.extent = e && !o.2.finished && o.2.own).map (·.1)

/-- The jobs that have touched an extent. -/
def State.extJobs (s : State) (e : Nat) : List Nat := (s.jobs.jobs.filter fun j => j.2.extents.contains e).map (·.1)

/-- The admitted count of an extent: its operations, and the jobs that have touched it (R119). -/
def State.admitted (s : State) (e : Nat) : Nat := (s.extOps e).length + (s.extJobs e).length

/-- Granted Blended extents (R122). -/
def State.blendedHeld (s : State) : Nat := s.store.extents.count fun e x => 16384 ≤ e && x.st != .free

/-- The tier of an extent is trained (R128). -/
def State.tierReady (s : State) (e : Nat) : Bool :=
  if e < 1024 then s.boot.step = .near || s.boot.step = .bulk else s.boot.step = .bulk

/-- A fill begins: a Blended extent's tiles are freed at once, a placed one stays FILLING (R115). -/
def State.startFill (s : State) (e : Nat) : State :=
  if 16384 ≤ e then
    let s := s.onStore fun st =>
      { st with tiles := st.tiles.filter (fun t => t.1 / 16384 != e), moves := st.moves.filter (fun m => m.1 / 16384 != e),
                flawed := st.flawed.filter (fun l => l.1 * 64 / 2 ^ 30 != e) }
    let s := (s.zero (e * 2 ^ 30) ((e + 1) * 2 ^ 30)).onExtent e fun x => { x with filling := false, clean := true }
    s.raise 200 { arg0 := e + 2 ^ 32 }
  else s.onExtent e fun x => { x with filling := true }

/-- Whether a tenant's quotas have room for what an extent occupies: a placed extent its GiB, a Blended one its tiles and the
frames that their moves have claimed (R114, R121). -/
def State.extRoom (s : State) (e t : Nat) : Bool :=
  if e < 1024 then s.nearRoom t 262144
  else if e < 16384 then s.bulkRoom t 262144
  else
    let mine (k : Nat) : Bool := k / 16384 = e
    let near := (s.store.tiles.countP fun x => mine x.1 && x.2.tier = .near) + s.store.moves.countP fun m => mine m.1 && m.2.target = .near
    let bulk := (s.store.tiles.countP fun x => mine x.1 && x.2.tier = .bulk) + s.store.moves.countP fun m => mine m.1 && m.2.target = .bulk
    let sectors := (s.store.tiles.foldl (fun n (k, x) => if mine k && x.tier = .muted then n + x.sectors else n) 0) +
      s.store.moves.foldl (fun n (k, m) => if mine k && m.target = .muted then n + m.sectors else n) 0
    (near = 0 || s.nearRoom t (16 * near)) && (bulk + sectors = 0 || s.bulkRoom t (16 * bulk + sectors))

/-- The fields that GRANT takes from EXT_ARG (Table 4-4). -/
def argExtent (arg : Nat) (old : Extent) : Extent :=
  { old with tenant := bits arg 11 0, read := bit arg 12, write := bit arg 13, atomic := bit arg 14, cache := bit arg 15,
             mirrored := bit arg 18, drillOk := bit arg 19, policy := bits arg 21 20, st := .granted }

/-- GRANT on this device (Tables 4-5; R114, R116, R121, R122, R128, R382). -/
def State.grantExt (s : State) (e arg : Nat) : Status × State :=
  let x := s.extent e
  let new := argExtent arg x
  let blended := 16384 ≤ e
  if x.st != .free && x.st != .revoked then (.unsupported, s)
  else if (new.mirrored && (!bit (s.reg Reg.twTwinCtrl) 0 || blended || new.cache)) || (new.policy != 0 && !blended) then
    (.unsupported, s)
  else if !s.tierReady e then (.held, s)
  else if !s.backed e then (.notPresent, s)
  else
    let needsFill := x.st = .free && !x.clean && !x.filling
    let same := x.st = .revoked && x.tenant = new.tenant
    if needsFill && s.boot.service != .full then (.held, s)
    else if (blended && x.st = .free && s.reg Reg.tmBlendedMax ≤ s.blendedHeld) || (needsFill && !blended && 64 ≤ s.extActive) then
      (.busy, s)
    else if !same && !s.extRoom e new.tenant then
      (.quota, s.onQuota new.tenant fun q => { q with refused := satAdd 32 q.refused 1 })
    else
      let s := s.onExtent e fun _ => new
      (.ok, if needsFill then s.startFill e else s)

/-- REVOKE on this device: the sequence of Table 4-6 begins. -/
def State.revokeExt (s : State) (e : Nat) : Status × State :=
  if (s.extent e).st != .granted then (.unsupported, s)
  else if 64 ≤ s.extActive && !(s.extent e).filling then (.busy, s)
  else
    let s := s.onExtent e fun x => { x with st := .revoking }
    let r : Revocation := { tO := some (s.ran + s.reg Reg.tmRevokeTimeout * 1000000) }
    let s := s.onStore fun st => { st with revs := st.revs.put e r }
    (.ok, s.recallLines .revoke fun line x => extentOf (line * 64) = e && x.pendingHolders)

/-- RELEASE on this device. -/
def State.releaseExt (s : State) (e : Nat) : Status × State :=
  let x := s.extent e
  if x.st != .revoked then (.unsupported, s)
  else if s.boot.service != .full then (.held, s)
  else if e < 16384 && !x.filling && 64 ≤ s.extActive then (.busy, s)
  else
    let s := s.onExtent e fun x => { filling := x.filling, clean := x.clean }
    (.ok, s.startFill e)

/-- ADD_RIGHTS on this device. -/
def State.addRightsExt (s : State) (e arg : Nat) : Status × State :=
  let x := s.extent e
  if x.st != .granted || (x.mirrored && bit arg 15 && !x.cache) then (.unsupported, s)
  else (.ok, s.onExtent e fun x => { x with read := x.read || bit arg 12, write := x.write || bit arg 13,
                                            atomic := x.atomic || bit arg 14, cache := x.cache || bit arg 15 })

/-- SET_DRILL on this device. -/
def State.setDrillExt (s : State) (e arg : Nat) : Status × State :=
  let x := s.extent e
  if x.st != .granted && x.st != .revoked then (.unsupported, s)
  else (.ok, s.onExtent e fun x => { x with drillOk := bit arg 19 })

/-- An extent command on this device alone (Table 4-5). -/
def State.extLocal (s : State) (cmd e arg : Nat) : Status × State :=
  match cmd with
  | 1 => s.grantExt e arg
  | 2 => s.revokeExt e
  | 3 => s.releaseExt e
  | 4 => s.addRightsExt e arg
  | 5 => s.setDrillExt e arg
  | _ => (.unsupported, s)

/-- EXT_STAT.RESULT takes the status of a command. -/
def State.extResult (s : State) (st : Status) : State := s.setReg Reg.tmExtStat (st.code * 256)

/-- ZERO_FILL_DONE: every line of a placed extent is zero (R115); fills run in full service only (R128). -/
def zeroFillDoneOp (e : Nat) (s : State) : State :=
  if (s.extent e).filling && s.boot.service = .full then
    let s := s.onStore fun st => { st with flawed := st.flawed.filter (fun l => extentOf (l.1 * 64) != e),
                                           corrected := st.corrected.filter (fun l => extentOf (l * 64) != e) }
    let s := (s.zero (e * 2 ^ 30) ((e + 1) * 2 ^ 30)).onExtent e fun x => { x with filling := false, clean := true }
    s.raise 200 { arg0 := e + 2 ^ 32 }
  else s

/-- Step 6 of Table 4-6: the extent is REVOKED, and its completion record goes out. -/
def State.revokeEnd (s : State) (e : Nat) (st : Status) (ops ash : Nat) : State :=
  let s := s.onExtent e fun x => { x with st := .revoked }
  let s := s.onStore fun t => { t with revs := t.revs.del e }
  s.raise 200 { status := st.code, arg0 := e + min ops (2 ^ 24 - 1) * 2 ^ 40, arg1 := min ash (2 ^ 32 - 1) }

/-- Step 4 of Table 4-6: nothing admitted remains and every INV and RECALL is answered. -/
def State.revokeReady (s : State) (e : Nat) : Bool :=
  s.admitted e = 0 && !s.coh.dir.any fun x => extentOf (x.1 * 64) = e && x.2.pendingHolders

/-- REVOKE_COMPLETE: nothing admitted remains and every INV and RECALL is answered (Table 4-6 step 4); after a warm
reset the rehome window has closed (R120). -/
def revokeCompleteOp (e : Nat) (s : State) : State :=
  match s.store.revs.get? e with
  | none => s
  | some r =>
    let window := r.tO.isNone && (s.coh.rehomeSt = .awaiting || s.coh.rehomeSt = .opened)
    if s.revokeReady e && !window then s.revokeEnd e (if r.timedOut then .timeout else .ok) 0 r.ash else s

/-- An operation ends with a status before its lines are served. -/
def State.endOp (s : State) (i : Nat) (st : Status) : State :=
  s.onOp i fun o =>
    { o with left := [], finished := true, got := [], fence := false,
             fails := (linesOf (offOf o.f.addr.toNat) (max 1 o.f.len.toNat)).map fun l => (l, st) }

/-- The lowest work unit of a job that has not ended well: one that waits, is to be dealt again, has not been dealt, or has
failed (R249). -/
def Job.unwritten (j : Job) : Nat :=
  let l := j.blocked.map (·.unit) ++ j.todo ++ j.fails.map fun e => e.1 / 2 ^ 32
  l.foldl min j.next

/-- A job stops and will complete with a status (R211); the first cause stands, and its streams wait no longer. -/
def State.stopJob (s : State) (i : Nat) (st : Status) : State :=
  let s := s.onJobs fun j => { j with jobs := j.jobs.update i fun x =>
    { x with stopped := some (x.stopped.getD st), lowest := some (x.lowest.getD x.unwritten), blocked := [], refs := [], blocks := [] } }
  s.onXlat fun x =>
    { x with parked := x.parked.filter (·.who.job != i),
             walks := x.walks.map fun (n, w) => (n, { w with waiters := w.waiters.filter (·.job != i) }) }

/-- REVOKE_TIMEOUT: step 5 of Table 4-6, where step 4 has not happened. -/
def revokeTimeoutOp (e : Nat) (s : State) : State :=
  match s.store.revs.get? e with
  | none => s
  | some r => match r.tO with
    | none => s
    | some t =>
      if t ≤ s.ran && s.revokeReady e then s.revokeEnd e .ok 0 r.ash
      else if t ≤ s.ran then
        let ops := s.extOps e
        let jobs := s.extJobs e
        let all := (s.jobs.ops.filter fun o => o.2.extent = e && !o.2.finished).map (·.1)
        let s := all.foldl (fun s i => s.endOp i .revoked) s
        let s := jobs.foldl (fun s i => s.stopJob i .revoked) s
        let lines := (s.coh.dir.filter fun x => extentOf (x.1 * 64) = e && x.2.pendingHolders).map (·.1)
        let dirty := lines.filter fun l => (s.entry l).st = .m || (s.entry l).st = .o
        let others := lines.filterMap fun l => (s.entry l).txn.bind fun t => if t.req.line != l then some t.req else none
        let s := lines.foldl (fun s l =>
          let x := s.entry l
          let s := s.setEntry l { x with txn := none, queue := [], puts := [] }
          if x.st = .m || x.st = .o then s.makeAsh l 2 x.owner
          else if x.st = .s || x.st = .e then s.onEntry l fun x => { x with st := .u, owner := 0, sharers := .pointers [] }
          else s) s
        let s := State.run (s, others)
        let s := (s.bump Reg.tmRevokeTimeouts).bump Reg.tmRevokeAsh dirty.length
        s.revokeEnd e .timeout (ops.length + jobs.length) dirty.length
      else s

/-- A write of QUOTA_NEAR (R121). -/
def State.writeQuotaNear (s : State) (v : BitVec 32) : Status × State :=
  let n := v.toNat % 2 ^ 20
  if n != 0xFFFFF && s.nearExtents < n then (.unsupported, s)
  else (.ok, s.onQuota (s.reg Reg.tmQuotaSel % 4096) fun q => { q with near := n })

/-- A write of QUOTA_BULK (R121). -/
def State.writeQuotaBulk (s : State) (v : BitVec 32) : Status × State :=
  let n := v.toNat % 2 ^ 20
  if n != 0xFFFFF && s.bulkExtents != 0 && s.bulkExtents < n then (.unsupported, s)
  else (.ok, s.onQuota (s.reg Reg.tmQuotaSel % 4096) fun q => { q with bulk := n })

end Sys2Proof.Machine
end

