-- ==== Sys2Proof/Machine/Connections.lean ====
section
/-! DEFINITION. The life of connections (R86, R90 to R94, R156): joining and leaving, silence, death and reclaim,
probes. -/

namespace Sys2Proof.Machine

/-! ### Numbers and tables -/

/-- Whether a connection number may be assigned (R90). -/
def State.connFree (s : State) (n : Nat) : Bool :=
  n != 0 && n != 0xFFFFFF && (s.conn? n).isNone && (match s.net.freed.get? n with
    | some t => s.since t 1000000000
    | none => true)

/-- The next number that may be assigned, from n on (R90). -/
def State.connFrom (s : State) : Nat → Nat → Nat
  | 0, n => n
  | k + 1, n => if s.connFree n then n else s.connFrom k ((n + 1) % 2 ^ 24)

/-- Take a connection number. -/
def State.takeConn (s : State) : Nat × State :=
  let n := s.connFrom (s.net.conns.length + s.net.freed.length + 3) s.net.nextConn
  (n, s.onNet fun t => { t with nextConn := (n + 1) % 2 ^ 24, freed := t.freed.del n })

/-- A connection's number becomes free, and what the control space keeps for it is gone (R58). -/
def State.dropConn (s : State) (c : Nat) : State :=
  let s := s.onCtl fun x => { x with latches := x.latches.filter (fun e => e.1 / 2 ^ 32 != c),
                                     pendingLow := x.pendingLow.filter (fun e => e.1 / 2 ^ 32 != c) }
  s.onNet fun n => { n with conns := n.conns.del c, freed := n.freed.put c s.ran }

/-- The connections of an agent. -/
def State.agentConns (s : State) (tenant agent : Nat) : List (Nat × Conn) :=
  s.net.conns.filter fun e => e.2.tenant = tenant && e.2.agent = agent

/-- Operations and jobs of a connection admitted and not completed (CONN_ADMITTED). -/
def State.connAdmitted (s : State) (c : Nat) : Nat :=
  (s.jobs.ops.count fun _ o => o.conn = c && o.src = .agent && !o.finished) +
  (s.jobs.jobs.count fun _ j => j.conn = c) +
  (s.xlat.invals.count fun _ v => v.conn = c)

/-! ### ACCEPT and refusals (R92) -/

/-- Send an UNSEQ frame to where a frame came from, on the port where it arrived. -/
def State.sendBack (s : State) (rx : Rx) (f : Frame) : State :=
  s.emit rx.port rx.src (Config.sourcePort 0 rx.f.path.toNat) (withFlag { f with path := rx.f.path } fUnseq)

/-- The ACCEPT of a connection, on the path of its JOIN and with its OP_ID (Table 3-10; log entry 30). -/
def State.sendAccept (s : State) (c : Nat) : State :=
  match s.conn? c with
  | none => s
  | some k =>
    let body := beBytes 4 c ++ beBytes 2 s.device ++ beBytes 1 s.boot.incarn.toNat ++ beBytes 1 k.granted ++
      beBytes 4 (s.reg Reg.pgOpsMax) ++ beBytes 4 (s.tenantJobs k.tenant).credits ++ beBytes 8 s.now ++
      beBytes 8 k.nonce.toNat
    let s := s.onConn c fun k => { k with lastHeard := s.ran }
    let s := s.onPath c k.joinPath fun q => { q with live := true, opened := true, lastAcked := s.ran }
    s.sendUnseq c k.joinPath { ty := 0x51, opId := k.joinOp, len := 32, payload := body }

/-- A refused JOIN: the status goes back UNSEQ, and the refusal is counted. -/
def State.refuseJoin (s : State) (rx : Rx) (st : Status) (counter : Nat) : State :=
  (s.bump counter).sendBack rx { respFrame rx.f st [] with conn := rx.f.conn }

/-- A tenant holds a persisted grant: a GRANTED extent in the near-tier placed window (R406); tenant 0 always. -/
def State.persisted (s : State) (t : Nat) : Bool :=
  t = 0 || s.store.extents.any fun e => e.1 < s.nearPlaced && e.2.st = .granted && e.2.tenant = t

/-- A field of a JOIN's payload. -/
def joinField (f : Frame) (off n : Nat) : Nat := beField f.payload off n

/-- The path on which a JOIN arrived, not yet used (R86). -/
def State.joinedPath (s : State) (rx : Rx) : PathSt :=
  { aip := rx.src, aport := rx.sport, dip := rx.dst, port := rx.port,
    cwnd := bits (s.reg Reg.pgJmtCtrl) 7 0 * 4096, lastAcked := s.ran, roundAt := s.ran }

/-- A JOIN repeated on a connection, which is OPEN (again): its ACCEPT goes out again, on the path of this JOIN (Table 3-9,
R92). -/
def State.acceptAgain (s : State) (c : Nat) (rx : Rx) : State :=
  let n := rx.f.path.toNat
  let s := s.onConn c fun k =>
    let q := { k.paths.getD n (s.joinedPath rx) with aip := rx.src, aport := rx.sport, dip := rx.dst, port := rx.port }
    { k with st := .openC, leave := none, joinPath := n, joinOp := rx.f.opId, paths := k.paths.put n q }
  s.sendAccept c

/-- Create a connection for a JOIN; it is OPEN at once or waits ACCEPTING. -/
def State.newConn (s : State) (rx : Rx) (st : ConnState) : State :=
  let f := rx.f
  let (c, s) := s.takeConn
  let k : Conn := { tenant := f.tenant.toNat, agent := f.agent.toNat, st := st,
                    nonce := BitVec.ofNat 64 (joinField f 24 8), granted := joinField f 32 1,
                    paths := [(f.path.toNat, s.joinedPath rx)], joinPath := f.path.toNat, joinOp := f.opId,
                    lastHeard := s.ran, lastKeep := s.ran }
  let s := (s.onNet fun n => { n with conns := n.conns.put c k }).bump Reg.pgJoinOk
  if st = .openC then s.sendAccept c else s

/-- An agent is declared dead: its connection is RECLAIMING and the coherence reclaim begins (R90, R156). -/
def State.declareDead (s : State) (c counter : Nat) (byLeave drill : Bool) : State :=
  match s.conn? c with
  | none => s
  | some k =>
    let s := (s.onConn c fun k => { k with st := .reclaiming, left := byLeave }).bump counter
    s.beginReclaim k.agent c drill

/-- JOIN (Table 3-11, Table 3-9). -/
def State.takeJoin (s : State) (rx : Rx) : State :=
  let f := rx.f
  let ten := f.tenant.toNat
  let n := joinField f 32 1
  let role := s.role rx.port
  let mine := s.agentConns ten f.agent.toNat
  if f.len != 40 || f.payload.length != 40 || n = 0 || 8 < n || n ≤ f.path.toNat || joinField f 33 7 != 0 then
    s.refuseJoin rx .unsupported Reg.pgJoinBad
  else if s.boot.service = .darkHold || (s.boot.service = .greyscale &&
      (!s.persisted ten || (ten != 0 && (s.boot.step = .command || s.boot.step = .recovery)))) then
    s.refuseJoin rx .held Reg.pgJoinHeld
  else if (Tbl.get? s.net.joinKeys ten).all fun key =>
      token key (beBytes 2 ten ++ beBytes 2 f.agent.toNat ++ beBytes 8 (joinField f 16 8)) != BitVec.ofNat 128 (joinField f 0 16) then
    s.refuseJoin rx .denied Reg.pgJoinDenied
  else if joinField f 16 8 ≤ s.now then s.refuseJoin rx .denied Reg.pgJoinDenied
  else if (if ten = 0 then role != 0 else role != 1) then s.refuseJoin rx .denied Reg.pgJoinDenied
  else if s.net.conns.any fun e => e.2.agent = f.agent.toNat && e.2.tenant != ten then
    (s.refuseJoin rx .denied Reg.pgJoinDenied).bump Reg.pgJoinClash
  else if 8192 ≤ s.net.conns.count (fun c _ => c != twinConn) then s.refuseJoin rx .busy Reg.pgJoinBusy
  else match mine.find? (·.2.st = .accepting) with
    | some (c, _) => s.onConn c fun k => { k with lastHeard := s.ran }
    | none => match mine.find? (·.2.active) with
      | some (c, k) =>
        if k.nonce = BitVec.ofNat 64 (joinField f 24 8) then s.acceptAgain c rx
        else
          let s := s.declareDead c Reg.pgRejoined false false
          s.newConn rx .accepting
      | none => s.newConn rx (if mine.isEmpty then .openC else .accepting)

/-! ### Death and reclaim -/

/-- SILENCE_TIMEOUT: 10 ms without a frame from the agent (R90, Table 3-9). -/
def silenceOp (c : Nat) (s : State) : State :=
  match s.conn? c with
  | none => s
  | some k =>
    if s.since k.lastHeard 10000000 && c != twinConn then
      if k.active then s.declareDead c Reg.pgDeadSilence false false
      else if k.st = .accepting then s.dropConn c
      else s
    else s

/-- AGENT_KILL of TENANT[31:20], AGENT[19:7] (R90, Table 3-9). -/
def agentKillOp (v : BitVec 32) (s : State) : State :=
  (s.agentConns (bits v.toNat 31 20) (bits v.toNat 19 7)).foldl (fun s e =>
    if e.2.active then s.declareDead e.1 Reg.pgDeadKilled false false
    else if e.2.st = .accepting then s.dropConn e.1
    else s) s

/-- LEAVING_DRAINED: the admitted count of a LEAVING connection is 0 (R90). -/
def leavingDrainedOp (c : Nat) (s : State) : State :=
  match s.conn? c with
  | none => s
  | some k => if k.st = .leaving && s.connAdmitted c = 0 then s.declareDead c Reg.pgLeft true false else s

/-- RECLAIM_COMPLETE: every slice has scanned; the connection goes IDLE, a LEAVE is answered, a waiting connection of
the agent is accepted (Table 5-7 step 5, R90). -/
def reclaimCompleteOp (c : Nat) (s : State) : State :=
  match s.conn? c with
  | none => s
  | some k =>
    if k.st = .reclaiming then
      let s := s.reclaimScan k.agent
      let s := s.onCoh fun x => { x with reclaims := x.reclaims.del k.agent }
      let s := (s.bump Reg.dsReclaims).raise 272
      let s := match k.left, k.leave with
        | true, some (n, opId) =>
          let f : Frame := { ty := 0x52, flags := BitVec.twoPow 12 fResp, opId := opId }
          s.sendUnseq c n f
        | _, _ => s
      let s := s.dropConn c
      match (s.agentConns k.tenant k.agent).find? (·.2.st = .accepting) with
      | some (d, _) => (s.onConn d fun k => { k with st := .openC }).sendAccept d
      | none => s
    else s

/-! ### HELLO (R86) -/

/-- A HELLO with PROBE 1 and RESP 0: answered on its path, which becomes live. A QUIESCED port answers none (R97). -/
def State.takeProbe (s : State) (c : Nat) (rx : Rx) : State :=
  match s.conn? c with
  | none => s
  | some k =>
    let n := rx.f.path.toNat
    if k.granted ≤ n then s.bump (Reg.portRxDropHdr (portPage rx.port))
    else if s.stopping (portPage rx.port) then s
    else
      let q := k.paths.getD n { cwnd := bits (s.reg Reg.pgJmtCtrl) 7 0 * 4096, roundAt := s.ran }
      let q := { q with aip := rx.src, aport := rx.sport, dip := rx.dst, port := rx.port, live := true, opened := true,
                        droppedAt := none, lost := if q.live then q.lost else 0,
                        lastAcked := if q.live then q.lastAcked else s.ran }
      let s := s.onConn c fun k => { k with paths := k.paths.put n q }
      let f : Frame := { ty := 0x53, len := 16, payload := helloPayload s.now (beField rx.f.payload 0 8) }
      s.sendUnseq c n (withFlag (withFlag f fProbe) fResp)

/-- A probe's answer: the path is live, and its echo gives a round-trip sample (R86, R88). -/
def State.takeProbeAnswer (s : State) (c : Nat) (rx : Rx) : State :=
  let echo := beField rx.f.payload 8 8
  s.onPath c rx.f.path.toNat fun q =>
    let q := { q with live := true, lost := 0, probeAt := none, droppedAt := none, lastAcked := s.ran }
    if echo ≤ s.now then q.sample (s.now - echo) else q

end Sys2Proof.Machine
end

