-- ==== Sys2Proof/Machine/Plain.lean ====
section
/-! DEFINITION. Plain accesses, atomics and coherence requests from admission to response (R13, R18, R117, R151, R163,
R218, R419): READ, WRITE, ATOMIC, GET_S, GET_M, UPGRADE, PUT_M, PUT_O, PUT_E. -/

namespace Sys2Proof.Machine

/-- Whether a TYPE is a coherence request (Table 3-5). -/
def isCoh (ty : Nat) : Bool := 0x10 ≤ ty && ty ≤ 0x15

/-- Bytes that a request moves at the store. -/
def spanOf (f : Frame) : Nat := if isCoh f.ty.toNat then 64 else f.len.toNat

/-- The rights that a request needs (R117 step 5, R118). -/
def needsOf (f : Frame) : Needs :=
  match f.ty.toNat with
  | 0x01 => { read := true }
  | 0x02 => { write := true }
  | 0x03 => { read := true, atomic := true }
  | 0x10 => { read := true, cache := true }
  | 0x11 | 0x12 => { write := true, cache := true }
  | _ => { put := true }

/-- Whether a request writes the store: WRITE, ATOMIC, and the data of a PUT (R115). -/
def writesOf (f : Frame) : Bool := f.ty = 0x02 || f.ty = 0x03 || f.ty = 0x13 || f.ty = 0x14

/-- Whether the fields of a request are in form (Tables 3-5, 5-4, 7-6; R141, R218). -/
def wellFormed (f : Frame) : Bool :=
  let n := f.len.toNat
  let a := f.addr.toNat
  match f.ty.toNat with
  | 0x01 => 1 ≤ n && n ≤ 4096
  | 0x02 => 1 ≤ n && n ≤ 4096 && f.payload.length = n
  | 0x03 =>
    let op := atomicOpcode f
    atomicAllowed op n && a % n = 0 && f.payload.length = (if op = 0x05 then 8 + 2 * n else 8 + n)
  | 0x13 | 0x14 => a % 64 = 0 && n = 64 && f.payload.length = 64
  | _ => a % 64 = 0 && n = 0

/-- What a request asks of the home of each of its lines (R151). -/
def lineKindOf (f : Frame) : ReqKind :=
  match f.ty.toNat with
  | 0x01 => if offOf f.addr.toNat / 64 = (offOf f.addr.toNat + f.len.toNat - 1) / 64 then .read else .snap
  | 0x10 => .getS
  | 0x11 => .getM
  | 0x12 => .upgrade
  | 0x13 => .putM
  | 0x14 => .putO
  | 0x15 => .putE
  | _ => .write

/-- Admission up to the grant (Table 3-7 step 11, R13, R117, R169, R419): the first check that fails. -/
def State.plainCheck (s : State) (tenant : Nat) (f : Frame) : Option Status × State :=
  let off := offOf f.addr.toNat
  if s.boot.service = .darkHold || (isCoh f.ty.toNat && s.boot.service != .full) then (some .held, s)
  else if !wellFormed f then (some .unsupported, s)
  else if devOf f.addr.toNat != s.device then (some .notPresent, s.bump Reg.rootForeignAddr)
  else if s.accessHeld off then (some .held, s)
  else (s.grantCheck tenant off (spanOf f) (needsOf f), s)

/-- Whether an OP_ID of a connection precedes another of the same command in SEQ order. -/
def State.precedes (s : State) (c : Nat) (a b : BitVec 32) : Bool :=
  match s.conn? c with
  | none => false
  | some k =>
    let before := k.ops.takeWhile fun o => o.opId != b
    match before.find? (·.opId = a), k.ops.find? (·.opId = b) with
    | some x, some y => x.cmd = y.cmd
    | _, _ => false

/-- Whether a job is a bulk operation that writes lines of this device: FILL, COPY, REDUCE. -/
def Job.bulkWrites (j : Job) : Bool := j.isBulk && (j.ty = 1 || j.ty = 2 || j.ty = 4)

/-- Whether a bulk operation that precedes a request in its command still writes. -/
def State.bulkBefore (s : State) (c : Nat) (id : BitVec 32) : Bool :=
  s.jobs.jobs.any fun e => e.2.conn = c && e.2.bulkWrites && s.precedes c e.2.f.opId id

/-- The WRITEs and ATOMICs of a command that precede an operation and meet a test. -/
def State.writeBefore (s : State) (i : Nat) (o : Op) (p : Op → Bool) : Bool :=
  s.jobs.ops.any fun e => e.1 < i && e.2.conn = o.conn && e.2.cmd = o.cmd && e.2.src = o.src &&
    (e.2.f.ty = 0x02 || e.2.f.ty = 0x03) && !e.2.finished && p e.2

/-- Whether an earlier write of the operation's command has not been applied (R163). -/
def State.fenceHolds (s : State) (i : Nat) (o : Op) : Bool :=
  o.fence && (s.writeBefore i o (fun _ => true) || s.bulkBefore o.conn o.f.opId)

/-- Whether a write waits for an earlier write of its command that may touch the same bytes and has not begun (R162): writes
that have begun meet in the order of their arrival at the home. The range of a bulk operation is not known before it is
translated, so a write waits for every earlier one of its command (log entry 82). -/
def State.orderHolds (s : State) (i : Nat) (o : Op) : Bool :=
  let lo (x : Op) : Nat := offOf x.f.addr.toNat
  let meets (x : Op) : Bool := !x.started && lo x < lo o + spanOf o.f && lo o < lo x + spanOf x.f
  o.src = .agent && (o.f.ty = 0x02 || o.f.ty = 0x03) && (s.writeBefore i o meets || s.bulkBefore o.conn o.f.opId)

/-- Whether a bulk operation waits for an earlier write of its command (R162). -/
def State.bulkHolds (s : State) (j : Job) : Bool :=
  j.bulkWrites && j.next = 0 && (s.bulkBefore j.conn j.f.opId ||
    s.jobs.ops.any fun e => e.2.src = .agent && e.2.conn = j.conn && (e.2.f.ty = 0x02 || e.2.f.ty = 0x03) && !e.2.finished &&
      s.precedes j.conn e.2.f.opId j.f.opId)

/-- Whether an earlier COMPRESS write of the same frame has not been applied (R277). -/
def State.frameHolds (s : State) (i : Nat) (o : Op) : Bool :=
  has o.f fCompress && o.f.ty = 0x02 && s.jobs.ops.any fun e =>
    e.1 < i && has e.2.f fCompress && e.2.f.ty = 0x02 && e.2.f.addr = o.f.addr && !e.2.finished

/-- The tile of a range whose move or unmute an operation waits for takes it into its list. -/
def State.waitAtTile (s : State) (off len i : Nat) : State :=
  (tileParts off len).foldl (fun s p => s.onStore fun st =>
    { st with moves := st.moves.update (tileOf p.1) fun m =>
        { m with waiting := if m.waiting.contains i then m.waiting else m.waiting ++ [i] } }) s

/-- Lines of a write that a home cannot apply at once. -/
def State.heldLines (s : State) (l : List Nat) : List Nat :=
  l.filter fun line => (s.entry line).st != .u || (s.entry line).txn.isSome

/-- Start an admitted operation: it waits behind a fence or a tile, or its lines go to their homes. A mirrored one is
started by the lease holder (R385). -/
def State.startOp (s : State) (i : Nat) : State :=
  match s.op? i with
  | none => s
  | some o =>
    if o.started || o.finished || o.mirrored || s.fenceHolds i o || s.orderHolds i o || s.frameHolds i o then s
    else
      let off := offOf o.f.addr.toNat
      let len := (spanOf o.f)
      match s.rangeAccess off len (writesOf o.f) with
      | (.fail st, s) => s.endOp i st
      | (.wait, s) => s.waitAtTile off len i
      | (.go, s) =>
        let lines := if o.probe then s.heldLines (linesOf off len) else linesOf off len
        let s := s.onOp i fun o => { o with started := true, left := lines, finished := lines.isEmpty }
        let s := s.when (!o.probe) fun s => s.countAccess off len
        let kind := if o.src != .agent && o.f.ty = 0x01 then .snap else lineKindOf o.f
        lines.foldl (fun s line => s.homeArrive { op := i, kind := kind, line := line, at_ := s.ran }) s

/-- Bytes that a stamp charges for a request (R221). -/
def costOf (f : Frame) : Nat := if f.ty = 0x01 || f.ty = 0x02 then f.len.toNat else 64

/-- Enter a plain operation that has passed its checks: its pool entry (R220), its tag, its start. -/
def State.enterPlain (s : State) (src : OpSrc) (conn tenant : Nat) (f : Frame) (mirrored : Bool) : Option Nat × State :=
  let off := offOf f.addr.toNat
  let half := homeDie off
  match s.poolRefuses half tenant with
  | (true, s) => (none, s)
  | (false, s) =>
    let (tag, s) := s.stampTag tenant (costOf f) (s.weightOf tenant 0)
    let cmd := match s.conn? conn with
      | some k => match k.ops.find? (·.opId = f.opId) with
        | some o => o.cmd
        | none => k.cmd
      | none => 0
    let (i, s) := s.addOp { src := src, conn := conn, f := f, tenant := tenant, extent := extentOf off, half := half,
                            at_ := s.ran, cmd := cmd, tag := tag, left := linesOf off (spanOf f), fence := has f fFence,
                            mirrored := mirrored }
    let s := s.when (writesOf f) fun s => s.soil (extentOf off)
    (some i, s.startOp i)

/-- The bytes that an operation has read over its range. -/
def Op.bytes (o : Op) : List Byte :=
  let off := offOf o.f.addr.toNat
  let len := o.f.len.toNat
  (linesOf off len).flatMap fun line =>
    let (lo, n) := partOf off len line
    slice (o.got.getD line []) (lo - line * 64) n

/-- The response to a finished operation (Tables 3-5, 5-4): to a READ the LEN bytes that it asked for (log entry 83). -/
def Op.response (o : Op) (s : State) : Frame :=
  let st := o.status
  if st != .ok then respFrame o.f st []
  else match o.f.ty.toNat with
    | 0x01 => respFrame o.f .ok o.bytes
    | 0x03 => respFrame o.f .ok ((o.got.vals.headD []))
    | 0x10 | 0x11 | 0x12 =>
      let line := offOf o.f.addr.toNat / 64
      let r := respFrame o.f .ok (o.got.getD line [])
      { r with addr := s.lineAddr line ||| BitVec.ofNat 64 o.grant }
    | _ => respFrame o.f .ok []

/-- Mark an OP_ID answered without a response of the device (R146). -/
def State.markSilent (s : State) (c : Nat) (f : Frame) : State :=
  let s := s.onConn c fun k => { k with ops := k.ops.map fun x =>
    if x.opId = f.opId then { x with resp := some (respFrame f .ok []), acked := true } else x }
  match s.conn? c with
  | some k => match k.ops.find? (·.opId = f.opId) with
    | some o => s.releaseCmd c o.cmd
    | none => s
  | none => s

/-- A finished operation of an agent leaves the pool, and its response is formed. -/
def State.finishOp (s : State) (i : Nat) : State :=
  match s.op? i with
  | none => s
  | some o =>
    let r := o.response s
    let s := s.onJobs fun j => { j with ops := j.ops.del i }
    if o.silent then s.markSilent o.conn o.f else s.answer o.conn o.f r

end Sys2Proof.Machine
end

