-- ==== Sys2Proof/Machine/Translation.lean ====
section
/-! DEFINITION. Translation for engines (06_translation.md): contexts, TLBs, walks, fault batches, parked streams,
invalidation. -/

namespace Sys2Proof.Machine

/-! ### Contexts (R178, R199) -/

def State.context (s : State) (t : Nat) : XContext := s.xlat.ctx.getD t { }

/-- The core die of an engine (Table 6-3). -/
def engineDie (e : Nat) : Nat :=
  if e < 8 then e / 4 else if e < 10 then e - 8 else if e < 14 then (e - 10) / 2 else e % 2

/-- Page of a translation half. -/
def xlatPage (h : Nat) : Nat := 0x3000 + h

/-! ### TLBs (R184) -/

/-- Whether a cached translation serves an address of a tenant. -/
def TlbEntry.covers (e : TlbEntry) (t va : Nat) : Bool := e.tenant = t && e.va ≤ va && va < e.va + e.size

/-- Put an entry first, dropping what it repeats and what lies beyond n entries (least recent use). -/
def lruPut (l : List TlbEntry) (e : TlbEntry) (n : Nat) : List TlbEntry := (e :: l.filter (· != e)).take n

/-- Enter a translation in the TLB of an engine of Table 6-3; job ingress (20) has none. -/
def State.tlbPut (s : State) (engine : Nat) (e : TlbEntry) : State :=
  if engine < 20 then s.onXlat fun x => { x with tlbs := x.tlbs.put engine (lruPut (x.tlbs.getD engine []) e 128) } else s

/-- The set of a half's second level in which an entry stands: one of 4,096 (R184, log entry 26). -/
def TlbEntry.set (e : TlbEntry) : Nat := Config.l2Set e.tenant e.va e.size % 4096

/-- Put an entry first; of its set, the 8 most recently used stay (R184). -/
def waysPut (l : List TlbEntry) (e : TlbEntry) : List TlbEntry :=
  let rest := l.filter (· != e)
  let ways := (rest.filter (·.set = e.set)).take 7
  e :: rest.filter fun x => x.set != e.set || ways.contains x

/-- Enter a translation in the second level of a half. -/
def State.l2Put (s : State) (h : Nat) (e : TlbEntry) : State :=
  s.onXlat fun x => { x with l2 := x.l2.put h (waysPut (x.l2.getD h []) e) }

/-- A cached entry with an uncorrectable error is met: its half drops it, XLAT_ECC counts, source 282 is raised (R197). -/
def State.dropSpoilt (s : State) (h : Nat) (e : TlbEntry) : State :=
  let s := s.onXlat fun x =>
    { x with tlbs := x.tlbs.map (fun (k, l) => (k, if engineDie k = h then l.filter (· != e) else l)),
             l2 := x.l2.update h fun l => l.filter (· != e),
             spoilt := x.spoilt.filter (· != (h, e)) }
  (s.bump (Reg.xlXlatEcc (xlatPage h))).raise 282

/-- Look an address up in the TLB of an engine and in its half (R184, R198). A bad entry is no hit: a fresh walk recovers
it (R197). -/
def State.tlbLook (s : State) (engine t va : Nat) : Option TlbEntry × State :=
  let h := engineDie engine
  match (s.xlat.tlbs.getD engine []).find? (·.covers t va) with
  | some e =>
    if s.xlat.spoilt.contains (h, e) then (none, s.dropSpoilt h e)
    else
      (some e, (s.tlbPut engine e).onXlat fun x => { x with tlbHits := x.tlbHits.put engine (satAdd 32 (x.tlbHits.getD engine 0) 1) })
  | none =>
    let s := s.when (engine < 20) fun s => s.onXlat fun x =>
      { x with tlbMisses := x.tlbMisses.put engine (satAdd 32 (x.tlbMisses.getD engine 0) 1) }
    let s := s.bump64 (Reg.xlL2Lookups (xlatPage h))
    match (s.xlat.l2.getD h []).find? (·.covers t va) with
    | some e =>
      if s.xlat.spoilt.contains (h, e) then (none, s.dropSpoilt h e)
      else (some e, ((s.l2Put h e).tlbPut engine e).bump64 (Reg.xlL2Hits (xlatPage h)))
    | none => (none, s)

/-- Whether a cached translation gives the right that an access needs. -/
def TlbEntry.allows (e : TlbEntry) : Access → Bool
  | .read => e.read
  | .write => e.write
  | .atomic => e.atomic

/-! ### Fault batches (R188 to R191) -/

/-- The ID of the batch in a slot. -/
def batchId (slot : Nat) (b : Batch) : Nat := b.gen % 64 * 1024 + slot

/-- Close a COLLECTING batch (R188). -/
def State.closeBatch (s : State) (slot : Nat) : State :=
  match s.xlat.batches.get? slot with
  | none => s
  | some b =>
    if b.st = .collecting then
      let s := s.onXlat fun x => { x with batches := x.batches.put slot { b with st := .closed, closedAt := s.now } }
      s.raise 280 { arg0 := batchId slot b + b.tenant * 65536, arg1 := b.recs.length }
    else s

/-- The slot in which a tenant's next fault is recorded, opened if need be; none at a limit (R188). -/
def State.batchFor (s : State) (t : Nat) : Option Nat × State :=
  match s.xlat.batches.find? fun e => e.2.st = .collecting && e.2.tenant = t with
  | some (k, _) => (some k, s)
  | none =>
    let mine := s.xlat.batches.count fun _ b => b.st != .free && b.tenant = t
    let free := (List.range 1024).find? fun k => match s.xlat.batches.get? k with
      | some b => b.st = .free
      | none => true
    match free with
    | some k =>
      if 4 ≤ mine then (none, s)
      else
        let gen := ((s.xlat.batches.getD k { }).gen + 1) % 64
        let b : Batch := { gen := gen, st := .collecting, tenant := t, firstAt := s.ran }
        (some k, s.onXlat fun x => { x with batches := x.batches.put k b })
    | none => (none, s)

/-- Record a fault (R188, R189): the slot of its record. -/
def State.recordFault (s : State) (t : Nat) (r : FaultRec) : Option Nat × State :=
  match s.batchFor t with
  | (none, s) => (none, s)
  | (some k, s) =>
    let b := s.xlat.batches.getD k { }
    let same (q : FaultRec) : Bool := q.vpn = r.vpn && q.kind = r.kind && q.access = r.access
    if b.recs.any same then
      let recs := b.recs.map fun q => if same q then { q with count := min (q.count + 1) 127 } else q
      (some k, s.onXlat fun x => { x with batches := x.batches.put k { b with recs := recs } })
    else
      let b := { b with recs := b.recs ++ [r] }
      let s := (s.onXlat fun x => { x with batches := x.batches.put k b }).bump Reg.xlFaultsRecorded
      (some k, if bits (s.reg Reg.xlFaultCtrl) 14 8 ≤ b.recs.length then s.closeBatch k else s)

/-- The key of a stream of a job among its times of first fault. -/
def Waiter.key (w : Waiter) : Nat := w.engine * 256 + w.stream

/-- Park a stream whose walk has faulted; a stream that faults again keeps the time of its first fault, whatever it did in
between (R187, R191). -/
def State.park (s : State) (t va : Nat) (w : Waiter) (kind level : Nat) : State :=
  match s.jobs.jobs.get? w.job with
  | none => s
  | some j =>
    let mine (p : Parked) : Bool := p.who.job = w.job && p.who.unit = w.unit && p.who.stream = w.stream
    let since := j.faultAt.getD w.key s.now
    let s := s.onJobs fun x => { x with jobs := x.jobs.update w.job fun y => { y with faultAt := y.faultAt.put w.key since } }
    let (fv, s) := if w.engine = 20 then s.draw else (w.engine, s)
    let r : FaultRec := { kind := kind, access := w.access, level := level, unit := fv % 128, stream := w.stream,
                          opId := j.f.opId, vpn := va / 4096 }
    let (slot, s) := s.recordFault t r
    let p : Parked := { who := w, va := va, since := since, slot := slot }
    s.onXlat fun x => { x with parked := x.parked.filter (fun q => !mine q) ++ [p] }

/-- A job completes FAULTED, and counts once (R191, R200): a job that has come to FAULTED may meet a fault again as it
writes its result. Work of an engine's own is no job. -/
def State.faultJob (s : State) (i : Nat) : State :=
  match s.jobs.jobs.get? i with
  | none => s
  | some j =>
    if j.stopped.isSome then s
    else
      let counts := j.ty != 0 && !(j.phase = .done && j.status = .faulted)
      (s.when counts fun s => (s.bump Reg.xlFaultedJobs).raiseQuiet 281).stopJob i .faulted

/-- An access of a tenant whose context is disabled: the job completes FAULTED at once, without a record (R178). -/
def State.noRoot (s : State) (i : Nat) : State := (s.bump Reg.xlNoRoot).faultJob i

/-! ### Walks (R179 to R186) -/

/-- The index of an address at a level (Table 6-1). -/
def walkIndex (rootBits level va : Nat) : Nat :=
  match level with
  | 1 => (va / 2 ^ 39) % 2 ^ rootBits
  | 2 => bits va 38 30
  | 3 => bits va 29 21
  | _ => bits va 20 12

/-- Bytes that an entry of a level covers. -/
def levelSize (level : Nat) : Nat :=
  match level with
  | 1 => 2 ^ 39
  | 2 => 2 ^ 30
  | 3 => 2 ^ 21
  | _ => 4096

def State.walk? (s : State) (n : Nat) : Option Walk := s.xlat.walks.get? n

def State.onWalk (s : State) (n : Nat) (f : Walk → Walk) : State :=
  s.onXlat fun x => { x with walks := x.walks.update n f }

def State.endWalk (s : State) (n : Nat) : State := s.onXlat fun x => { x with walks := x.walks.del n }

/-- A walk faults: every stream that waits for it parks. -/
def State.walkFault (s : State) (n kind level : Nat) : State :=
  match s.walk? n with
  | none => s
  | some w => w.waiters.foldl (fun s q => s.park w.tenant w.va q kind level) (s.endWalk n)

/-- Walks of a half under way. -/
def State.walksActive (s : State) (h : Nat) : Nat := s.xlat.walks.count fun _ w => w.started && w.half = h

/-- Whether a walker is free for a walk (R185). -/
def State.walkerFree (s : State) (w : Walk) : Bool :=
  s.walksActive w.half < 256 &&
    (s.xlat.walks.count fun _ x => x.started && x.half = w.half && x.engine = w.engine) < 32

/-- Start a walk: at the deepest cached pointer that covers its address, or at the root (R178, R181, R184). A context that
has been disabled serves no walk. -/
def State.startWalk (s : State) (n : Nat) : State :=
  match s.walk? n with
  | none => s
  | some w =>
    let c := s.context w.tenant
    if !c.en then w.waiters.foldl (fun s q => s.noRoot q.job) (s.endWalk n)
    else
    let s := s.bump (Reg.xlWalks (xlatPage w.half))
    if 2 ^ (39 + c.rootBits) ≤ w.va then s.walkFault n 1 1
    else if devOf c.root != s.device then s.walkFault n 3 1
    else
      let hits := (s.xlat.ptrs.getD w.half []).filter fun p => p.tenant = w.tenant && p.va ≤ w.va && w.va < p.va + p.size
      let best := hits.foldl (fun (b : Option PtrEntry) p => match b with
        | none => some p
        | some q => if q.level < p.level then some p else some q) none
      match best with
      | some p => s.onWalk n fun w => { w with started := true, level := p.level + 1, table := p.table }
      | none => s.onWalk n fun w => { w with started := true, level := 1, table := c.root }

/-- Whether a half that an engine misses in is asked to stop, or is being reset (R44, R197). -/
def State.halfStops (s : State) (engine : Nat) : Bool :=
  let p := xlatPage (engineDie engine)
  s.stopping p || s.ctl.resetting.contains p

/-- The translation that a stream of a unit waited for is no longer awaited. -/
def State.unwait (s : State) (q : Waiter) : State :=
  s.onJobs fun j => { j with jobs := j.jobs.update q.job fun x =>
    { x with blocked := x.blocked.map fun b =>
        if b.unit = q.unit then { b with misses := b.misses.filter fun m => match m with
          | .page _ _ st _ => st != q.stream
          | _ => true } else b } }

/-- A miss in a half that starts no walks: its job completes BUSY (R197). Work of an engine's own meets the same when it is
run again. -/
def State.missBusy (s : State) (q : Waiter) : State :=
  match s.jobs.jobs.get? q.job with
  | none => s
  | some j => if j.ty = 0 then s.unwait q else s.stopJob q.job .busy

/-- A TLB miss: it joins the walk of its page, or begins one, which waits when no walker is free (R185). The walk's table
reads carry the tag that the access would be stamped with (R221, log entry 89). -/
def State.walkFor (s : State) (t va : Nat) (q : Waiter) : State :=
  let h := engineDie q.engine
  if s.halfStops q.engine then s.missBusy q
  else match s.xlat.walks.find? fun e => e.2.half = h && e.2.tenant = t && e.2.va / 4096 = va / 4096 with
  | some (n, _) => s.onWalk n fun w => { w with waiters := if w.waiters.contains q then w.waiters else w.waiters ++ [q] }
  | none =>
    let n := s.xlat.nextWalk
    let w : Walk := { half := h, tenant := t, va := va, engine := q.engine, waiters := [q], tag := s.nextTag t }
    let free := s.walkerFree w
    let s := s.onXlat fun x => { x with walks := x.walks.put n w, nextWalk := n + 1 }
    if free then s.startWalk n else s.bump (Reg.xlWalkWaits (xlatPage h))

/-- A walk ends with a translation: it is cached, and each stream goes on if the leaf serves it (R181, R183). -/
def State.walkEnd (s : State) (n : Nat) (e : TlbEntry) (level : Nat) : State :=
  match s.walk? n with
  | none => s
  | some w =>
    let s := (s.endWalk n).l2Put w.half e
    w.waiters.foldl (fun s q =>
      if !e.allows q.access then s.park w.tenant w.va q 2 level
      else if devOf e.pa != s.device && !q.peerCopy then s.park w.tenant w.va q 4 level
      else
        let s := s.tlbPut q.engine e
        let s := s.onXlat fun x => { x with parked := x.parked.filter fun p =>
          !(p.who.job = q.job && p.who.unit = q.unit && p.who.stream = q.stream) }
        (s.onJobs fun j => { j with jobs := j.jobs.update q.job fun x => { x with held := e :: x.held } }).unwait q) s

/-- What a table entry says (R180, R181): the walk descends, ends or faults. -/
def State.walkEntry (s : State) (n v : Nat) : State :=
  match s.walk? n with
  | none => s
  | some w =>
    let leaf := bit v 1
    let addr := v / 4096 * 4096
    if !bit v 0 then s.walkFault n 1 w.level
    else if (leaf && w.level = 1) || (!leaf && w.level = 4) then s.walkFault n 3 w.level
    else if !leaf then
      if devOf addr != s.device then s.walkFault n 3 w.level
      else
        let size := levelSize w.level
        let p : PtrEntry := { tenant := w.tenant, level := w.level, va := w.va / size * size, size := size, table := addr }
        let s := s.onXlat fun x =>
          { x with ptrs := x.ptrs.put w.half ((p :: (x.ptrs.getD w.half []).filter (· != p)).take 131072) }
        s.onWalk n fun w => { w with level := w.level + 1, table := addr, reading := none }
    else
      let size := if w.level = 4 && bit v 5 then 65536 else levelSize w.level
      if addr % size != 0 then s.walkFault n 3 w.level
      else s.walkEnd n { tenant := w.tenant, va := w.va / size * size, size := size, pa := addr, read := bit v 2,
                         write := bit v 3, atomic := bit v 4 } w.level

/-- A table read has ended: its data, or TABLE_ERROR (R181). -/
def State.walkTake (s : State) (n : Nat) (o : Op) : State :=
  if o.status = .ok then s.walkEntry n (leNat o.bytes) else s.walkFault n 5 ((s.walk? n).elim 0 (·.level))

/-- Reads of a mirrored extent are handed over to the lease holder (R384). -/
def State.mirrorAway (s : State) (e : Nat) : Bool := (s.twin.leases.getD e { }).st = .fenced

/-- Reads of a mirrored extent are answered HELD (R384). -/
def State.mirrorHeld (s : State) (e : Nat) : Bool :=
  (s.twin.leases.getD e { }).st = .none || (s.twin.leases.getD e { }).st = .conflict

/-- A table read: a VOLATILE read of 8 bytes at the home, admitted with tenant 0's rights or the tenant's own (R181). -/
def State.walkRead (s : State) (n : Nat) : State :=
  match s.walk? n with
  | none => s
  | some w =>
    if !w.started || w.reading.isSome then s
    else
      let a := w.table + 8 * walkIndex (s.context w.tenant).rootBits w.level w.va
      let off := offOf a
      let s := s.bump (Reg.xlWalkReads (xlatPage w.half))
      let needs : Needs := { read := true }
      if (s.grantCheck 0 off 8 needs).isSome && (s.grantCheck w.tenant off 8 needs).isSome then s.walkFault n 5 w.level
      else if (s.extent (extentOf off)).mirrored && s.mirrorHeld (extentOf off) then s.walkFault n 5 w.level
      else
        let f : Frame := { ty := 0x01, flags := BitVec.twoPow 12 fVolatile, addr := BitVec.ofNat 64 a, len := 8 }
        let (i, s) := s.addOp { src := .walk n, conn := 0, f := f, tenant := w.tenant, extent := extentOf off,
                                half := homeDie off, at_ := s.ran, tag := w.tag, left := linesOf off 8,
                                mirrored := (s.extent (extentOf off)).mirrored && s.mirrorAway (extentOf off) }
        let s := (s.onWalk n fun w => { w with reading := some i }).startOp i
        match s.op? i with
        | some o =>
          if o.finished then (s.onJobs fun j => { j with ops := j.ops.del i }).walkTake n o else s
        | none => s

/-- WALK_START: the oldest waiting walk of a half for which a walker is free (R185). -/
def walkStartOp (h : Nat) (s : State) : State :=
  match s.xlat.walks.find? fun e => !e.2.started && e.2.half = h && s.walkerFree e.2 with
  | some (n, _) => s.startWalk n
  | none => s

/-! ### Batches answered (R190, R191) -/

/-- Parked streams that meet a test walk again. -/
def State.rewalk (s : State) (p : Parked → Bool) : State :=
  let again := s.xlat.parked.filter p
  let s := s.onXlat fun x => { x with parked := x.parked.map fun q => if p q then { q with walking := true, slot := none } else q }
  again.foldl (fun s q => match s.jobs.jobs.get? q.who.job with
    | some j => s.walkFor j.tenant q.va q.who
    | none => s) s

/-- A slot is freed: the streams parked without a record walk again (R188). -/
def State.freeSlot (s : State) (slot : Nat) : State :=
  let s := s.onXlat fun x => { x with batches := x.batches.update slot fun b => { b with st := .free, recs := [] } }
  s.rewalk fun p => p.slot.isNone && !p.walking

/-- FAULT_RESUME (R190). -/
def State.faultResume (s : State) (id action : Nat) : Status × State :=
  let slot := id % 1024
  let bad (st : Status) : Status × State := (st, (s.bump Reg.xlResumeBad).setReg Reg.xlFaultResumeStat st.code)
  let done (s : State) : Status × State := (.ok, s.setReg Reg.xlFaultResumeStat 0)
  match s.xlat.batches.get? slot with
  | none => bad .notPresent
  | some b =>
    if b.st != .closed || b.gen % 64 != id / 1024 % 64 then bad .notPresent
    else match action with
      | 0 =>
        let mine := fun (p : Parked) => p.slot == some slot
        done ((s.rewalk mine).freeSlot slot)
      | 1 =>
        let jobs := (s.xlat.parked.filter fun p => p.slot == some slot).map (·.who.job)
        done ((jobs.foldl (fun s i => s.faultJob i) s).freeSlot slot)
      | _ => bad .unsupported

/-- FAULT_BATCH_CLOSE: CLOSE_US after the batch's first record (R188). -/
def faultBatchCloseOp (slot : Nat) (s : State) : State :=
  match s.xlat.batches.get? slot with
  | some b =>
    if b.st = .collecting && s.since b.firstAt (bits (s.reg Reg.xlFaultCtrl) 7 0 * 1000) then s.closeBatch slot else s
  | none => s

/-- FAULT_LIMIT_CHECK at the last whole millisecond of TIME (R191). -/
def faultLimitCheckOp (s : State) : State :=
  let at_ := s.now / 1000000 * 1000000
  let limit := bits (s.reg Reg.xlFaultCtrl) 27 16 * 1000000
  let late := s.xlat.parked.filter fun p => !p.walking && p.since + limit ≤ at_
  late.foldl (fun s p => s.faultJob p.who.job) s

/-! ### Invalidation (R193 to R196, R199) -/

/-- Drop every cached translation and pointer of a tenant that overlaps a range, and start its walks again. -/
def State.dropRange (s : State) (t lo hi : Nat) : State :=
  let hit (tenant va size : Nat) : Bool := tenant = t && va < hi && lo < va + size
  let s := s.onXlat fun x =>
    { x with tlbs := x.tlbs.map (fun (k, l) => (k, l.filter fun e => !hit e.tenant e.va e.size)),
             l2 := x.l2.map (fun (k, l) => (k, l.filter fun e => !hit e.tenant e.va e.size)),
             ptrs := x.ptrs.map (fun (k, l) => (k, l.filter fun e => !hit e.tenant e.va e.size)),
             spoilt := x.spoilt.filter fun e => !hit e.2.tenant e.2.va e.2.size }
  let s := s.onJobs fun j => { j with jobs := j.jobs.map fun (i, x) =>
    (i, { x with held := x.held.filter (fun e => !hit e.tenant e.va e.size),
                 kept := x.held.filter (fun e => hit e.tenant e.va e.size) ++ x.kept }) }
  let walks := (s.xlat.walks.filter fun e => e.2.started && e.2.tenant = t).map (·.1)
  walks.foldl (fun s n => (s.onWalk n fun w => { w with reading := none }).startWalk n) s

/-- Drop every translation and every walk (R196): work of an engine's own that waited for one runs again in full service. -/
def State.dropAll (s : State) : State :=
  let s := s.onXlat fun x => { x with tlbs := [], l2 := [], ptrs := [], walks := [], spoilt := [] }
  s.onJobs fun j => { j with jobs := j.jobs.map fun (i, x) =>
    (i, { x with held := [], kept := [], blocked := x.blocked.map fun b => { b with misses := b.misses.filter fun m => match m with
      | .page _ _ _ _ => false
      | _ => true } }) }

/-- Whether an access went through a translation that overlaps a range. -/
def usedIn (lo hi : Nat) (via : Option (Nat × Nat)) : Bool := via.any fun (va, size) => va < hi && lo < va + size

/-- The engine accesses of a tenant in flight whose translations overlap a range (R194). -/
def State.usersOf (s : State) (t lo hi : Nat) : List Nat :=
  (s.jobs.ops.filter fun o => o.2.tenant = t && usedIn lo hi o.2.via && (match o.2.src with
    | .engine _ _ => true
    | _ => false)).map (·.1)

/-- The key of an outstanding peer write. -/
def peerKey (k : Nat) (opId : BitVec 32) : Nat := k * 2 ^ 32 + opId.toNat

/-- The peer writes of a tenant in flight whose translations overlap a range (R194). -/
def State.peerUsersOf (s : State) (t lo hi : Nat) : List Nat :=
  s.jobs.peers.flatMap fun (k, x) => (x.writes.filter fun w =>
    usedIn lo hi w.via && (s.jobs.jobs.get? w.job).any fun j => j.tenant = t).map fun w => peerKey k w.opId

/-- Whether an access or a peer write that an INVAL waits for is still under way. -/
def State.invalHeld (s : State) (w : InvalWait) : Bool :=
  (w.ops.any fun o => (s.op? o).isSome) ||
    s.jobs.peers.any fun (k, x) => x.writes.any fun p => w.peers.contains (peerKey k p.opId)

/-- INVAL of a connection (R193, R194, R196). -/
def State.takeInval (s : State) (c : Nat) (f : Frame) : State :=
  match s.conn? c with
  | none => s
  | some k =>
    let start := f.addr.toNat
    let len := beField f.payload 0 8
    let other := bit (beField f.payload 8 2) 0
    let target := if other then beField f.payload 10 2 % 4096 else k.tenant
    if s.boot.service = .darkHold then s.respond c f .held
    else if f.len != 16 || f.payload.length != 16 || start % 4096 != 0 || len % 4096 != 0 || 2 ^ 57 ≤ start ||
        2 ^ 57 < start + len then s.respond c f .unsupported
    else if other && k.tenant != 0 then s.respond c f .denied
    else if s.boot.service = .greyscale then (s.bump Reg.xlInvals).respond c f .ok
    else
      let lo := if len = 0 then 0 else start
      let hi := if len = 0 then 2 ^ 57 else start + len
      let s := s.dropRange target lo hi
      let w : InvalWait := { conn := c, f := f, since := s.ran, ops := s.usersOf target lo hi, peers := s.peerUsersOf target lo hi }
      s.onXlat fun x => { x with invals := x.invals.put x.nextInval w, nextInval := x.nextInval + 1 }

/-- INVAL_ANSWER: every access that used a dropped translation has completed, and the INVAL, or the CTL_WR that carried
XLAT_APPLY, is answered (R194, R199). -/
def invalAnswerOp (i : Nat) (s : State) : State :=
  match s.xlat.invals.get? i with
  | none => s
  | some w =>
    if s.invalHeld w then s
    else
      let s := s.onXlat fun x => { x with invals := x.invals.del i }
      let ns := s.ran - w.since
      let s := s.when (!w.apply) fun s => (s.bump Reg.xlInvals).when (s.reg Reg.xlInvalMaxNs < ns) fun s => s.setReg Reg.xlInvalMaxNs (min ns (2 ^ 32 - 1))
      s.respond w.conn w.f .ok

/-- XLAT_APPLY (R178, R199); the CTL_WR that carries it waits for the accesses in flight, as an INVAL does. The answer says
whether it need not wait. -/
def State.xlatApply (s : State) (wait : Option (Nat × Frame)) : Bool × State :=
  let t := s.reg Reg.xlXlatTenantSel % 4096
  let ctrl := ((s.xlat.pendCtrl.get? t).getD 0).toNat
  let root := ((s.xlat.pendRoot.get? t).getD 0).toNat
  let en := bit ctrl 0
  let rb := bits ctrl 12 8
  if en && (rb = 0 || 18 < rb || devOf root != s.device) then (true, s.setReg Reg.xlXlatResult Status.unsupported.code)
  else
    let c : XContext := { en := en, rootBits := rb, root := root / 4096 * 4096 }
    let s := s.onXlat fun x => { x with ctx := x.ctx.put t c }
    let s := (s.dropRange t 0 (2 ^ 57)).setReg Reg.xlXlatResult 0
    let ops := s.usersOf t 0 (2 ^ 57)
    let peers := s.peerUsersOf t 0 (2 ^ 57)
    match wait with
    | some (c, f) =>
      if ops.isEmpty && peers.isEmpty then (true, s)
      else
        let w : InvalWait := { conn := c, f := f, since := s.ran, ops := ops, peers := peers, apply := true }
        (false, s.onXlat fun x => { x with invals := x.invals.put x.nextInval w, nextInval := x.nextInval + 1 })
    | none => (true, s)

end Sys2Proof.Machine
end

