-- ==== Sys2Proof/Machine/Engine.lean ====
section
/-! DEFINITION. How engines work: a work unit of a job (a tile, a piece, a query, a part of a bulk operation) reads,
computes and writes in one go. Where it misses a translation, or a line is held by an agent, it stops without a write; its
other streams make their reads meanwhile. Once what it waits for has come it goes over its streams again: what they have
read stands in staging, so that no access is made twice and each stream has kept its place (R185, R187). -/

namespace Sys2Proof.Machine

/-- Why a work unit stops: it waits, or it fails with a status. -/
inductive Halt where
  | wait (m : List Miss)
  | fail (st : Status)
  deriving DecidableEq, Repr

/-- A part of a work unit. -/
abbrev Eng := ExceptT Halt (StateM State)

/-- Who works: the job, the unit of work, the engine (Table 6-3), and the array of a query. -/
structure Ctx where
  job : Nat
  unit : Nat
  engine : Nat
  array : Option Nat := none
  deriving DecidableEq, Repr

def State.job? (s : State) (i : Nat) : Option Job := s.jobs.jobs.get? i

def State.onJob (s : State) (i : Nat) (f : Job → Job) : State := s.onJobs fun j => { j with jobs := j.jobs.update i f }

/-- The job that a context works for. -/
def Ctx.theJob (c : Ctx) : Eng Job := do
  match (← get).job? c.job with
  | some j => pure j
  | none => throw (.fail .reset)

/-- End the unit with a status. -/
def halt {α : Type} (st : Status) : Eng α := throw (.fail st)

/-! ### Translation -/

/-- A range by pages of 4 KiB: the address and length of each part. -/
def pageParts (va len : Nat) : List (Nat × Nat) :=
  if len = 0 then []
  else
    let first := va / 4096
    (List.range ((va + len - 1) / 4096 + 1 - first)).map fun i =>
      let lo := max va ((first + i) * 4096)
      (lo, min (va + len) ((first + i + 1) * 4096) - lo)

/-- FLAGS.VOLATILE of a descriptor (Table 7-1). -/
def Job.isVolatile (j : Job) : Bool := bit j.flags 0

/-- Where a unit's copy of a line stands in the job's staging. A job with VOLATILE shares no staged line between its units:
each unit's reads are made at the homes (R165; log entry 88). -/
def Job.stageKey (j : Job) (unit line : Nat) : Nat := if j.isVolatile then (unit + 1) * 2 ^ 42 + line else line

/-- Whether a unit has read a line, or learnt that it fails. -/
def Job.hasRead (j : Job) (unit line : Nat) : Bool :=
  (j.staging.get? (j.stageKey unit line)).isSome || (j.bad.get? (j.stageKey unit line)).isSome

/-- The translation that a stream has made for an address: one that it holds, or, for a line that it has read, one that has
been dropped since. -/
def State.heldFor (s : State) (j : Job) (c : Ctx) (va : Nat) (access : Access) (peer : Bool) : Option TlbEntry :=
  let fits (e : TlbEntry) : Bool := e.covers j.tenant va && e.allows access && (devOf e.pa = s.device || peer)
  match j.kept.find? fun e => access = .read && fits e && j.hasRead c.unit (offOf (e.pa + (va - e.va)) / 64) with
  | some e => some e
  | none => j.held.find? fits

/-- A stream misses: its walk is begun or joined, or its half begins none and the job completes BUSY (R185, R197). -/
def Ctx.miss (c : Ctx) (t va : Nat) (access : Access) (stream : Nat) (peer : Bool) : Eng Nat := do
  let s ← get
  let w : Waiter := { job := c.job, unit := c.unit, engine := c.engine, stream := stream, access := access, peerCopy := peer }
  if s.halfStops c.engine then
    if c.engine != 20 then set (s.missBusy w)
    halt .busy
  else
    set (s.walkFor t va w)
    throw (.wait [.page va access stream peer])

/-- Translate one address for a stream (R178, R181, R185, R197); the job keeps the page that its next access goes through. -/
def Ctx.xlat (c : Ctx) (va : Nat) (access : Access) (stream : Nat) (peer : Bool) : Eng Nat := do
  let j ← c.theJob
  let s ← get
  let take (e : TlbEntry) : Eng Nat := do
    modify fun s => s.onJob c.job fun x => { x with via := some (e.va, e.size) }
    pure (e.pa + (va - e.va))
  match s.heldFor j c va access peer with
  | some e => take e
  | none =>
    if !(s.context j.tenant).en then
      set (s.noRoot c.job)
      halt .faulted
    let (hit, s) := s.tlbLook c.engine j.tenant va
    set s
    match hit with
    | some e =>
      if e.allows access && (devOf e.pa = s.device || peer) then
        set (s.onJob c.job fun x => { x with held := e :: x.held })
        take e
      else c.miss j.tenant va access stream peer
    | none => c.miss j.tenant va access stream peer

/-- A range that a unit will access. -/
structure Span where
  va : Nat
  len : Nat
  access : Access := .read
  stream : Nat := 0
  peer : Bool := false
  deriving DecidableEq, Repr

/-! ### Accesses at the homes (R117, R151, R165, R166, R221) -/

/-- The checks of an engine access (R117, R171, R384). -/
def State.engineCheck (s : State) (t off len : Nat) (n : Needs) : Option Status :=
  if s.accessHeld off then some .held
  else match s.grantCheck t off len n with
    | some st => some st
    | none => if (s.extent (extentOf off)).mirrored && !n.write && s.mirrorHeld (extentOf off) then some .busy else none

/-- Whether a write to a range meets no tile that it must wait for. -/
def State.tilesFree (s : State) (off len : Nat) : Bool := match (s.rangeAccess off len true).1 with
  | .go => true
  | _ => false

/-- Enter an access of an engine as an operation without a pool entry; pos is where its failures are kept. A probe asks of the
lines that a home cannot write at once whether it can. -/
def Ctx.enter (c : Ctx) (j : Job) (f : Frame) (pos : Nat) (ref : Option PalRef := none) (probe : Bool := false) : Eng Nat := do
  let s ← get
  let off := offOf f.addr.toNat
  let (tag, s) := s.stampTag j.tenant f.len.toNat (s.weightOf j.tenant j.weight)
  let s := s.onJob c.job fun x => { x with extents := if x.extents.contains (extentOf off) then x.extents else extentOf off :: x.extents }
  let via := (s.job? c.job).bind (·.via)
  let (i, s) := s.addOp { src := .engine c.job c.unit, conn := j.conn, f := f, tenant := j.tenant, extent := extentOf off,
                          half := homeDie off, at_ := s.ran, cmd := pos, tag := tag, ref := ref, via := via, probe := probe,
                          left := linesOf off f.len.toNat, mirrored := (s.extent (extentOf off)).mirrored && (f.ty = 0x02 || s.mirrorAway (extentOf off)) }
  let s := s.when (writesOf f) fun s => s.soil (extentOf off)
  set (s.startOp i)
  pure i

/-- Bytes of a job's staging. -/
def Job.staged (j : Job) (unit off len : Nat) : Option (List Byte) :=
  let lines := linesOf off len
  if lines.all fun l => (j.staging.get? (j.stageKey unit l)).isSome then
    some (lines.flatMap fun l =>
      let (lo, n) := partOf off len l
      slice (j.staging.getD (j.stageKey unit l) []) (lo - l * 64) n)
  else none

/-- Bytes of an access that lie in lines which did not fail. -/
def Op.okBytes (o : Op) : Nat :=
  let off := offOf o.f.addr.toNat
  let len := o.f.len.toNat
  ((linesOf off len).filter fun l => !o.fails.any fun e => e.1 = l).foldl (fun n l => n + (partOf off len l).2) 0

/-- What a finished engine access leaves in its job: read lines in staging, failed lines by their place, what a probe came to;
a bulk engine counts the bytes. An access that ends TIMEOUT or RESET stops its job (R213, R249, R309, R332, R367). -/
def State.engineOpDone (s : State) (i : Nat) : State :=
  match s.op? i with
  | none => s
  | some o =>
    let s := s.onJobs fun j => { j with ops := j.ops.del i }
    match o.src with
    | .engine job unit =>
      let off := offOf o.f.addr.toNat
      let page := (s.job? job).bind fun j => if j.isBulk && !o.probe then some (bulkEnginePage (j.engine - 16)) else none
      let s := match page with
        | some p => s.bump64 (if o.f.ty = 0x01 then Reg.beBytesRead p else Reg.beBytesWritten p) o.okBytes
        | none => s
      let s := match o.fails.find? fun e => e.2 = .timeout || e.2 = .reset with
        | some e => s.stopJob job e.2
        | none => s
      s.onJob job fun x =>
        let x : Job := { x with blocked := x.blocked.map fun b => { b with misses := b.misses.filter (· != .op i) } }
        if o.probe then
          if o.status = .ok || (x.tries.get? o.cmd).isSome then x else { x with tries := x.tries.put o.cmd o.status }
        else if o.f.ty = 0x01 then
          { x with staging := o.got.foldl (fun t e => t.put (x.stageKey unit e.1) e.2) x.staging,
                   bad := o.fails.foldl (fun t e => t.put (x.stageKey unit e.1) e.2) x.bad }
        else
          { x with written := x.written + o.okBytes,
                   fails := o.fails.foldl (fun t e =>
                     let k := o.cmd + (e.1 * 64 - off)
                     if (t.get? k).isSome then t else t.put k e.2) x.fails }
    | _ => s

/-- Read the lines of a range within one page into the job's staging, or learn which of them fail; the access, where it is
still under way. -/
def Ctx.fill (c : Ctx) (pa len : Nat) : Eng (Option Nat) := do
  let j ← c.theJob
  if (linesOf (offOf pa) len).all fun l => j.hasRead c.unit l then pure none
  else
    let i ← c.enter j { ty := 0x01, addr := BitVec.ofNat 64 pa, len := BitVec.ofNat 16 len } 0
    match (← get).op? i with
    | some o =>
      if o.finished then
        modify fun s => s.engineOpDone i
        pure none
      else pure (some i)
    | none => halt .reset

/-- Bring the lines of a range within one page into the job's staging, and wait for them. -/
def Ctx.stage (c : Ctx) (pa len : Nat) : Eng Unit := do
  match ← c.fill pa len with
  | some i => throw (.wait [.op i])
  | none => pure ()

/-- The streams that earlier units of a job still have stopped at a miss. Only the work that runs its units in order has
streams that lead from one unit to the next (R185). -/
def Job.stoppedBefore (j : Job) (unit : Nat) : List Nat :=
  if (1 ≤ j.ty && j.ty ≤ 4) || j.ty = 0x11 || j.ty = 0x202 then
    (j.blocked.filter (·.unit < unit)).flatMap fun b => b.misses.filterMap fun m => match m with
      | .page _ _ st _ | .behind st => some st
      | .op _ => none
  else []

/-- Translate every page of the ranges before any of them is used. Streams go on past one another's misses: each stops at its
own first, and those that meet none make their reads while the others wait (R185, R187). -/
def Ctx.prepare (c : Ctx) (spans : List Span) : Eng Unit := do
  let before := (← c.theJob).stoppedBefore c.unit
  let mut stopped : List Nat := (spans.map (·.stream)).eraseDups.filter before.contains
  let mut misses : List Miss := stopped.map Miss.behind
  for sp in spans do
    for (va, _) in pageParts sp.va sp.len do
      if !stopped.contains sp.stream then
        let s ← get
        match (c.xlat va sp.access sp.stream sp.peer).run s with
        | (.ok _, s) => set s
        | (.error (.wait m), s) =>
          set s
          misses := misses ++ m
          stopped := sp.stream :: stopped
        | (.error h, s) =>
          set s
          throw h
  if misses.isEmpty then pure ()
  else
    for sp in spans do
      if sp.access = .read && !stopped.contains sp.stream then
        for (va, n) in pageParts sp.va sp.len do
          let pa ← c.xlat va .read sp.stream sp.peer
          let j ← c.theJob
          if ((← get).engineCheck j.tenant (offOf pa) n { read := true }).isNone then
            match ← c.fill pa n with
            | some i => misses := misses ++ [.op i]
            | none => pure ()
    throw (.wait misses)

/-- Read bytes at a translated address within one page: the bytes, or the status of the failing line at the lowest
address. -/
def Ctx.fetch (c : Ctx) (pa len : Nat) : Eng (Except Status (List Byte)) := do
  let j ← c.theJob
  let off := offOf pa
  match (← get).engineCheck j.tenant off len { read := true } with
  | some st => pure (.error st)
  | none =>
    c.stage pa len
    let j ← c.theJob
    match ((linesOf off len).filterMap fun l => j.bad.get? (j.stageKey c.unit l)).head? with
    | some st => pure (.error st)
    | none => pure (.ok ((j.staged c.unit off len).getD []))

/-- Read bytes at a translated address within one page, line by line: each part's distance from the start, and its
bytes or the failure of its line. -/
def Ctx.fetchParts (c : Ctx) (pa len : Nat) : Eng (List (Nat × Nat × Except Status (List Byte))) := do
  let j ← c.theJob
  let off := offOf pa
  let cut (g : Nat → Except Status (List Byte)) : List (Nat × Nat × Except Status (List Byte)) :=
    (linesOf off len).map fun l =>
      let (lo, n) := partOf off len l
      (lo - off, n, g l)
  match (← get).engineCheck j.tenant off len { read := true } with
  | some st => pure (cut fun _ => .error st)
  | none =>
    c.stage pa len
    let j ← c.theJob
    pure (cut fun l => match j.bad.get? (j.stageKey c.unit l) with
      | some st => .error st
      | none =>
        let (lo, n) := partOf off len l
        .ok (slice (j.staging.getD (j.stageKey c.unit l) []) (lo - l * 64) n))

/-- Keep a failure of a job under a place, unless one stands there. -/
def State.jobFail (s : State) (job pos : Nat) (st : Status) : State :=
  s.onJob job fun x => if (x.fails.get? pos).isSome then x else { x with fails := x.fails.put pos st }

/-- Write bytes at a translated address within one page; the failure, if it is known at once. A write that a home still
serves goes on by itself, and the job waits for it before it completes. -/
def Ctx.store (c : Ctx) (pa : Nat) (bs : List Byte) (pos : Nat) (ref : Option PalRef := none) : Eng (Option Status) := do
  let j ← c.theJob
  let off := offOf pa
  match (← get).engineCheck j.tenant off bs.length { write := true } with
  | some st =>
    modify fun s => s.jobFail c.job pos st
    pure (some st)
  | none =>
    let i ← c.enter j { ty := 0x02, addr := BitVec.ofNat 64 pa, len := BitVec.ofNat 16 bs.length, payload := bs } pos ref
    match (← get).op? i with
    | some o =>
      if o.finished then
        modify fun s => s.engineOpDone i
        pure (if o.status = .ok then none else some o.status)
      else pure none
    | none => pure none

/-- Read a range of virtual addresses; the unit fails with the first failing access. -/
def Ctx.load (c : Ctx) (va len stream : Nat) : Eng (List Byte) := do
  let mut out : List Byte := []
  for (a, n) in pageParts va len do
    let pa ← c.xlat a .read stream false
    match ← c.fetch pa n with
    | .ok bs => out := out ++ bs
    | .error st => halt st
  pure out

/-- Read a range; a failing access gives its status in place of the bytes. -/
def Ctx.tryLoad (c : Ctx) (va len stream : Nat) : Eng (Except Status (List Byte)) := do
  let mut out : List Byte := []
  let mut bad : Option Status := none
  for (a, n) in pageParts va len do
    if bad.isNone then
      let pa ← c.xlat a .read stream false
      match ← c.fetch pa n with
      | .ok bs => out := out ++ bs
      | .error st => bad := some st
  match bad with
  | some st => pure (.error st)
  | none => pure (.ok out)

/-- Read a range line by line: each part's distance from its start and its length, and its bytes or its failure. -/
def Ctx.loadParts (c : Ctx) (va len stream : Nat) : Eng (List (Nat × Nat × Except Status (List Byte))) := do
  let mut out : List (Nat × Nat × Except Status (List Byte)) := []
  for (a, n) in pageParts va len do
    let pa ← c.xlat a .read stream false
    out := out ++ (← c.fetchParts pa n).map fun (o, k, r) => (o + (a - va), k, r)
  pure out

/-- Write bytes to a range of virtual addresses whose pages the unit has prepared; failures are kept from place pos on,
and the first of them is returned. -/
def Ctx.save (c : Ctx) (va : Nat) (bs : List Byte) (stream pos : Nat) (ref : Option PalRef := none) :
    Eng (Option Status) := do
  let mut bad : Option Status := none
  for (a, n) in pageParts va bs.length do
    let pa ← c.xlat a .write stream false
    match ← c.store pa ((bs.drop (a - va)).take n) (pos + (a - va)) (if a = va then ref else none) with
    | some st => if bad.isNone then bad := some st
    | none => pure ()
  pure bad

/-- Run a part of a unit whose failure is kept as a value. -/
def catching {α : Type} (x : Eng α) : Eng (Except Status α) := do
  let s ← get
  match x.run s with
  | (.ok a, s) =>
    set s
    pure (.ok a)
  | (.error (.fail st), s) =>
    set s
    pure (.error st)
  | (.error (.wait m), s) =>
    set s
    throw (.wait m)

/-- The registers of the tier codecs. -/
def codecRegs (a : Nat) : Bool := a / 4096 = codecPage 0 || a / 4096 = codecPage 1

/-- What stands of a try that failed, in the state before it: counts of its accesses, but none of what it encoded. -/
def State.keepCounts (old new : State) : State :=
  { old with ctl := { old.ctl with regs := (new.ctl.regs.filter fun e => !codecRegs e.1) ++ old.ctl.regs.filter fun e => codecRegs e.1 },
             ev := new.ev, quiet := new.quiet, free := new.free,
             store := { old.store with quotas := new.store.quotas } }

/-- Accesses of a work unit from a number on that are still under way and that a mirror does not hold up. -/
def State.pendingFrom (s : State) (c : Ctx) (n : Nat) : Bool :=
  s.jobs.ops.any fun e => n ≤ e.1 && e.2.src = .engine c.job c.unit && !e.2.mirrored

/-- Write the outputs of a unit, each at its address, from a state to which it returns when they are not written; whether all
of them stand. -/
def Ctx.tryAll (c : Ctx) (base : State) (stream key : Nat) (l : List (Nat × List Byte × Option PalRef)) : Eng Bool := do
  let first := (← get).jobs.nextOp
  for (va, bs, ref) in l do
    match ← c.save va bs stream key ref with
    | some st =>
      modify fun s => base.keepCounts s
      halt st
    | none => pure ()
  if (← get).pendingFrom c first then
    set base
    pure false
  else pure true

/-- Ask of the lines of a unit's outputs whether their homes can write them, and wait for the answers. -/
def Ctx.probeAll (c : Ctx) (stream key : Nat) (l : List (Nat × List Byte × Option PalRef)) : Eng Unit := do
  let mut ops : List Miss := []
  for (va, bs, _) in l do
    for (a, n) in pageParts va bs.length do
      let pa ← c.xlat a .write stream false
      let j ← c.theJob
      let f : Frame := { ty := 0x02, addr := BitVec.ofNat 64 pa, len := BitVec.ofNat 16 n, payload := (bs.drop (a - va)).take n }
      if !((← get).heldLines (linesOf (offOf pa) n)).isEmpty || !(← get).tilesFree (offOf pa) n then
        let i ← c.enter j f key none true
        match (← get).op? i with
        | some o => if o.finished then modify fun s => s.engineOpDone i else ops := ops ++ [.op i]
        | none => pure ()
  throw (.wait ops)

/-- Write a unit's output: all of it, or nothing when one of its lines cannot be written (R249, R303, R309, R337). Where a
line is held elsewhere, the unit waits until its home can write it. base is the state to return to when nothing is written. -/
def Ctx.saveFrom (c : Ctx) (base : State) (stream key : Nat) (l : List (Nat × List Byte × Option PalRef)) : Eng Unit := do
  let j ← c.theJob
  if j.saved.contains key then pure ()
  else match j.tries.get? key with
    | some st =>
      modify fun s => base.keepCounts s
      halt st
    | none =>
      if ← c.tryAll base stream key l then
        modify fun s => s.onJob c.job fun j => { j with saved := key :: j.saved }
      else c.probeAll stream key l

/-- Write a unit's output whole, from the state that stands. -/
def Ctx.saveAll (c : Ctx) (stream key : Nat) (l : List (Nat × List Byte × Option PalRef)) : Eng Unit := do
  c.saveFrom (← get) stream key l

/-- A little-endian number of n bytes at a virtual address. -/
def Ctx.number (c : Ctx) (va n stream : Nat) : Eng Nat := do
  pure (leNat (← c.load va n stream))

/-! ### Running a unit -/

/-- Whether accesses of a job are still under way. -/
def State.jobBusy (s : State) (i : Nat) : Bool :=
  s.jobs.ops.any fun e => match e.2.src with
    | .engine j _ => j = i
    | _ => false

/-- A unit of a job ends: the translations and staged lines that it used are let go once no unit of the job waits. -/
def State.unitEnd (s : State) (i unit : Nat) : State :=
  s.onJob i fun j =>
    let b := j.blocked.filter (·.unit != unit)
    let j := { j with blocked := b, finished := j.finished + 1 }
    let mine (k : Nat) : Bool := j.isVolatile && k / 2 ^ 42 = unit + 1
    let j := { j with blocks := j.blocks.filter (·.unit != unit) }
    let j := { j with staging := j.staging.filter fun e => !mine e.1, bad := j.bad.filter fun e => !mine e.1 }
    if b.isEmpty then { j with staging := [], bad := [], held := [], kept := [] } else j

/-- The palette references of a unit are released (R269). -/
def State.dropRefs (s : State) (job unit : Nat) : State :=
  s.onJob job fun j => { j with refs := j.refs.filter (·.unit != unit) }

/-- The place of byte off of work unit u among a job's failures. -/
def failKey (u off : Nat) : Nat := u * 2 ^ 32 + off

/-- Run a unit: it ends, it fails with a status kept under a place, or it is blocked on an engine. -/
def State.runUnit (s : State) (c : Ctx) (key : Nat) (body : Eng Unit) : State :=
  match body.run (s.dropRefs c.job c.unit) with
  | (.ok _, s) => s.unitEnd c.job c.unit
  | (.error (.fail st), s) => (s.jobFail c.job key st).unitEnd c.job c.unit
  | (.error (.wait m), s) =>
    s.onJob c.job fun j =>
      let b : Blocked := { unit := c.unit, engine := c.engine, misses := m, array := c.array }
      { j with blocked := j.blocked.filter (fun x => x.unit != c.unit) ++ [b] }

/-- Whether a job has done its work and may complete: stopped or every unit ended, and no access under way. -/
def State.jobReady (s : State) (i : Nat) : Bool :=
  match s.job? i with
  | some j => (j.stopped.isSome || (j.phase = .running && j.finished = j.units && j.blocked.isEmpty && j.todo.isEmpty)) &&
      j.peerLeft.isEmpty && !s.jobBusy i && j.phase != .done
  | none => false

/-- The first failure of a job: its place and its status. -/
def Job.firstFail (j : Job) : Option (Nat × Status) := j.fails.head?

/-- The number of n bytes at an offset of a job's descriptor. -/
def Job.u (j : Job) (off n : Nat) : Nat := leField j.body off n

/-- Flags of a descriptor (Table 7-1): STOCH and SEED as a rounding. -/
def Job.rounding (j : Job) : Rounding := if bit j.flags 2 then .stoch j.seed else .nearest

end Sys2Proof.Machine
end

