-- ==== Sys2Proof/Machine/Peers.lean ====
section
/-! DEFINITION. Peer connections (R135, R217, R227): the JMT connections that the device holds as an agent of other
devices, for COPY to a peer. Their frames are sent once; the manual lays the timers of a connection's retransmission on
the device's own connections. -/

namespace Sys2Proof.Machine

def State.peer (s : State) (k : Nat) : Peer := s.jobs.peers.getD k { }

def State.onPeer (s : State) (k : Nat) (f : Peer → Peer) : State :=
  s.onJobs fun j => { j with peers := j.peers.put k (f (j.peers.getD k { })) }

/-- The first eight client ports that read LINK_UP (R217). -/
def State.peerPorts (s : State) : List Nat :=
  ((List.range 40).filter fun p => s.hasPort p && s.role p = 1 && (s.portSt p).up).take 8

/-- A frame of a peer connection: this device's identity there, the connection's number, the peer's incarnation. -/
def Peer.stamp (x : Peer) (f : Frame) : Frame :=
  { f with tenant := BitVec.ofNat 12 (bits x.ident.toNat 31 20), agent := BitVec.ofNat 13 (bits x.ident.toNat 19 7),
           conn := x.conn, incarn := x.incarn }

/-- Send a frame to a peer on a path. -/
def State.peerEmit (s : State) (k n : Nat) (f : Frame) : State :=
  let x := s.peer k
  match x.ports[n]? with
  | some p => s.emitRaw p x.ip (Config.sourcePort (2 ^ 24 + 2 + k) n) { x.stamp f with path := BitVec.ofNat 8 n }
  | none => s

/-- Send a sequenced frame to a peer, on its live paths in turn. -/
def State.sendPeer (s : State) (k : Nat) (f : Frame) : State :=
  let x := s.peer k
  let n := x.live.getD (x.txNext.toNat % max 1 x.live.length) 0
  (s.onPeer k fun x => { x with txNext := x.txNext + 1 }).peerEmit k n { f with seq := x.txNext }

/-- Open the paths of an accepted peer connection besides that of its JOIN: a HELLO with PROBE on each (R86, R217). -/
def State.openPaths (s : State) (k : Nat) : State :=
  ((List.range (s.peer k).ports.length).drop 1).foldl (fun s n => s.peerEmit k n
    (withFlag (withFlag { ty := 0x53, len := 16, payload := helloPayload s.now 0 } fProbe) fUnseq)) s

/-- Whether another entry of the peer table holds the pair of a peer device and a tenant (R217). -/
def State.pairTaken (s : State) (k dev tenant : Nat) : Bool :=
  s.jobs.peers.any fun (n, x) => n != k && x.st != .idle && x.dev = dev && bits x.ident.toNat 31 20 = tenant

/-- The entry that PEER_SEL names. -/
def State.peerSel (s : State) : Nat := s.reg Reg.bePeerSel % 64

/-- The CTL_WR that opened a peer connection completes (R227). -/
def State.peerDone (s : State) (k : Nat) : State :=
  match (s.peer k).wait with
  | some (c, f) => (s.onPeer k fun x => { x with wait := none }).respond c f .ok
  | none => s

/-- PEER_CMD OPEN: a JOIN to the selected peer (R217, R227). The manual gives no status for an entry that is not IDLE, nor
for a pair of peer device and tenant that another entry holds: a free value (log entry 28). -/
def peerOpenOp (wait : Option (Nat × Frame)) (s : State) : State :=
  let k := s.peerSel
  let x := s.peer k
  if x.st != .idle || s.pairTaken k (s.reg Reg.bePeerDev % 65536) (bits (s.reg Reg.bePeerId) 31 20) then
    let (v, s) := s.draw
    let s := s.onPeer k fun x => { x with result := v % 256 }
    match wait with
    | some (c, f) => s.respond c f .ok
    | none => s
  else
    let (v, s) := s.draw
    let ports := s.peerPorts
    let y : Peer := { x with dev := s.reg Reg.bePeerDev % 65536, ident := BitVec.ofNat 32 (s.reg Reg.bePeerId),
                             ip := s.ip Reg.bePeerIp, st := .joining, since := s.ran, ports := ports, txNext := 1,
                             opNext := 1, live := [], writes := [], wait := wait, conn := 0, incarn := 0 }
    let s := s.onPeer k fun _ => y
    let tok := (List.range 4).flatMap fun i => beBytes 4 (s.reg (Reg.bePeerToken + 4 * i))
    let body := tok ++ beBytes 8 (s.reg Reg.bePeerExpiry) ++ beBytes 8 v ++ beBytes 1 (max 1 ports.length) ++ List.replicate 7 0#8
    match ports.head? with
    | some p => s.emitRaw p y.ip (Config.sourcePort (2 ^ 24 + 2 + k) 0) (withFlag (y.stamp { ty := 0x50, len := 40, payload := body }) fUnseq)
    | none => s

/-- PEER_CMD CLOSE sends LEAVE. -/
def peerCloseOp (s : State) : State :=
  let k := s.peerSel
  if (s.peer k).st = .opened then
    (s.sendPeer k { ty := 0x52, opId := (s.peer k).opNext }).onPeer k fun x =>
      { x with st := .closing, since := s.ran, opNext := x.opNext + 1 }
  else s

/-- PEER_ACCEPT: the answer to the JOIN, to a HELLO that opens a path, or to the LEAVE of a closing connection, or 10 ms
without one. -/
def peerAcceptOp (k : Nat) (answer : Option Frame) (s : State) : State :=
  let x := s.peer k
  let late := s.since x.since 10000000
  let idle (s : State) (st : Status) : State := (s.onPeer k fun x => { x with st := .idle, result := st.code }).peerDone k
  match x.st, answer with
  | .joining, some f =>
    if f.ty = 0x51 then
      let y : Peer := { x with st := .opened, result := 0, conn := BitVec.ofNat 24 (beField f.payload 0 4),
                               incarn := BitVec.ofNat 8 (beField f.payload 6 1) }
      let y := { y with ports := y.ports.take (beField f.payload 7 1), live := [0] }
      ((s.onPeer k fun _ => y).openPaths k).peerDone k
    else if f.ty = 0x50 && has f fResp then
      (s.onPeer k fun x => { x with st := .idle, result := f.status.toNat }).peerDone k
    else s
  | .joining, none => if late then idle s .timeout else s
  | .opened, some f =>
    let n := f.path.toNat
    if f.ty = 0x53 && has f fProbe && has f fResp && n < x.ports.length && !x.live.contains n then
      s.onPeer k fun x => { x with live := x.live ++ [n] }
    else s
  | .closing, some f => if f.ty = 0x52 && has f fResp then idle s .ok else s
  | .closing, none => if late then idle s .ok else s
  | _, _ => s

/-- A peer write is over. -/
def State.peerWriteEnd (s : State) (k : Nat) (w : PeerWrite) (st : Status) : State :=
  let s := s.onPeer k fun x => { x with writes := x.writes.filter (· != w) }
  let s := s.onJob w.job fun j =>
    { j with peerLeft := j.peerLeft.filter (· != peerKey k w.opId), written := j.written + (if st = .ok then w.len else 0) }
  if st = .ok then
    match s.job? w.job with
    | some j => s.bump64 (Reg.beBytesWritten (bulkEnginePage (j.engine - 16))) w.len
    | none => s
  else s.jobFail w.job w.offset st

/-- PEER_WRITE_RESPONSE: a peer answers a WRITE; STALE_INCARNATION closes the connection and raises source 323. -/
def peerWriteResponseOp (k : Nat) (f : Frame) (s : State) : State :=
  let x := s.peer k
  match x.writes.find? fun w => w.opId = f.opId with
  | none => s
  | some w =>
    if f.ty != 0x02 || !has f fResp then s
    else
      let st := statusOf f.status.toNat
      if st = .staleIncarnation then
        let s := x.writes.foldl (fun s w => s.peerWriteEnd k w .staleIncarnation) s
        (s.onPeer k fun x => { x with st := .idle }).raise 323
      else s.peerWriteEnd k w st

/-- The answer to a home message on a peer connection, as by an agent that holds nothing (R135). -/
def peerAnswerOp (k kind : Nat) (f : Frame) (s : State) : State :=
  let st := (s.peer k).st
  if st = .opened || st = .closing then
    s.sendPeer k { ty := 0x1B, flags := BitVec.twoPow 12 fResp, opId := f.opId,
                   addr := f.addr &&& ~~~ 0x3F#64 ||| BitVec.ofNat 64 kind }
  else s

/-- Write bytes at an address of another device; a page without an OPEN peer connection of the tenant fails NOT_PRESENT
(R217). -/
def Ctx.peerStore (c : Ctx) (pa : Nat) (bs : List Byte) (pos : Nat) : Eng Unit := do
  let j ← c.theJob
  let s ← get
  match s.jobs.peers.find? fun e =>
      e.2.st = .opened && e.2.dev = devOf pa && bits e.2.ident.toNat 31 20 = j.tenant with
  | none => set (s.jobFail c.job pos .notPresent)
  | some (k, x) =>
    let (_, s) := s.stampTag j.tenant bs.length (s.weightOf j.tenant j.weight)
    let w : PeerWrite := { opId := x.opNext, job := c.job, offset := pos, len := bs.length, via := j.via }
    let s := s.onPeer k fun x => { x with opNext := x.opNext + 1, writes := x.writes ++ [w] }
    let s := s.onJob c.job fun j => { j with peerLeft := peerKey k w.opId :: j.peerLeft }
    let s := s.bump (Reg.bePeerWrites (bulkEnginePage (j.engine - 16)))
    set (s.sendPeer k (withFlag { ty := 0x02, opId := w.opId, addr := BitVec.ofNat 64 pa,
                                  len := BitVec.ofNat 16 bs.length, payload := bs } fCmdEnd))

end Sys2Proof.Machine
end

