-- ==== Sys2Proof/Machine/Flags.lean ====
section
/-! DEFINITION. Event sources (Tables 15-1 and 15-2 and the chapters' own lists): which exist, which are levels and what
holds them, and settle, with which every command ends: it takes up the level conditions that the command has made
true. -/

namespace Sys2Proof.Machine

/-- The unit that owns a source, by its page; none for reserved sources (Table 15-1). -/
def sourcePage (src : Nat) : Option Nat :=
  if src < 4 then some 0
  else if src < 6 then some 9
  else if src < 8 then some 0xB
  else if src < 14 then some 8
  else if src < 16 then none
  else if src < 176 then some (portPage ((src - 16) / 4))
  else if src < 184 then some (nearPage (src - 176))
  else if src < 200 then some (bulkPage (src - 184))
  else if src < 202 then some (tmPage 0)
  else if src = 202 then some (tmPage 1)
  else if src < 240 then none
  else if src < 272 then some (slicePage (src - 240))
  else if src < 276 then some (slicePage 0)
  else if src < 280 then none
  else if src < 283 then some 0x3000
  else if src < 320 then none
  else if src < 322 then some (corePage (src - 320) 0x10)
  else if src = 322 then some (corePage 0 0x11)
  else if src = 323 then some (corePage 0 0x78)
  else if src < 328 then none
  else if src < 336 then some (arrayPage (src - 328))
  else if src < 344 then some (expanderPage (src - 336))
  else if src < 346 then some (corePage (src - 344) 0x13)
  else if src = 346 then some (corePage 0 0x13)
  else if src < 352 then none
  else if src < 354 then some (corePage (src - 352) 0x60)
  else if src = 354 then some (corePage 0 0x60)
  else if src < 360 then none
  else if src < 364 then some (gatherPage (src - 360))
  else if src < 366 then some (gatherPage 0)
  else if src < 368 then none
  else if src < 370 then some (corePage (src - 368) 0x70)
  else if src < 372 then some (corePage 0 0x70)
  else if src < 576 then none
  else if src < 592 then some 7
  else if src < 595 then some 0xA
  else if src = 595 then some 6
  else none

/-- Whether a source exists on the device: it is not reserved, and its unit is present (R436). -/
def State.sourceValid (s : State) (src : Nat) : Bool := (sourcePage src).any s.present

/-- Whether a source is a level (R99, R132, R176, R316, R346, R376, R404, R437, Table 15-1). -/
def isLevel (src : Nat) : Bool :=
  src = 0 || src = 1 || src = 6 || src = 7 || src = 8 || src = 12 || (16 ≤ src && src < 176 && src % 4 = 0) ||
  src = 273 || src = 354 || src = 365 || src = 371 || (576 ≤ src && src < 592) || src = 595

/-- The level sources. -/
def levelSources : List Nat := (List.range 596).filter isLevel

/-- Places of the ring (R440). -/
def State.ringPlaces (s : State) : Nat := 128 * 2 ^ bits (s.reg Reg.ecEvRingCtrl) 4 1

/-- Records in the ring (R441). -/
def State.ringUsed (s : State) : Nat :=
  (s.reg Reg.ecEvTail + s.ringPlaces - s.reg Reg.ecEvHead) % s.ringPlaces

/-- A rail's STATUS_WORD reports a fault, or an AVSBus write stays unacknowledged (R479). -/
def State.railFault (s : State) : Bool := s.pwr.rails.vals.any (·.status != 0) || s.pwr.unacked

/-- Whether a level condition holds now. Sources 0 and 1 hold only until the reset that they cause (R438). -/
def State.levelCond (s : State) (src : Nat) : Bool :=
  if src = 6 then s.pwr.thermOver
  else if src = 7 then s.railFault
  else if src = 8 then s.twin.leases.vals.any (·.st = .lost)
  else if src = 12 then s.twin.leases.vals.any (·.st = .conflict)
  else if 16 ≤ src && src < 176 && src % 4 = 0 then (s.portSt ((src - 16) / 4)).downAt.isSome
  else if src = 273 then
    let used := (s.reg Reg.dsAshLogHead + 2097152 - s.reg Reg.dsAshLogTail) % 2097152
    1572864 < used || s.reg Reg.dsAshLogLost != 0
  else if src = 354 then 65536 - 1024 < s.sess.count (fun _ x => x.opened)
  else if src = 365 then 1024 - 64 < s.emb.tables.count (fun _ x => x.opened)
  else if src = 371 then s.srch.colls.vals.any fun c => c.opened && c.sideMax * 3 < c.sideUsed * 4
  else if 576 ≤ src && src < 592 then s.mon.any fun e => e.1 / 4 = src - 576 && e.2.alarm
  else if src = 595 then s.ringPlaces * 3 < s.ringUsed * 4 || s.ev.ringRaised
  else false

/-- Sample a level source again (R446): it becomes pending if its condition holds and it is unmasked. -/
def State.resample (s : State) (src : Nat) : State :=
  if isLevel src && s.levelCond src && s.sourceValid src then s.assertLevel src else s

/-- Take up one level source: its assertion makes it pending (R445). -/
def State.sampleLevel (s : State) (src : Nat) : State :=
  let now := s.levelCond src && s.sourceValid src
  if now = s.ev.level.getLsbD src then s
  else
    let s := s.onEv fun e => { e with level := if now then setBit e.level src else clearBit e.level src }
    if now then s.assertLevel src else s

/-- Every command ends so: level sources are sampled, from the beginning of Greyscale service on (R445, R459). -/
def settle (s : State) : State :=
  if s.boot.step = .rom then s else levelSources.foldl (fun s src => s.sampleLevel src) s

/-- Whether the clock runs: power and the reference clock are there (R465, R470). -/
def State.clocked (s : State) : Bool := s.boot.powered && s.boot.refclk

/-- The answer of a command whose effect is f. Without power or the reference clock every clocked island stands still
and the device answers nothing (R465). -/
def act (s : State) (f : State → State) : Answer := .next (if s.clocked then settle (f s) else s)

end Sys2Proof.Machine
end

