-- ==== Sys2Proof/Machine/Monitors.lean ====
section
/-! DEFINITION. Monitor slots (R449 to R453, R56) and the histogram units that they share with palette builds (R274). -/

namespace Sys2Proof.Machine

/-- Page of a monitor slot. -/
def monPage (m : Nat) : Nat := 0x4000 + m

def State.slot (s : State) (m : Nat) : MonSlot := s.mon.getD m { }

def State.onSlot (s : State) (m : Nat) (f : MonSlot → MonSlot) : State := s.onMon fun t => t.put m (f (t.getD m { }))

/-- MON_WINDOW of a slot. -/
def State.monW (s : State) (m : Nat) : Nat := s.reg (Reg.moMonWindow (monPage m))

/-- Types that Table 15-6 allows for a kind of probe; every MONITORABLE type where it says so. -/
def probeType (kind : Nat) (ty : UnitType) : Bool :=
  match kind with
  | 0 => ty = .port || ty = .jobIngress || ty = .directorySlice || ty = .nearChannel || ty = .bulkChannel ||
      (0x50 ≤ ty.code && ty.code ≤ 0x80)
  | 1 | 2 => true
  | 3 => ty = .nearChannel || ty = .powerPace
  | 4 | 5 => ty = .port
  | _ => false

/-- Whether a page may be probed (R449): present, MONITORABLE, of a type allowed; a group by its present members. -/
def State.probeOk (s : State) (kind page : Nat) : Bool :=
  s.present page && bit (s.unitCap page) 2 &&
  (match unitOf page with
    | none => false
    | some u =>
      probeType kind u.ty ||
      (if u.ty = .lockGroup then (s.presentChildren page).any fun p => (unitOf p).any fun v => probeType kind v.ty
       else u.ty = .group && (s.leavesBelow page).any fun p => (unitOf p).any fun v => probeType kind v.ty))

/-! ### Histogram units (R274, R452) -/

/-- Histogram units of a tier codec. -/
def histUnits : Nat := 16

/-- Whether a slot holds its histogram unit. -/
def State.monHolds (s : State) (m : Nat) : Bool := (s.pal.histHeld.getD (m % 2) []).contains (.monitor m)

/-- Give up a histogram unit, or the place in its queue. -/
def State.histDrop (s : State) (g : Nat) (u : HistUser) : State :=
  s.onPal fun p =>
    { p with histQueue := p.histQueue.put g ((p.histQueue.getD g []).filter (· != u)),
             histHeld := p.histHeld.put g ((p.histHeld.getD g []).filter (· != u)) }

/-- Whether the next user in the queue of codec g is this one and a unit is free. -/
def State.histTurn (s : State) (g : Nat) (u : HistUser) : Bool :=
  (s.pal.histQueue.getD g []).head? = some u && (s.pal.histHeld.getD g []).length < histUnits

/-- The head of the queue takes a unit. -/
def State.histTake (s : State) (g : Nat) : State :=
  s.onPal fun p => match p.histQueue.getD g [] with
    | [] => p
    | u :: q => { p with histQueue := p.histQueue.put g q, histHeld := p.histHeld.put g (p.histHeld.getD g [] ++ [u]) }

/-- Ask for a histogram unit of codec g: one is taken at once when it is free, in turn otherwise. -/
def State.histAsk (s : State) (g : Nat) (u : HistUser) : State :=
  let s := s.onPal fun p =>
    let q := p.histQueue.getD g []
    { p with histQueue := p.histQueue.put g (if q.contains u then q else q ++ [u]) }
  if s.histTurn g u then s.histTake g else s

/-- HIST_UNIT_GRANT: the monitor slot whose turn it is takes a unit (R452). -/
def histUnitGrantOp (g : Nat) (s : State) : State :=
  match (s.pal.histQueue.getD g []).head? with
  | some (.monitor m) => if s.histTurn g (.monitor m) then s.histTake g else s
  | _ => s

/-! ### Windows (R450, R451) -/

/-- A window as the next one begins. -/
def State.newWin (s : State) (m : Nat) (part : Bool) : Win :=
  { partialW := part, noHist := bit (s.reg (Reg.moMonCtrl (monPage m))) 1 && !s.monHolds m }

/-- MON_CTRL: the slot starts or stops (R449, R452). KIND and SUB stay as they are while EN is 1. -/
def monCtrlOp (m : Nat) (v : BitVec 32) (s : State) : State :=
  if 64 ≤ m then s
  else
    let a := Reg.moMonCtrl (monPage m)
    let old := s.reg a
    let n := v.toNat &&& 0x00FF3F0F
    let fixed := bit old 0 && n / 65536 != old / 65536
    let n := if fixed then n % 65536 + old / 65536 * 65536 else n
    let s := s.when fixed State.refuse
    if bit n 0 && !bit old 0 then
      if s.probeOk (bits n 23 20) (s.reg (Reg.moMonPage (monPage m)) % 2 ^ 20) then
        let s := (s.setReg a n).onSlot m fun x => { x with run := true, badProbe := false, latched := { }, seq := x.seq }
        let s := s.when (bit n 1) fun s => s.histAsk (m % 2) (.monitor m)
        let w := s.monW m
        let win := s.newWin m true
        s.onSlot m fun x => { x with now := win, nextClose := if w = 0 then 0 else (s.now / w + 1) * w }
      else (s.setReg a (n - 1)).onSlot m fun x => { x with run := false, badProbe := true }
    else if !bit n 0 && bit old 0 then
      ((s.setReg a n).onSlot m fun x => { x with run := false }).histDrop (m % 2) (.monitor m)
    else
      let s := s.setReg a n
      let s := s.when (bit n 0 && bit n 1 && !bit old 1) fun s => s.histAsk (m % 2) (.monitor m)
      s.when (!bit n 1 && bit old 1) fun s => s.histDrop (m % 2) (.monitor m)

/-- The bin of a value (R451). -/
def binOf (shift v : Nat) : Nat := if v < 2 ^ shift then 0 else min 31 (Nat.log2 v - shift + 1)

/-- Whether a sample belongs to a slot's probe: its page, or one of the group's present members; its class. A lock group
gives the samples of its members alone, so one without members gives none (R47, R56). -/
def State.sampleFits (s : State) (m : Nat) (x : MonSample) : Bool :=
  let ctrl := s.reg (Reg.moMonCtrl (monPage m))
  let page := s.reg (Reg.moMonPage (monPage m)) % 2 ^ 20
  let sub := bits ctrl 19 16
  let kind := bits ctrl 23 20
  let own := x.page = page && !(unitOf page).any fun u => u.ty = .lockGroup
  s.present x.page && (own || (s.descendants page).contains x.page || (s.presentChildren page).contains x.page) &&
  (match kind with
    | 0 => sub = 0 || sub = x.cls
    | 4 => sub = 4 || sub = x.cls
    | _ => true)

/-- MON_SAMPLE: one sample of a running slot (R449 to R452). A slot that is stopped takes none (R44). -/
def monSampleOp (m : Nat) (x : MonSample) (s : State) : State :=
  if (s.slot m).run && !s.stopping (monPage m) && s.sampleFits m x then
    let v := x.value % 2 ^ 64
    let ctrl := s.reg (Reg.moMonCtrl (monPage m))
    let held := s.monHolds m
    let b := binOf (bits ctrl 13 8) v
    s.onSlot m fun y => { y with now :=
      let w := y.now
      { w with min := min w.min v, max := max w.max v, count := satAdd 64 w.count 1, sum := satAdd 64 w.sum v,
               sumSat := w.sumSat || decide (2 ^ 64 ≤ w.sum + v),
               noHist := w.noHist || (bit ctrl 1 && !held),
               bins := if bit ctrl 1 && held then w.bins.put b (satAdd 32 (w.bins.getD b 0) 1) else w.bins } }
  else s

/-- Whether the alarm test succeeds on a latched window (R453). -/
def alarmTest (kind thresh : Nat) (w : Win) : Bool :=
  match kind with
  | 1 => thresh < w.max
  | 2 => w.min < thresh
  | 3 => thresh < w.count
  | _ => false

/-- MON_WINDOW_CLOSE: the window is latched and the next one opens (R450). A window that TIME has carried past more than
one boundary closes once, at the last of them, and reads PARTIAL. -/
def monWindowCloseOp (m : Nat) (s : State) : State :=
  let x := s.slot m
  let w := s.monW m
  if x.run && w != 0 && x.nextClose ≤ s.now then
    let at_ := s.now / w * w
    let ctrl := s.reg (Reg.moMonCtrl (monPage m))
    let done : Win := { x.now with partialW := x.now.partialW || x.nextClose < at_ }
    let win := s.newWin m false
    let s := s.onSlot m fun y =>
      { y with latched := done, endAt := at_, seq := (y.seq + 1) % 2 ^ 32, now := win, nextClose := at_ + w,
               alarm := y.alarm || alarmTest (bits ctrl 3 2) (s.reg (Reg.moMonThresh (monPage m))) done }
    s
  else s

/-! ### Rows -/

/-- MON_CTRL (R449). -/
def execMonCtrl (slot : Nat) (value : BitVec 32) (s : State) : Answer := act s (monCtrlOp slot value)

/-- MON_SAMPLE (R449). -/
def execMonSample (slot : Nat) (sample : MonSample) (s : State) : Answer := act s (monSampleOp slot sample)

/-- MON_WINDOW_CLOSE (R450). -/
def execMonWindowClose (slot : Nat) (s : State) : Answer := act s (monWindowCloseOp slot)

/-- HIST_UNIT_GRANT (R452). -/
def execHistUnitGrant (codec : Nat) (s : State) : Answer := act s (histUnitGrantOp codec)

end Sys2Proof.Machine
end

