-- ==== Sys2Proof/Machine/Palettes.lean ====
section
/-! DEFINITION. Palette slots and generations, builds, coded writes and the palette commands (R267 to R282, R290). -/

namespace Sys2Proof.Machine

/-! ### Slots (R267 to R270) -/

def State.palSlot? (s : State) (n : Nat) : Option Slot := s.pal.slots.get? n

def State.onPalSlot (s : State) (n : Nat) (f : Slot → Slot) : State :=
  s.onPal fun p => { p with slots := p.slots.update n f }

/-- References to a generation of a slot (R269). -/
def State.palRefs (s : State) (slot gen : Nat) : Nat :=
  let hit (r : PalRef) : Bool := !r.raw && r.slot = slot && r.gen = gen
  (s.jobs.ops.count fun _ o => o.ref.any hit) + (s.jobs.jobs.vals.foldl (fun n j => n + j.refs.countP hit) 0)

/-- The resident generation of a number. -/
def Slot.gen? (x : Slot) (n : Nat) : Option Gen :=
  match x.newer.filter (·.num = n) with
  | some g => some g
  | none => x.older.filter (·.num = n)

/-- Whether a new generation can be installed: not while the older of two is referred to (R270). -/
def State.palRoom (s : State) (n : Nat) : Bool :=
  match (s.palSlot? n).bind (·.older) with
  | some g => s.palRefs n g.num = 0
  | none => true

/-- The number of the next generation (R268). -/
def Slot.nextNum (x : Slot) : Nat :=
  match x.newer with
  | none => 1
  | some g => if g.num = 255 then 1 else g.num + 1

/-- Install lengths as the newest generation. -/
def Slot.install (x : Slot) (lens : List Nat) : Slot :=
  { x with newer := some { num := x.nextNum, lens := lens }, older := x.newer }

/-! ### Builds (R273, R274) -/

/-- Ask for a build of a slot: it collects at once where a histogram unit is free, and waits otherwise. -/
def State.buildAsk (s : State) (n : Nat) : State :=
  let s := (s.onPalSlot n fun x => { x with build := some { st := .waiting } }).histAsk (n % 2) (.slot n)
  if (s.pal.histHeld.getD (n % 2) []).contains (.slot n) then
    s.onPalSlot n fun x => { x with build := some { st := .collecting } }
  else s

/-- A built palette is installed: counted, its histogram unit released, the PALETTE source raised. -/
def State.buildInstall (s : State) (n : Nat) (lens : List Nat) : State :=
  let s := s.onPalSlot n fun x => { x.install lens with build := none }
  let s := (s.histDrop (n % 2) (.slot n)).bump (Reg.tcBuilds (codecPage (n % 2)))
  s.raise 346

/-- The counts of a block written to a slot reach its building codec; the 64th block ends the build. -/
def State.buildCount (s : State) (n : Nat) (smode : Nat) (syms : List Nat) : State :=
  match (s.palSlot? n).bind (·.build) with
  | some b =>
    if b.st = .collecting then
      let add := symCounts (symCount smode) syms
      let counts := if b.counts.isEmpty then add else (b.counts.zip add).map fun (x, y) => x + y
      let b : Build := { b with counts := counts, blocks := b.blocks + 1 }
      if b.blocks < 64 then s.onPalSlot n fun x => { x with build := some b }
      else
        let lens := buildLens counts true
        if s.palRoom n then s.buildInstall n lens
        else s.onPalSlot n fun x => { x with build := some { b with st := .pending, since := s.ran, lens := lens } }
    else s
  | none => s

/-- BUILD_START: the build whose turn it is takes a histogram unit and starts counting. -/
def buildStartOp (n : Nat) (s : State) : State :=
  match (s.palSlot? n).bind (·.build) with
  | some b =>
    if b.st = .waiting && s.histTurn (n % 2) (.slot n) then
      (s.histTake (n % 2)).onPalSlot n fun x => { x with build := some { st := .collecting } }
    else s
  | none => s

/-- PENDING_INSTALL: the older generation's count has reached 0. -/
def pendingInstallOp (n : Nat) (s : State) : State :=
  match (s.palSlot? n).bind (·.build) with
  | some b => if b.st = .pending && s.palRoom n then s.buildInstall n b.lens else s
  | none => s

/-- PENDING_INSTALL_WAIT: a pending install has waited 10 ms (R291). -/
def pendingInstallWaitOp (n : Nat) (s : State) : State :=
  match (s.palSlot? n).bind (·.build) with
  | some b =>
    if b.st = .pending && !b.alarmed && s.since b.since 10000000 && !s.palRoom n then
      (s.onPalSlot n fun x => { x with build := some { b with alarmed := true } }).raise 346
    else s
  | none => s

/-! ### Palette commands (R290) -/

/-- The slot that PAL_SEL names. -/
def State.palSel (s : State) : Nat := s.reg Reg.tcPalSel % 4096

/-- PAL_RESULT takes the outcome of a command. -/
def State.palResult (s : State) (st : Status) (gen : Nat) : State := s.setReg Reg.tcPalResult (st.code + gen * 256)

/-- The 128 bytes of PAL_DATA. -/
def State.palData (s : State) : List Byte := (List.range 32).flatMap fun i => leBytes 4 (s.reg (Reg.tcPalData + 4 * i))

/-- INSTALL: PAL_DATA becomes the newest generation (R266, R270). -/
def palInstallOp (s : State) : State :=
  let n := s.palSel
  match s.palSlot? n with
  | none => s.palResult .unsupported 0
  | some x =>
    let k := symCount x.smode
    let all := lensOf s.palData
    if !lensValid (all.take k) || (all.drop k).any (· != 0) then s.palResult .unsupported 0
    else if !s.palRoom n then s.palResult .busy 0
    else
      let cancel := x.build.any fun b => b.st = .collecting || b.st = .pending
      let s := s.when cancel fun s => (s.histDrop (n % 2) (.slot n)).bump Reg.tcBuildsCancelled
      let y := x.install (all.take k)
      let s := s.onPalSlot n fun _ => { y with build := if cancel then none else x.build }
      s.palResult .ok x.nextNum

/-- BUILD: a build of the slot is requested; a slot that has one keeps it. -/
def palBuildOp (s : State) : State :=
  let n := s.palSel
  match s.palSlot? n with
  | none => s.palResult .unsupported 0
  | some x => (if x.build.isSome then s else s.buildAsk n).palResult .ok 0

/-- CONFIG: PAL_CFG's SMODE, ENC_MODE and AUTO (R276, R290). -/
def palConfigOp (s : State) : State :=
  let n := s.palSel
  let cfg := s.reg Reg.tcPalCfg
  let mode := cfg % 4
  let always := bit cfg 4
  if n = 0 || mode = 3 then s.palResult .unsupported 0
  else match s.palSlot? n with
    | none =>
      let x : Slot := { smode := mode, always := always, auto := bit cfg 8 }
      (s.onPal fun p => { p with slots := p.slots.put n x }).palResult .ok 0
    | some x =>
      if x.newer.isSome && (x.smode != mode || x.always != always) then s.palResult .unsupported 0
      else
        let restart := x.smode != mode && x.build.isSome
        let s := s.onPalSlot n fun x => { x with smode := mode, always := always, auto := bit cfg 8 }
        let s := s.when restart fun s => s.onPalSlot n fun x =>
          { x with build := x.build.map fun b => { b with counts := [], blocks := 0 } }
        s.palResult .ok 0

/-- CLEAR: both generations retired, the slot UNCONFIGURED. -/
def palClearOp (s : State) : State :=
  let n := s.palSel
  if n = 0 then s.palResult .unsupported 0
  else match s.palSlot? n with
    | none => s.palResult .ok 0
    | some x =>
      let held (g : Option Gen) : Bool := g.any fun g => s.palRefs n g.num != 0
      if held x.newer || held x.older then s.palResult .busy 0
      else
        let s := s.histDrop (n % 2) (.slot n)
        (s.onPal fun p => { p with slots := p.slots.del n }).palResult .ok 0

/-- READ: the selected generation's lengths into PAL_DATA. The manual states no RESULT where the slot holds no such
generation: a free value then (log entry 27). -/
def palReadOp (s : State) : State :=
  let x := s.palSlot? s.palSel
  let g := if bit (s.reg Reg.tcPalSel) 16 then x.bind (·.older) else x.bind (·.newer)
  match g with
  | none =>
    let (v, s) := s.draw
    s.setReg Reg.tcPalResult (v % 256)
  | some g =>
    let bs := lensBytes g.lens
    let s := (List.range 32).foldl (fun s i => s.setReg (Reg.tcPalData + 4 * i) (leField bs (4 * i) 4)) s
    s.palResult .ok 0

/-! ### Coded writes (R275 to R277, R282) -/

/-- Encode a block at codec die d under a slot: the frame, and the counts that it leaves. -/
def State.encodeAt (s : State) (d n : Nat) (f : Fmt) (fcode : Nat) (values : List Byte) : Coded × Option PalRef × State :=
  let x := (s.palSlot? n).getD { }
  let c := encodeBlock f fcode (x.newer.map fun g => (g.num, g.lens)) n x.always values
  let pg := codecPage d
  let s := if c.coded then s.bump64 (Reg.tcEncBlocks pg) else s.bump (Reg.tcEncRaw pg)
  let s := (s.bump64 (Reg.tcRawBytes pg) values.length).bump64 (Reg.tcCodedBytes pg) c.used
  (c, x.newer.map fun g => { slot := n, gen := g.num }, s)

/-- The fields of a COMPRESS write's prefix: slot and format code. -/
def compressPrefix (f : Frame) : Nat × Nat := (leField f.payload 0 2 % 4096, leField f.payload 2 1)

/-- The checks of a COMPRESS write (R275, R286): the frame that it writes, and the first check that fails. -/
def State.compressCheck (s : State) (tenant : Nat) (f : Frame) : Option Status × State :=
  let (n, fc) := compressPrefix f
  let off := offOf f.addr.toNat
  if s.boot.service != .full then (some .held, s)
  else match fmtOf fc with
    | none => (some .unsupported, s)
    | some fmt => match smodeOf fmt with
      | none => (some .unsupported, s)
      | some mode =>
        let x := s.palSlot? n
        let frame := frameSize mode (x.any (·.always))
        if f.len.toNat != 8 + fmt.rowBytes 512 || f.payload.length != f.len.toNat || n = 0 || off % 64 != 0 ||
            x.any (fun x => x.smode != mode) then (some .unsupported, s)
        else if devOf f.addr.toNat != s.device then (some .notPresent, s.bump Reg.rootForeignAddr)
        else if s.accessHeld off then (some .held, s)
        else match s.grantCheck tenant off frame { write := true } with
          | some st => (some st, s)
          | none => (if s.serves (codecPage (homeDie off)) then none else some .busy, s)

/-- Store 512 values coded in a slot at codec die d: an EMPTY slot with AUTO begins a build, and the block's symbols
count towards a build (R273, R302). -/
def State.codeBlock (s : State) (d n : Nat) (f : Fmt) (fcode : Nat) (values : List Byte) :
    Coded × Option PalRef × State :=
  let x := (s.palSlot? n).getD { }
  let s := s.when (x.auto && x.newer.isNone && x.build.isNone) fun s => s.buildAsk n
  let (c, r, s) := s.encodeAt d n f fcode values
  (c, r, s.buildCount n x.smode (symbolsOf f values))

/-- An UNCONFIGURED slot is configured for a mode (R275). -/
def State.palConfigure (s : State) (n mode : Nat) : State :=
  match s.palSlot? n with
  | some _ => s
  | none => s.onPal fun p => { p with slots := p.slots.put n { smode := mode, auto := true } }

/-- A COMPRESS write that has passed its checks, encoded: the slot is configured or begins a build where R273 and R275
say so; the frame to write, and the reference it holds. -/
def State.compressFrame (s : State) (f : Frame) : Frame × Option PalRef × State :=
  let (n, fc) := compressPrefix f
  let fmt := (fmtOf fc).getD .bf16
  let s := s.palConfigure n ((smodeOf fmt).getD 0)
  let (c, r, s) := s.codeBlock (homeDie (offOf f.addr.toNat)) n fmt fc (f.payload.drop 8)
  ({ f with len := BitVec.ofNat 16 c.frame.length, payload := c.frame }, r, s)

/-! ### Decoding (R269, R271, R279) -/

/-- What the reader of a block meets: its failure, or the codes to decode it with and the generation to refer to. -/
def State.blockCodes (s : State) (h : BlockHead) (f : Fmt) (fcode frame : Nat) :
    Except Status (List (Nat × Nat) × Option (Nat × Nat)) :=
  if !h.consistent f fcode frame then .error .check
  else if !h.coded then .ok (fixedCodes (symWidth h.smode), none)
  else match (s.palSlot? h.slot).bind fun x => (x.gen? h.gen).map fun g => (x, g) with
    | none => .error .paletteGone
    | some (x, g) => if x.smode != h.smode then .error .check else .ok (codesOf g.lens, some (h.slot, h.gen))

/-- Read and decode one block of a frame at va for a unit: the failure, or its values with the bits of its raw part and
symbol stream and whether it was raw. A generation is referred to from the header to the end of the decode. -/
def Ctx.decode (c : Ctx) (va stream : Nat) (f : Fmt) (fcode frame page : Nat) :
    Eng (Except Status (List Byte × Nat × Bool)) := do
  match ← c.tryLoad va 64 stream with
  | .error st => pure (.error st)
  | .ok line =>
    let h := blockHead line
    match (← get).blockCodes h f fcode frame with
    | .error st => pure (.error st)
    | .ok (codes, r) =>
      let ref : PalRef := match r with
        | some (slot, gen) => { slot := slot, gen := gen, unit := c.unit, page := page }
        | none => { slot := h.smode, gen := 0, unit := c.unit, page := page, raw := true }
      modify fun s => s.onJob c.job fun j => { j with refs := ref :: j.refs }
      let more ← c.tryLoad va (wholeLines (h.size f)) stream
      modify fun s => s.onJob c.job fun j => { j with refs := j.refs.erase ref }
      match more with
      | .error st => pure (.error st)
      | .ok block =>
        match decodeBlock f h codes block with
        | none => pure (.error .check)
        | some v =>
          let side := if f = .shade4 then 0 else 8 * rawBytes f
          pure (.ok (v, side + h.total, !h.coded))

/-- What a decode has come to. -/
def Decoded.result (d : Decoded) : Except Status (List Byte × Nat × Bool) :=
  match d.fail with
  | some st => .error st
  | none => .ok (d.vals, d.bits, d.raw)

/-- A block of a unit, decoded once however often the unit waits (R269, R288): what it came to, and whether it was decoded
now. -/
def Ctx.readBlock (c : Ctx) (va stream : Nat) (f : Fmt) (fcode frame page : Nat) :
    Eng (Bool × Except Status (List Byte × Nat × Bool)) := do
  let j ← c.theJob
  match j.blocks.find? fun d => d.unit = c.unit && d.va = va with
  | some d => pure (false, d.result)
  | none =>
    let d : Decoded := match ← c.decode va stream f fcode frame page with
      | .error st => { unit := c.unit, va := va, fail := some st }
      | .ok (v, n, raw) => { unit := c.unit, va := va, vals := v, bits := n, raw := raw }
    modify fun s => s.onJob c.job fun j => { j with blocks := d :: j.blocks }
    pure (true, d.result)

end Sys2Proof.Machine
end

