-- ==== Sys2Proof/Machine/Tiers.lean ====
section
/-! DEFINITION. Moves of Blended tiles (R32, R33, R122 to R127, R282 to R285), scrubbing and the write-back of corrected
lines (R110, R112). -/

namespace Sys2Proof.Machine

/-! ### Ending a move -/

/-- Add n to the k-th count of a job. -/
def Job.count (j : Job) (k n : Nat) : Job :=
  let l := j.counts ++ List.replicate (k + 1 - j.counts.length) 0
  { j with counts := l.set k (l.getD k 0 + n) }

/-- How a move ends: the tile has moved, the mute has lost its gain, or the move is refused or abandoned after all. -/
inductive MoveEnd where
  | moved | noGain | failed
  deriving DecidableEq, Repr

/-- A move that a WAKE or SLEEP began has ended (R311, Table 10-7): a tile moved up or muted counts, a tile of a WAKE that is
refused under R126 counts, a tile of a SLEEP that loses its gain counts as left uncompressed. -/
def Job.moveEnded (j : Job) (target : Tier) (e : MoveEnd) : Job :=
  let j : Job := { j with finished := j.finished + 1 }
  match e, target with
  | .moved, .near | .moved, .muted => j.count 0 1
  | .failed, .near => j.count 2 1
  | .noGain, .muted => j.count 2 1
  | _, _ => j

/-- A move is over: accesses that waited for it go on. A tile of a SLEEP that has lost its gain stays uncompressed in the bulk
tier (R311). -/
def State.endMove (s : State) (t : Nat) (m : Move) (e : MoveEnd) : State :=
  let s := (s.onTile t fun x => { x with moving := false }).onStore fun st => { st with moves := st.moves.del t }
  let s := match m.cause with
    | .job i =>
      let s := s.onJob i fun j => j.moveEnded m.target e
      if e = .noGain && (s.tile t).tier = .near then
        match s.beginMove t .bulk (.job i) with
        | (.begun, s) => s.onJob i fun j => { j with units := j.units + 1 }
        | (_, s) => s
      else s
    | _ => s
  m.waiting.foldl (fun s i => s.startOp i) s

/-- Operations that have started on a tile and have not completed. -/
def State.tileOps (s : State) (t : Nat) : List Nat :=
  (s.jobs.ops.filter fun o => o.2.started && !o.2.finished && o.2.left.any fun l => l / 1024 = t).map (·.1)

/-- Step 4 of a migration: the remap entry names the destination; the source is freed later. -/
def State.switchTile (s : State) (t : Nat) (m : Move) : State :=
  let x := s.tile t
  let old : FreeSrc := { tier := x.tier, location := x.location, sectors := x.sectors, ops := s.tileOps t }
  let lines : Nat → Bool := fun l => l / 1024 = t
  let coded := if m.target = .muted then muteTile (s.tileBytes t) else []
  s.onStore fun st =>
    { st with tiles := st.tiles.put t { x with tier := m.target, location := m.location, sectors := m.sectors, moving := false,
                                               coded := coded },
              freeing := st.freeing.put t (st.freeing.getD t [] ++ [old]),
              flawed := st.flawed.filter (fun e => !lines e.1),
              corrected := st.corrected.filter (fun l => !lines l) }

/-- The counters of a completed move: of the tier manager, and of the codec that coded or decoded the tile. -/
def State.countMove (s : State) (t : Nat) (m : Move) (source : Tier) : State :=
  let d := tileDie t
  let pg := tmPage d
  let cp := codecPage (m.codec.getD d)
  let s := match m.target with
    | .near => s.bump (Reg.tmPromotions pg)
    | .bulk => s.when (m.cause != .unmute) fun s => s.bump (Reg.tmDemotions pg)
    | .muted =>
      ((s.bump (Reg.tmMutes pg)).bump (Reg.tcMutesCoded cp)).bump64 (Reg.tcRawBytes cp) 65536
        |>.bump64 (Reg.tcCodedBytes cp) (4096 * m.sectors)
    | .unbacked => s
  if source = .muted then (s.bump (Reg.tmUnmutes pg)).bump (Reg.tcUnmutesDone cp) else s

/-- A copy that meets an uncorrectable line abandons the move, and the tile stays at its source (R126). -/
def State.abandonMove (s : State) (t : Nat) (m : Move) : State :=
  ((s.bump (Reg.tmMoveAbandoned (tmPage (tileDie t)))).raise (tierSource (tileDie t))).endMove t m .failed

/-- Step 4 of a migration with its counts and its end; a muted source is decoded first (R285). -/
def State.finishMove (s : State) (t : Nat) (m : Move) : State :=
  let source := (s.tile t).tier
  if source = .muted then
    match s.decodeTile t with
    | (true, s) => ((s.switchTile t m).countMove t m source).endMove t m .moved
    | (false, s) => s.endMove t m .failed
  else ((s.switchTile t m).countMove t m source).endMove t m .moved

/-- MOVE_COPY_PASS_DONE: a pass that has met an uncorrectable line abandons the move; lines written meanwhile are copied
again; with none left the remap entry is switched (R32, R126). Moves wait for full service (R128). -/
def moveCopyPassDoneOp (t : Nat) (s : State) : State :=
  match s.store.moves.get? t with
  | none => s
  | some m =>
    if m.cause = .unmute || s.boot.service != .full then s
    else
      let (ok, s) := s.readTile t
      if !ok then s.abandonMove t m
      else if !m.marked.isEmpty then
        s.onStore fun st => { st with moves := st.moves.put t { m with pass := m.pass + 1, marked := [] } }
      else if m.target = .muted && muteSectors (s.tileBytes t) != m.sectors then
        let n := muteSectors (s.tileBytes t)
        if 15 < n then (s.bump (Reg.tmMuteNoGain (tmPage (tileDie t)))).endMove t m .noGain
        else
          let s := s.onStore fun st => { st with moves := st.moves.del t }
          match s.bulkSectors n with
          | (some f, s) => s.finishMove t { m with location := f, sectors := n }
          | (none, s) => (s.bump (Reg.tmMoveRefused (tmPage (tileDie t)))).endMove t m .failed
      else s.finishMove t m

/-- MOVE_SOURCE_FREE: the sources of a tile are freed whose accesses have all completed (R33, step 5 of a migration). -/
def moveSourceFreeOp (t : Nat) (s : State) : State :=
  let left := (s.store.freeing.getD t []).filter fun x => x.ops.any fun i => (s.op? i).any fun o => !o.finished
  s.onStore fun st => { st with freeing := if left.isEmpty then st.freeing.del t else st.freeing.put t left }

/-- UNMUTE_DONE: the tile lies in its bulk frame and the waiting accesses are served; a tile that does not decode stays
muted, and they complete CHECK (R127, R285); one that cannot be read is not unmuted (R126). A half without a codec that serves
unmutes nothing (R282). -/
def unmuteDoneOp (t : Nat) (decodes : Bool) (s : State) : State :=
  match s.store.moves.get? t with
  | none => s
  | some m =>
    if m.cause != .unmute || s.boot.service != .full then s
    else match m.codec.orElse fun _ => s.muteCodec (tileDie t) with
      | none => s
      | some g =>
        let m := { m with codec := some g }
        let (ok, s) := s.readTile t
        if !ok then s.abandonMove t m
        else if decodes then s.finishMove t m
        else (s.decodeFails t).endMove t m .failed

/-! ### Window ends (R123 to R125, Table 4-7) -/

/-- The Blended tiles of a die that a window end may move, hottest first, then by rising address. -/
def State.rankTiles (s : State) (d : Nat) (p : Nat → Tile → Bool) : List Nat :=
  let l := s.store.tiles.filter fun e => tileDie e.1 = d && !e.2.moving && 2 ≤ e.2.seen && e.2.tier != .unbacked && p e.1 e.2
  (l.mergeSort fun a b => b.2.accesses < a.2.accesses || (a.2.accesses = b.2.accesses && a.1 ≤ b.1)).map (·.1)

/-- SEEN and the idle count of every backed tile of a die at a window end (Table 4-9). -/
def State.ageTiles (s : State) (d : Nat) : State :=
  s.onStore fun st => { st with tiles := st.tiles.map fun (k, x) => (k,
    if tileDie k = d && x.tier != .unbacked then
      { x with seen := min (x.seen + 1) 2, idle := if x.accesses = 0 then min (x.idle + 1) 16 else 0 }
    else x) }

/-- ACCESSES of every tile of a die is cleared (R124). -/
def State.clearAccesses (s : State) (d : Nat) : State :=
  s.onStore fun st => { st with tiles := st.tiles.map fun (k, x) => (k, if tileDie k = d then { x with accesses := 0 } else x) }

/-- Begin moves of tiles in turn while fewer than the budget have begun: how many have begun, and how many found no frame. -/
def State.moveTiles (budget : Nat) (target : Tile → Tier) : Nat × Nat × State → List Nat → Nat × Nat × State :=
  List.foldl fun (n, short, s) t =>
    if budget ≤ n then (n, short, s)
    else match s.beginMove t (target (s.tile t)) .window with
      | (.begun, s) => (n + 1, short, s)
      | (.noFrame, s) => (n, short + 1, s)
      | (_, s) => (n, short, s)

/-- The moves that Table 4-7 calls for within MOVE_BUDGET. Promotions come first; tiles that lack near room have the coldest
PREFER_NEAR tiles demoted in their place. -/
def State.windowMoves (s : State) (d : Nat) : State :=
  let ctrl := s.reg Reg.tmMigrateCtrl
  let budget := s.reg Reg.tmMoveBudget % 65536
  let pin := s.rankTiles d fun _ x => x.policy = 0 && (x.tier = .bulk || x.tier = .muted)
  let hot := s.rankTiles d fun _ x => x.tier = .bulk &&
    ((x.policy = 1 && bits ctrl 15 8 ≤ x.accesses) || (x.policy = 2 && bits ctrl 23 16 ≤ x.accesses))
  let (done, short, s) := State.moveTiles budget (fun _ => .near) (0, 0, s) (pin ++ hot)
  let room := (s.rankTiles d fun _ x => x.policy = 1 && x.tier = .near).reverse.take short
  let cold := (s.rankTiles d fun t x => room.contains t ||
    (x.policy = 2 && x.tier = .near && x.accesses = 0) ||
    (x.policy = 3 && (x.tier = .near || x.tier = .bulk) && bits ctrl 27 24 ≤ x.idle)).reverse
  (State.moveTiles budget (fun x => if x.policy = 3 then .muted else .bulk) (done, 0, s) cold).2.2

/-- TIER_WINDOW_END for one die: SEEN and the idle count of every tile, the moves, and ACCESSES cleared (R124). -/
def tierWindowEndOp (d : Nat) (s : State) : State :=
  let last := s.store.windowAt.getD d 0
  let span := s.reg Reg.tmWindow % 1024 * 1000000
  if s.boot.service != .full || !s.since last span || !s.serves (tmPage d) then s
  else
    let s := (s.onStore fun st => { st with windowAt := st.windowAt.set d s.ran }).ageTiles d
    (s.when (bit (s.reg Reg.tmMigrateCtrl) 0) fun s => s.windowMoves d).clearAccesses d

/-! ### Scrubbing (R110, R112) -/

/-- CORRECTED_WRITEBACK: the corrected line is written back. -/
def correctedWritebackOp (line : Nat) (s : State) : State :=
  if s.store.corrected.contains line then s.freshLine line else s

def State.onChannel (s : State) (page : Nat) (f : Channel → Channel) : State :=
  s.onStore fun st =>
    if isNearPage page then
      let k := 4 * ((page - 0x1000) / 0x400) + (page % 0x400 - 0x20)
      { st with near := st.near.put k (f (st.near.getD k { })) }
    else
      let k := 8 * ((page - 0x1000) / 0x400) + (page % 0x400 - 0x30)
      { st with bulk := st.bulk.put k (f (st.bulk.getD k { })) }

/-- Whether a page is a channel's. -/
def isChannel (page : Nat) : Bool := (unitOf page).any fun u => u.ty = .nearChannel || u.ty = .bulkChannel

/-- SCRUB_PASS: the channel has read every line of its medium; the lines it corrected are written back (R112). -/
def scrubPassOp (page : Nat) (s : State) : State :=
  let ctrl := s.reg Reg.tmScrubCtrl
  let hours := bits ctrl 15 8 * 3600000000000
  if isChannel page && bit ctrl 0 && s.boot.service = .full && (s.channel page).trained && s.serves page &&
      s.since (s.channel page).scrubAt hours then
    let mine := (s.store.flawed.map (·.1)).filter fun l => s.channelOf (s.mediumOf (l * 64)) = some page
    let s := mine.foldl (fun s l =>
      let (ok, s) := s.readLine l
      if ok then s.freshLine l else s) s
    (s.onChannel page fun c => { c with scrubAt := s.ran }).bump (Reg.chScrubPasses page)
  else s

/-! ### TIER_POLICY (R123) -/

/-- TIER_POLICY: stream 0 translates the first page of every tile; the whole range must be tiles of one Blended extent
of the tenant. -/
def tierPolicyUnit (c : Ctx) : Eng Unit := do
  let j ← c.theJob
  let va := j.u 32 8
  let n := j.u 40 4
  let spans := (List.range n).map fun i => ({ va := va + 65536 * i, len := 1 } : Span)
  c.prepare spans
  let mut tiles : List Nat := []
  for sp in spans do
    let pa ← c.xlat sp.va .read 0 false
    let off := offOf pa
    if off % 65536 != 0 || windowOf off != .blended then halt .unsupported
    tiles := tiles ++ [tileOf off]
  match tiles with
  | [] => pure ()
  | t :: r =>
    if r.any fun x => x / 16384 != t / 16384 then halt .unsupported
    match (← get).engineCheck j.tenant (t * 65536) 1 { } with
    | some st => halt st
    | none =>
      modify fun s => s.onJob c.job fun x =>
        { x with extents := if x.extents.contains (t / 16384) then x.extents else t / 16384 :: x.extents }
      modify fun s => tiles.foldl (fun s t => s.onTile t fun x => { x with policy := j.u 44 1 }) s

end Sys2Proof.Machine
end

