-- ==== Sys2Proof/Machine/Bulk.lean ====
section
/-! DEFINITION. Work that runs unit by unit in order: the bulk operations (R212 to R217) and RECODE (R278). -/

namespace Sys2Proof.Machine

/-- Whether a unit that waited may run again: what it missed has come, and no earlier unit has stopped a stream of it. -/
def Job.mayRun (j : Job) (b : Blocked) : Bool :=
  b.misses.all fun m => match m with
    | .behind st => !(j.stoppedBefore b.unit).contains st
    | _ => false

/-- Whether the streams that are free may run ahead into the next unit: every unit that waits does so at a miss of a stream,
within the room of engine staging (R185, log entry 90). -/
def Job.mayLead (j : Job) : Bool :=
  j.next < j.units && (j.blocked.isEmpty ||
    (j.blocked.length ≤ Config.readAhead + 1 && j.blocked.all fun b => b.misses.any fun m => match m with
      | .op _ => false
      | _ => true))

/-- Run the units of a job in order: those that waited and may go on, and the next while none waits or a stream runs ahead;
the fuel is their number. -/
def State.runSeq (body : Ctx → Eng Unit) (key : Job → Nat → Nat) (i : Nat) : Nat → State → State
  | 0, s => s
  | n + 1, s =>
    match s.job? i with
    | none => s
    | some j =>
      if j.stopped.isSome then s
      else match j.blocked.find? j.mayRun with
        | some b =>
          let c : Ctx := { job := i, unit := b.unit, engine := b.engine }
          State.runSeq body key i n (s.runUnit c (key j b.unit) (body c))
        | none =>
          if j.mayLead then
            let c : Ctx := { job := i, unit := j.next, engine := j.engine }
            let s := s.onJob i fun j => { j with next := j.next + 1 }
            State.runSeq body key i n (s.runUnit c (key j c.unit) (body c))
          else s

/-! ### Parts of a range -/

/-- Number of 4 KiB pages that a range touches. -/
def pagesOf (va len : Nat) : Nat := if len = 0 then 0 else (va + len - 1) / 4096 + 1 - va / 4096

/-- The part of a range in its k-th page: its address and length. -/
def pagePart (va len k : Nat) : Nat × Nat :=
  let lo := max va ((va / 4096 + k) * 4096)
  (lo, min (va + len) ((va / 4096 + k + 1) * 4096) - lo)

/-- The bytes of parts, and none where a line failed. -/
def partBytes (l : List (Nat × Nat × Except Status (List Byte))) : List (Option Byte) :=
  l.flatMap fun (_, n, r) => match r with
    | .ok bs => bs.map some
    | .error _ => List.replicate n none

/-- Longest runs of bytes that are there, with the place where each begins. -/
def byteRuns : Nat → List (Option Byte) → List (Nat × List Byte)
  | _, [] => []
  | k, none :: r => byteRuns (k + 1) r
  | k, some b :: r =>
    match byteRuns (k + 1) r with
    | (o, bs) :: t => if o = k + 1 then (k, b :: bs) :: t else (k, [b]) :: (o, bs) :: t
    | [] => [(k, [b])]

/-- Keep the failures of parts, counted from place pos on. -/
def Ctx.noteParts (c : Ctx) (pos : Nat) (l : List (Nat × Nat × Except Status (List Byte))) : Eng Unit :=
  modify fun s => l.foldl (fun s (o, _, r) => match r with
    | .error st => s.jobFail c.job (pos + o) st
    | .ok _ => s) s

/-! ### Overlapping copies (R215) -/

/-- What the tables say of an address now, without an effect: the address and the size of its page. -/
def State.peekFrom (s : State) (rootBits va : Nat) : Nat → Nat → Nat → Option (Nat × Nat)
  | 0, _, _ => none
  | n + 1, level, table =>
    let v := s.leAt (offOf table + 8 * walkIndex rootBits level va) 8
    let addr := v / 4096 * 4096
    if !bit v 0 then none
    else if bit v 1 then
      let size := if level = 4 && bit v 5 then 65536 else levelSize level
      some (addr + va % size, size - va % size)
    else s.peekFrom rootBits va n (level + 1) addr

/-- The translated ranges of a virtual range, page by page. -/
def State.peekRanges (s : State) (t va len : Nat) : List (Nat × Nat) :=
  let c := s.context t
  (pageParts va len).filterMap fun (a, n) => (s.peekFrom c.rootBits a 4 1 c.root).map fun (pa, _) => (pa, n)

/-! ### Bulk operations -/

/-- FILL: one page of the destination. -/
def fillUnit (c : Ctx) : Eng Unit := do
  let j ← c.theJob
  let dst := j.u 32 8
  let plen := j.u 56 1
  let (a, n) := pagePart dst (j.u 40 8) c.unit
  c.prepare [{ va := a, len := n, access := .write }]
  let pat := slice j.body 48 plen
  let bs := (List.range n).map fun i => pat.getD ((a - dst + i) % plen) 0
  let _ ← c.save a bs 0 (a - dst)

/-- COPY: one page of the destination; a byte that overlaps the source takes the copy or keeps its value as a free
value says (R215). -/
def copyUnit (c : Ctx) : Eng Unit := do
  let j ← c.theJob
  let src := j.u 32 8
  let dst := j.u 40 8
  let len := j.u 48 8
  let (a, n) := pagePart dst len c.unit
  let o := a - dst
  c.prepare [{ va := src + o, len := n }, { va := a, len := n, access := .write, stream := 1, peer := true }]
  let got ← c.loadParts (src + o) n 0
  c.noteParts o got
  let pa ← c.xlat a .write 1 true
  let s ← get
  let source := s.peekRanges j.tenant src len
  let (fv, s) := s.draw
  set s
  let keep (i : Nat) (b : Option Byte) : Option Byte :=
    if (source.any fun (p, m) => p ≤ pa + i && pa + i < p + m) && !Config.overlapTakesCopy fv (o + i) then none else b
  let bytes := (partBytes got).zipIdx.map fun (b, i) => keep i b
  for (ro, bs) in byteRuns 0 bytes do
    if devOf pa = s.device then
      let _ ← c.store (pa + ro) bs (o + ro)
    else c.peerStore (pa + ro) bs (o + ro)

/-- The place of the first difference between two lists of bytes that are both there. -/
def firstDiff : Nat → List (Option Byte) → List (Option Byte) → Option Nat
  | k, some x :: xs, some y :: ys => if x = y then firstDiff (k + 1) xs ys else some k
  | k, _ :: xs, _ :: ys => firstDiff (k + 1) xs ys
  | _, _, _ => none

/-- COMPARE: one page of A; the lowest difference is the job's first count. -/
def compareUnit (c : Ctx) : Eng Unit := do
  let j ← c.theJob
  let va := j.u 32 8
  let vb := j.u 40 8
  let (a, n) := pagePart va (j.u 48 8) c.unit
  let o := a - va
  c.prepare [{ va := a, len := n }, { va := vb + o, len := n, stream := 1 }]
  let x ← c.loadParts a n 0
  let y ← c.loadParts (vb + o) n 1
  c.noteParts o x
  c.noteParts o y
  match firstDiff o (partBytes x) (partBytes y) with
  | some k => modify fun s => s.onJob c.job fun j => if j.counts.isEmpty then { j with counts := [k] } else j
  | none => pure ()

/-- The input format and the element size of a REDUCE; none for the integer types. -/
def reduceIn (ity : Nat) : Option Fmt × Nat :=
  match ity with
  | 0 => (some .fp32, 4)
  | 1 => (some .bf16, 2)
  | 2 => (some .fp16, 2)
  | 3 => (none, 4)
  | _ => (none, 8)

/-- Output element size of a REDUCE. -/
def Job.reduceOut (j : Job) : Nat := if j.u 66 1 = 1 then 4 else (reduceIn (j.u 65 1)).2

/-- The result of one element of a REDUCE (R216): its bytes. -/
def Job.reduceElem (j : Job) (e : Nat) (vals : List (List Byte)) : List Byte :=
  let op := j.u 64 1
  match reduceIn (j.u 65 1) with
  | (some f, _) =>
    let xs := vals.map fun b => (elemAt f b 0).f32
    let r := tree (if op = 0 then f32Add else if op = 1 then f32Min else f32Max) 0 xs
    let out := if j.u 66 1 = 1 then Fmt.fp32 else f
    (writeRow out j.rounding e 1 [r]).bytes
  | (none, n) =>
    let xs := vals.map fun b => signedOf (8 * n) (leNat b)
    let r : Int := tree (if op = 0 then (· + ·) else if op = 1 then min else max) 0 xs
    leBytes n (wrapTo (8 * n) r)

/-- The elements of a REDUCE whose results begin in the k-th page of the destination. -/
def Job.reduceRange (j : Job) (k : Nat) : Nat × Nat :=
  let dst := j.u 40 8
  let osz := j.reduceOut
  let edge (p : Nat) : Nat := ceilDiv (p * 4096 - dst) osz
  (if k = 0 then 0 else min (j.u 60 4) (edge (dst / 4096 + k)), min (j.u 60 4) (edge (dst / 4096 + k + 1)))

/-- REDUCE: the elements of one page of the destination; an element with a failed input is left as it is. -/
def reduceUnit (c : Ctx) : Eng Unit := do
  let j ← c.theJob
  let src := j.u 32 8
  let dst := j.u 40 8
  let stride := j.u 48 8
  let isz := (reduceIn (j.u 65 1)).2
  let osz := j.reduceOut
  let (lo, hi) := j.reduceRange c.unit
  let n := hi - lo
  if n = 0 then pure ()
  else
    let at_ (i : Nat) : Nat := i * stride + lo * isz
    let reads := (List.range (j.u 56 4)).map fun i => ({ va := src + at_ i, len := n * isz } : Span)
    c.prepare (reads ++ [{ va := dst + lo * osz, len := n * osz, access := .write, stream := 1 }])
    let mut rows : List (List (Option Byte)) := []
    for i in List.range (j.u 56 4) do
      let got ← c.loadParts (src + at_ i) (n * isz) 0
      c.noteParts (at_ i) got
      rows := rows ++ [partBytes got]
    let elem (e : Nat) : List (Option Byte) :=
      let vals := rows.map fun r => (r.drop (e * isz)).take isz
      if vals.all fun v => v.all Option.isSome then (j.reduceElem (lo + e) (vals.map fun v => v.filterMap id)).map some
      else List.replicate osz none
    for (ro, bs) in byteRuns 0 ((List.range n).flatMap elem) do
      let _ ← c.save (dst + lo * osz + ro) bs 1 (lo * osz + ro)

/-- The work of a bulk operation. -/
def bulkUnit (ty : Nat) (c : Ctx) : Eng Unit :=
  match ty with
  | 1 => fillUnit c
  | 2 => copyUnit c
  | 3 => compareUnit c
  | _ => reduceUnit c

/-- Units of a bulk operation: pages of its destination, or of A for COMPARE. -/
def Job.bulkUnits (j : Job) : Nat :=
  match j.ty with
  | 1 => pagesOf (j.u 32 8) (j.u 40 8)
  | 2 => pagesOf (j.u 40 8) (j.u 48 8)
  | 3 => pagesOf (j.u 32 8) (j.u 48 8)
  | _ => pagesOf (j.u 40 8) (j.u 60 4 * j.reduceOut)

/-- The place under which a bulk unit that fails as a whole is kept. -/
def Job.bulkKey (j : Job) (k : Nat) : Nat :=
  match j.ty with
  | 1 => (pagePart (j.u 32 8) (j.u 40 8) k).1 - j.u 32 8
  | 2 => (pagePart (j.u 40 8) (j.u 48 8) k).1 - j.u 40 8
  | 3 => (pagePart (j.u 32 8) (j.u 48 8) k).1 - j.u 32 8
  | _ => (j.reduceRange k).1 * j.reduceOut

/-- The field checks of step 8 of Table 7-3 for a bulk operation (R212, Table 7-5). -/
def Job.bulkOk (j : Job) : Bool :=
  let tail (n : Nat) : Bool := n ≤ j.body.length && (j.body.drop n).all (· == 0#8)
  let length (n : Nat) : Bool := n != 0 && n ≤ 2 ^ 40
  match j.ty with
  | 1 =>
    let p := j.u 56 1
    tail 57 && length (j.u 40 8) && (p = 1 || p = 2 || p = 4 || p = 8) && j.u 40 8 % p = 0 && j.u 32 8 % p = 0
  | 2 | 3 => tail 56 && length (j.u 48 8)
  | _ =>
    let ity := j.u 65 1
    let isz := (reduceIn ity).2
    tail 67 && j.u 64 1 ≤ 2 && ity ≤ 4 && j.u 66 1 ≤ 1 && !(j.u 66 1 = 1 && 3 ≤ ity) && j.u 32 8 % isz = 0 &&
      1 ≤ j.u 56 4 && j.u 56 4 ≤ 16777216 && 1 ≤ j.u 60 4 && j.u 60 4 ≤ 1048576 && j.u 60 4 * isz ≤ j.u 48 8

/-! ### RECODE (R278) -/

/-- Fields of a compressed tensor's header (Table 9-3). -/
structure TensorHead where
  fmt : Nat
  smode : Nat
  slot : Nat
  rows : Nat
  cols : Nat
  frame : Nat
  deriving DecidableEq, Repr

/-- Read a tensor header. -/
def tensorHead (b : List Byte) : TensorHead :=
  { fmt := leField b 0 1, smode := leField b 1 1, slot := leField b 2 2 % 4096, rows := leField b 4 4,
    cols := leField b 8 4, frame := leField b 12 4 }

/-- Whether a tensor header allows a RECODE of its blocks (Tables 9-3 and 9-4). -/
def State.recodeOk (s : State) (h : TensorHead) (first count : Nat) : Bool :=
  match fmtOf h.fmt with
  | none => false
  | some f =>
    let x := (s.palSlot? h.slot).getD { smode := h.smode }
    smodeOf f = some h.smode && h.slot != 0 && x.smode = h.smode && h.rows % 4 = 0 && h.cols % 128 = 0 &&
      h.frame = frameSize h.smode x.always && first + count ≤ h.rows / 4 * (h.cols / 128)

/-- CHECK_FAIL of a tier codec: its count, its UNIT_ERR bit and its source (R289, R291). -/
def State.codecCheck (s : State) (g : Nat) : State :=
  (s.bump (Reg.tcCheckFail (codecPage g))).unitError (codecPage g) 0 fun s => s.raiseQuiet (344 + g) { status := Status.check.code }

/-- RECODE: one block, read through stream 0 and written through stream 1. -/
def recodeUnit (c : Ctx) : Eng Unit := do
  let j ← c.theJob
  let base := j.u 32 8
  let g := c.engine - 18
  if j.head.isEmpty then
    c.prepare [{ va := base, len := 64 }]
    match ← c.tryLoad base 64 0 with
    | .error st => modify fun s => s.stopJob c.job st
    | .ok b =>
      if (← get).recodeOk (tensorHead b) (j.u 40 4) (j.u 44 4) then modify fun s => s.onJob c.job fun j => { j with head := b }
      else modify fun s => s.stopJob c.job .unsupported
  let j ← c.theJob
  if j.stopped.isNone then
    let h := tensorHead j.head
    let f := (fmtOf h.fmt).getD .bf16
    let va := base + 64 + (j.u 40 4 + c.unit) * h.frame
    c.prepare [{ va := va, len := h.frame }, { va := va, len := h.frame, access := .write, stream := 1 }]
    let (fresh, got) ← c.readBlock va 0 f h.fmt h.frame (codecPage g)
    match got with
    | .error st =>
      if fresh && st = .check then modify fun s => s.codecCheck g
      else if fresh && st = .paletteGone then modify fun s => s.bump (Reg.tcGone (codecPage g))
      halt st
    | .ok (v, _, _) =>
      let base ← get
      let (e, r, s) := base.encodeAt g h.slot f h.fmt v
      set s
      c.saveFrom base 1 (failKey c.unit 0) [(va, e.frame, r)]
      modify fun s => (s.bump (Reg.tcRecoded (codecPage g))).onJob c.job fun j =>
        let a := j.counts.getD 0 0
        let b := j.counts.getD 1 0
        { j with counts := if e.coded then [a + 1, b] else [a, b + 1] }

end Sys2Proof.Machine
end

