-- ==== Sys2Proof/Machine/Matrix.lean ====
section
/-! DEFINITION. Matrix jobs (08_matrix_formats.md): MATMUL and CONVERT, their tiles and runs, the dealing of work to
arrays, and the residue check (R237 to R254), with the expander's share (R264, R280, R281, R288). -/

namespace Sys2Proof.Machine

/-! ### Operand pairs and descriptors (R237, R246, R247, Tables 8-6 and 8-8) -/

/-- FP8 formats. -/
def Fmt.isFp8 (f : Fmt) : Bool := f = .e4m3 || f = .e5m2

/-- R of an operand pair; none where the pair is not accepted (Table 8-6). -/
def pairRows (a b : Fmt) : Option Nat :=
  let wide (f : Fmt) : Bool := f = .bf16 || f.isFp8 || f = .shade4
  let small (f : Fmt) : Bool := f = .int8 || f = .int4
  if a = .fp16 && b = .fp16 then some 1
  else if a.isFp8 && b.isFp8 then some 2
  else if small a && small b then some 2
  else if a = .shade4 && b = .shade4 then some 4
  else if wide a && wide b then some 1
  else none

/-- The format that an array works in for a pair (Table 8-6): BF16 where two formats are widened. -/
def pairMode (a b : Fmt) : Fmt := if a = b || (a.isFp8 && b.isFp8) || a.isInt then (if a.isInt then .int8 else a) else .bf16

/-- The operands of a MATMUL. -/
structure Mat where
  m : Nat
  n : Nat
  k : Nat
  af : Fmt
  bf : Fmt
  cf : Fmt
  df : Fmt
  transB : Bool
  transD : Bool
  beta : Bool
  comp : Bool
  r : Nat

/-- Read the body of a MATMUL (Table 8-8); none where a format code or the pair is not accepted. -/
def Job.mat (j : Job) : Option Mat := do
  let af ← fmtOf (j.u 92 1)
  let bf ← fmtOf (j.u 93 1)
  let df ← fmtOf (j.u 95 1)
  let fl := j.u 96 4
  let cf ← if bit fl 2 then fmtOf (j.u 94 1) else some .fp32
  let r ← pairRows af bf
  some { m := j.u 64 4, n := j.u 68 4, k := j.u 72 4, af := af, bf := bf, cf := cf, df := df, transB := bit fl 0,
         transD := bit fl 1, beta := bit fl 2, comp := bit fl 3, r := r }

/-- The field checks of a MATMUL (R247). -/
def Job.matOk (j : Job) : Bool :=
  match j.mat with
  | none => false
  | some x =>
    let dim (n : Nat) : Bool := 1 ≤ n && n ≤ 16777216
    let row (f : Fmt) (len base stride : Nat) : Bool :=
      f.rowOk len && f.rowBytes len ≤ stride && base % f.align = 0 && stride % f.align = 0
    let dlen := if x.transD then x.m else x.n
    let int := x.af.isInt
    j.f.len = 112 && j.u 96 4 < 16 && j.u 108 4 = 0 && dim x.m && dim x.n && dim x.k &&
      (if x.comp then (smodeOf x.af).isSome && x.m % 4 = 0 && x.k % 128 = 0 && j.u 32 8 % x.af.align = 0
       else row x.af x.k (j.u 32 8) (j.u 76 4)) &&
      row x.bf (if x.transB then x.k else x.n) (j.u 40 8) (j.u 80 4) &&
      row x.df dlen (j.u 56 8) (j.u 88 4) && (x.df != .int32 || int) &&
      (!x.beta || (row x.cf dlen (j.u 48 8) (j.u 84 4) &&
        (x.cf = .fp32 || x.cf = .bf16 || x.cf = .fp16 || (x.cf = .int32 && int))))

/-- Tiles of a MATMUL (R238, R248). -/
def Mat.tileCols (x : Mat) : Nat := ceilDiv x.n 128
def Mat.tiles (x : Mat) : Nat := ceilDiv x.m (128 * x.r) * x.tileCols

/-- Rows m0 to m1 - 1 and columns n0 to n1 - 1 of tile t. -/
def Mat.tile (x : Mat) (t : Nat) : Nat × Nat × Nat × Nat :=
  let m0 := t / x.tileCols * (128 * x.r)
  let n0 := t % x.tileCols * 128
  (m0, min x.m (m0 + 128 * x.r), n0, min x.n (n0 + 128))

/-! ### Elements (R239 to R241) -/

/-- A product of two operands, rounded once to FP32; a mixed pair is widened first (R232, R239). -/
def pairProduct (mixed : Bool) (a b : Fp) : Nat := if mixed then f32Mul a.f32 b.f32 else fpMul a b

/-- The accumulator of one float element: chunks of 128 products, each summed by the tree (R240). -/
def dotFloat (mixed : Bool) : Nat → List Fp → List Fp → Nat → Nat
  | 0, _, _, acc => acc
  | n + 1, a, b, acc =>
    if a.isEmpty then acc
    else
      let p := ((a.take 128).zip (b.take 128)).map fun (x, y) => pairProduct mixed x y
      dotFloat mixed n (a.drop 128) (b.drop 128) (f32Add acc (chunkSum (p ++ List.replicate (128 - p.length) 0)))

/-- The accumulator of one integer element: exact, modulo 2^32 (R241). -/
def dotInt (a b : List Fp) : Nat := wrapTo 32 ((a.zip b).foldl (fun (n : Int) (x, y) => n + x.int * y.int) 0)

/-- One output element before its conversion: FP32 bits, or an INT32 value where DTYPE is INT32 (R240, R241). A float C_IN is
converted to the INT32 value that is added (log entry 91). -/
def Job.matElem (j : Job) (x : Mat) (a b : List Fp) (c : Fp) : Nat :=
  let alpha := j.u 100 4
  let beta := j.u 104 4
  let finish (acc : Nat) : Nat :=
    let r := f32Mul acc alpha
    if x.beta then f32Add r (f32Mul beta c.f32) else r
  if x.af.isInt then
    let acc := dotInt a b
    if x.df = .int32 then
      let cin := if x.cf = .int32 then wrapTo 32 c.int else (convInt 32 c).v
      if x.beta then (acc + cin) % 2 ^ 32 else acc
    else finish (f32OfInt (signedOf 32 acc))
  else finish (dotFloat (x.af != x.bf && !(x.af.isFp8 && x.bf.isFp8)) (ceilDiv a.length 128) a b 0)

/-- Write a row of elements: conversion, or INT32 values as they are (R241). -/
def Job.matRow (j : Job) (x : Mat) (i step : Nat) (vals : List Nat) : Row :=
  if x.df = .int32 then { bytes := vals.flatMap (leBytes 4) } else writeRow x.df j.rounding i step vals

/-! ### Reading operands -/

/-- The values of n elements of a row. -/
def rowVals (f : Fmt) (n : Nat) (bs : List Byte) : List Fp := (List.range n).map (elemAt f bs)

/-- Rows of a list become columns. -/
def columnsOf (n : Nat) (rows : List (List Fp)) : List (List Fp) :=
  (List.range n).map fun c => rows.map fun r => r.getD c .nan

/-- The spans of rows lo to hi - 1, of bytes o to o + n - 1 each. -/
def rowSpans (base stride o n lo hi stream : Nat) (access : Access) : List Span :=
  (List.range (hi - lo)).map fun i => { va := base + (lo + i) * stride + o, len := n, access := access, stream := stream }

/-- Read rows. -/
def Ctx.loadRows (c : Ctx) (spans : List Span) (f : Fmt) (n : Nat) : Eng (List (List Fp)) := do
  let mut out : List (List Fp) := []
  for sp in spans do
    let bs ← c.load sp.va sp.len sp.stream
    out := out ++ [rowVals f n bs]
  pure out

/-! ### The expander (R264, R280, R281, R288) -/

/-- Whether a tensor header fits a MATMUL (R264). -/
def Mat.headOk (x : Mat) (acode : Nat) (h : TensorHead) : Bool :=
  h.fmt = acode && smodeOf x.af = some h.smode && h.cols = x.k && x.m ≤ h.rows &&
    (h.frame = frameSize h.smode false || h.frame = frameSize h.smode true)

/-- A block that does not decode at expander a: counts, UNIT_ERR and source (R288, R291). -/
def State.expanderFail (s : State) (a : Nat) (st : Status) : State :=
  let pg := expanderPage a
  let mark (s : State) (k : Nat) : State := s.unitError pg k fun s => s.raiseQuiet (336 + a)
  if st = .check then mark (s.bump (Reg.exCheckFail pg)) 0
  else if st = .paletteGone then mark (s.bump (Reg.exGone pg)) 1
  else s

/-- Steps that a block keeps its array waiting (R281), in 2,048ths: the block's bits beyond what its steps take. -/
def blockStall (bits r : Nat) : Nat := bits - 8192 / r

/-- Read a compressed block through the expander of array a: its values, and the steps it costs in 2,048ths. -/
def Ctx.expand (c : Ctx) (a va stream : Nat) (f : Fmt) (fcode frame r : Nat) : Eng (List Byte × Nat) := do
  let pg := expanderPage a
  match ← c.readBlock va stream f fcode frame pg with
  | (fresh, .error st) =>
    modify fun s => s.when fresh fun s => s.expanderFail a st
    halt st
  | (fresh, .ok (v, n, raw)) =>
    modify fun s => s.when fresh fun s => ((s.bump64 (Reg.exBlocks pg)).bump64 (Reg.exBitsIn pg) n).when raw fun s => s.bump (Reg.exRawBlocks pg)
    pure (v, blockStall n r)

/-- Rows lo to hi - 1 of a compressed tensor of cols columns whose frames begin at base: their values, and the wait. -/
def Ctx.expandRows (c : Ctx) (a base stream : Nat) (f : Fmt) (fcode frame cols r lo hi : Nat) :
    Eng (List (List Fp) × Nat) := do
  let mut rows : List (List Fp) := []
  let mut wait := 0
  for br in List.range (ceilDiv hi 4 - lo / 4) do
    let mut four : List (List Fp) := [[], [], [], []]
    for bc in List.range (cols / 128) do
      let (v, w) ← c.expand a (base + ((lo / 4 + br) * (cols / 128) + bc) * frame) stream f fcode frame r
      wait := wait + w
      four := (four.zip (parts (f.rowBytes 128) 4 v)).map fun (x, y) => x ++ rowVals f 128 y
    rows := rows ++ four
  pure ((rows.drop (lo % 4)).take (hi - lo), wait)

/-! ### A MATMUL tile -/

/-- Count the work of a tile on an array: steps, waits, the tile and its outputs (R233, R254). -/
def State.countTile (s : State) (a steps wait load ovf nan : Nat) : State :=
  let pg := arrayPage a
  let s := (s.bump64 (Reg.maSteps pg) steps).bump64 (Reg.maStallStream pg) (wait / 2048)
  let s := (s.bump64 (Reg.exShortSteps (expanderPage a)) (wait / 2048)).bump64 (Reg.maStallLoad pg) load
  ((s.bump (Reg.maTiles pg)).bump (Reg.maOverflows pg) ovf).bump (Reg.maNanOut pg) nan

/-- A job notes that an array has worked for it: whether this is its first tile there, whose stationary load is not
hidden (R238). -/
def State.bindArray (s : State) (i a : Nat) : Bool × State :=
  match s.job? i with
  | none => (false, s)
  | some j =>
    if j.bind.contains a then (false, s)
    else (true, s.onJob i fun j => { j with bind := a :: j.bind })

/-- Add to the first count of a job. -/
def State.addCount (s : State) (i n : Nat) : State := s.onJob i fun j => { j with counts := [j.counts.getD 0 0 + n] }

/-- MATMUL: one tile on the array that is the unit's engine. -/
def matUnit (c : Ctx) : Eng Unit := do
  let j ← c.theJob
  match j.mat with
  | none => halt .unsupported
  | some x =>
    let a := c.engine
    let (m0, m1, n0, n1) := x.tile c.unit
    let abase := j.u 32 8
    if x.comp && j.head.isEmpty then
      c.prepare [{ va := abase, len := 64 }]
      let b ← c.load abase 64 0
      if x.headOk (j.u 92 1) (tensorHead b) then modify fun s => s.onJob c.job fun j => { j with head := b }
      else modify fun s => s.stopJob c.job .unsupported
    let j ← c.theJob
    if j.stopped.isNone then
      let h := tensorHead j.head
      let acols := x.k / 128
      let aspans : List Span :=
        if x.comp then [{ va := abase + 64 + m0 / 4 * acols * h.frame, len := (ceilDiv m1 4 - m0 / 4) * acols * h.frame }]
        else rowSpans abase (j.u 76 4) 0 (x.af.rowBytes x.k) m0 m1 0 .read
      let bspans :=
        if x.transB then rowSpans (j.u 40 8) (j.u 80 4) 0 (x.bf.rowBytes x.k) n0 n1 1 .read
        else rowSpans (j.u 40 8) (j.u 80 4) (x.bf.rowBytes n0) (x.bf.rowBytes (n1 - n0)) 0 x.k 1 .read
      let out (f : Fmt) (base stride stream : Nat) (access : Access) : List Span :=
        if x.transD then rowSpans base stride (f.rowBytes m0) (f.rowBytes (m1 - m0)) n0 n1 stream access
        else rowSpans base stride (f.rowBytes n0) (f.rowBytes (n1 - n0)) m0 m1 stream access
      let cspans := if x.beta then out x.cf (j.u 48 8) (j.u 84 4) 2 .read else []
      let dspans := out x.df (j.u 56 8) (j.u 88 4) 3 .write
      c.prepare (aspans ++ bspans ++ cspans ++ dspans)
      let (rows, wait) ←
        if x.comp then c.expandRows a (abase + 64) 0 x.af (j.u 92 1) h.frame x.k x.r m0 m1
        else do
          let l ← c.loadRows aspans x.af x.k
          pure (l, 0)
      let b ← c.loadRows bspans x.bf (if x.transB then x.k else n1 - n0)
      let cols := if x.transB then b else columnsOf (n1 - n0) b
      let len := if x.transD then m1 - m0 else n1 - n0
      let cin ← c.loadRows cspans x.cf len
      let value (m n : Nat) : Nat :=
        let cv := if x.transD then (cin.getD n []).getD m .nan else (cin.getD m []).getD n .nan
        j.matElem x (rows.getD m []) (cols.getD n []) cv
      let outRows : List Row :=
        if x.transD then
          (List.range (n1 - n0)).map fun n =>
            j.matRow x (m0 * x.n + n0 + n) x.n ((List.range (m1 - m0)).map fun m => value m n)
        else
          (List.range (m1 - m0)).map fun m =>
            j.matRow x ((m0 + m) * x.n + n0) 1 ((List.range (n1 - n0)).map fun n => value m n)
      c.saveAll 3 (failKey c.unit 0) ((dspans.zip outRows).map fun (sp, r) => (sp.va, r.bytes, none))
      let ovf := (outRows.map (·.ovf)).sum
      let nan := (outRows.map (·.nan)).sum
      modify fun s =>
        let (first, s) := s.bindArray c.job a
        (s.countTile a (128 * ceilDiv x.k 128) wait (if first then 128 else 0) ovf nan).addCount c.job ovf

/-! ### CONVERT (R250) -/

/-- The field checks of a CONVERT (R250, Table 8-9). -/
def Job.convOk (j : Job) : Bool :=
  let n := j.u 48 8
  match fmtOf (j.u 56 1), fmtOf (j.u 57 1) with
  | some f, some g => j.f.len = 64 && j.u 58 2 = 0 && 1 ≤ n && n ≤ 2 ^ 40 && f.rowOk n && g.rowOk n
  | _, _ => false

/-- CONVERT: one run of 4,096 elements. -/
def convUnit (c : Ctx) : Eng Unit := do
  let j ← c.theJob
  match fmtOf (j.u 56 1), fmtOf (j.u 57 1) with
  | some f, some g =>
    let i0 := 4096 * c.unit
    let n := min 4096 (j.u 48 8 - i0)
    let src := j.u 32 8 + f.rowBytes i0
    let dst := j.u 40 8 + g.rowBytes i0
    c.prepare [{ va := src, len := f.rowBytes n }, { va := dst, len := g.rowBytes n, access := .write, stream := 1 }]
    let bs ← c.load src (f.rowBytes n) 0
    let row := writeRow g j.rounding i0 1 ((rowVals f n bs).map fun v => f32Mul v.f32 (j.u 60 4))
    c.saveAll 1 (failKey c.unit 0) [(dst, row.bytes, none)]
    modify fun s => (s.countTile c.engine 0 0 0 row.ovf row.nan).addCount c.job row.ovf
  | _, _ => halt .unsupported

/-! ### Dealing (R55, R248, R252, R253) -/

/-- Units of a matrix job. -/
def Job.matUnits (j : Job) : Nat :=
  if j.ty = 0x100 then
    match j.mat with
    | some x => x.tiles
    | none => 0
  else ceilDiv (j.u 48 8) 4096

/-- The work of a matrix job. -/
def matrixUnit (ty : Nat) (c : Ctx) : Eng Unit := if ty = 0x100 then matUnit c else convUnit c

/-- Whether a matrix job reads A through the expanders. -/
def Job.needsExpander (j : Job) : Bool := j.ty = 0x100 && j.mat.any (·.comp)

/-- Whether an array runs a unit that waits. -/
def State.arrayHeld (s : State) (a : Nat) : Bool := s.jobs.jobs.any fun e => e.2.blocked.any fun b => b.engine = a || b.array = some a

/-- Whether an array takes work. -/
def State.arrayServes (s : State) (a : Nat) (expander : Bool) : Bool :=
  s.serves (arrayPage a) && (!expander || s.serves (expanderPage a))

/-- The unit that a job deals next: one dealt again, or the next in order. -/
def Job.nextUnit (j : Job) : Option Nat :=
  if j.stopped.isSome || j.phase != .running then none
  else match j.todo with
    | u :: _ => some u
    | [] => if j.next < j.units then some j.next else none

/-- The unit is dealt. -/
def Job.dealt (j : Job) : Job :=
  match j.todo with
  | _ :: r => { j with todo := r }
  | [] => { j with next := j.next + 1 }

/-- The waiting jobs of a kind, in arrival order, as an arbiter sees them. -/
def State.waitingJobs (s : State) (p : Job → Bool) : List (Nat × Nat × Nat) :=
  (s.jobs.jobs.filter fun e => p e.2 && e.2.nextUnit.isSome).map fun e => (e.1, e.2.tag, e.2.tenant)

/-- A residue mismatch on array a, and the repeat of its chunk (R252). -/
def State.residue (s : State) (a : Nat) : State :=
  let pg := arrayPage a
  ((s.bump (Reg.maResidueErr pg)).bump (Reg.maRecomputes pg)).unitError pg 0 fun s => s.raiseQuiet (328 + a)

/-- A second mismatch on the same chunk: the array fails (R252). -/
def State.arrayFails (s : State) (a : Nat) : State :=
  let pg := arrayPage a
  let s := ((s.residue a).bump (Reg.maResidueErr pg)).bump (Reg.maRedealt pg)
  let s := s.onCtl fun c => { c with failed := if c.failed.contains pg then c.failed else pg :: c.failed }
  s.unitError pg 1 fun s => s.raise (328 + a)

/-- The array of a unit fails, and the unit is dealt again (R252). -/
def State.residueFail (s : State) (a i u : Nat) : State :=
  (s.onJob i fun j => { j with todo := (u :: j.todo).mergeSort }).arrayFails a

/-- What the chunk sums of a unit on an array show: for each chunk with a mismatch, how many. A chunk that matches when it is
computed again counts; the first that does not puts the array in FAILED (R252). -/
def State.residues (s : State) (a i u : Nat) : List Nat → Bool × State
  | [] => (false, s)
  | n :: l => if 2 ≤ n then (true, s.residueFail a i u) else State.residues (s.when (n = 1) fun s => s.residue a) a i u l

/-- The lowest array that is free and takes work of one of the jobs that p names: the array and the job (R222, R248). -/
def State.dealArray (s : State) (p : Job → Bool) (ok : Nat → Job → Bool) : Option (Nat × Nat) :=
  (List.range 8).findSome? fun a =>
    if s.arrayHeld a then none
    else (arbiterPick (s.waitingJobs fun j => p j && ok a j)).map fun i => (a, i)

/-- TILE_DEAL: the lowest free array takes the next tile or run. A CONVERT has no chunk sums, so no mismatch. -/
def tileDealOp (mismatches : List Nat) (s : State) : State :=
  match s.dealArray (fun j => j.ty = 0x100 || j.ty = 0x101) (fun a j => s.arrayServes a j.needsExpander) with
  | none => s
  | some (a, i) =>
    match s.job? i with
    | none => s
    | some j =>
      match j.nextUnit with
      | none => s
      | some u =>
        let s := s.onJob i Job.dealt
        match s.residues a i u (if j.ty = 0x100 then mismatches else []) with
        | (true, s) => s
        | (false, s) =>
          let c : Ctx := { job := i, unit := u, engine := a }
          s.runUnit c (failKey u 0) (matrixUnit j.ty c)

/-- DETAIL of a matrix job: its overflows, or the lowest tile or run not written, also where the job was stopped (R249, R250). -/
def Job.matDetail (j : Job) : Nat :=
  match j.lowest, j.firstFail with
  | some n, _ => min n 0xFFFFFFFF
  | none, some (p, _) => min (p / 2 ^ 32) 0xFFFFFFFF
  | none, none => min (j.counts.getD 0 0) 0xFFFFFFFF

end Sys2Proof.Machine
end

