-- ==== Sys2Proof/Machine/Sessions.lean ====
section
/-! DEFINITION. Sessions (10_session_attention.md): the session table, the order of a session's jobs, KV_APPEND, ATTEND,
WAKE and SLEEP (R292 to R311). -/

namespace Sys2Proof.Machine

/-! ### The session table and layout (R292 to R295) -/

def State.session (s : State) (h : Nat) : Session := s.sess.getD h { }

def State.onSession (s : State) (h : Nat) (f : Session → Session) : State := s.onSess fun t => t.put h (f (t.getD h { }))

/-- HEAD_DIM of a code. -/
def headDim (code : Nat) : Nat := if code = 0 then 64 else if code = 1 then 128 else 256

def Session.kvFmt (x : Session) : Fmt := (fmtOf x.fmt).getD .bf16

/-- Frame size of a page's blocks, by the mode its slot held at SESSION_OPEN. -/
def Session.frame (x : Session) (always : Bool) : Nat := frameSize ((smodeOf x.kvFmt).getD 0) always

/-- KBYTES and VBYTES (R294). -/
def Session.pageBytes (x : Session) (always : Bool) : Nat :=
  if x.compress then 128 * x.dim / 512 * x.frame always else x.kvFmt.rowBytes (128 * x.dim)

def Session.kBytes (x : Session) : Nat := x.pageBytes x.kAlways
def Session.vBytes (x : Session) : Nat := x.pageBytes x.vAlways
/-- PAIR. -/
def Session.pair (x : Session) : Nat := x.kBytes + x.vBytes
/-- PAGES. -/
def Session.pages (x : Session) : Nat := x.maxTokens / 128
/-- G, the query heads of one KV head. -/
def Session.group (x : Session) : Nat := x.qHeads / x.kvHeads

/-- The number of a page pair, and where it lies. -/
def Session.pairNo (x : Session) (l h n : Nat) : Nat := (l * x.kvHeads + h) * x.pages + n
def Session.pairAt (x : Session) (l h n : Nat) : Nat := x.base + x.pairNo l h n * x.pair

/-- The session ID that a session job names. -/
def Job.sid (j : Job) : Nat := j.u 32 4

/-- The session that a job names, or why it may not use it (R292). -/
def State.sessionOf (s : State) (j : Job) : Except Status Session :=
  let x := s.session (j.sid % 65536)
  if !x.opened || x.gen != j.sid / 65536 then .error .notPresent
  else if x.tenant != j.tenant then .error .denied
  else .ok x

/-! ### Checks at step 8 of Table 7-3 (R293, R300, R304) -/

/-- The shape that a SESSION_OPEN asks for, without its slots' modes. -/
def Job.shape (j : Job) : Session :=
  { opened := true, tenant := j.tenant, layers := j.u 44 2, kvHeads := j.u 46 2, qHeads := j.u 48 2, dim := headDim (j.u 50 1),
    fmt := j.u 51 1, compress := bit (j.u 52 1) 0, maxTokens := j.u 40 4, base := j.u 32 8, kSlot := j.u 54 2, vSlot := j.u 56 2 }

/-- SESSION_OPEN (R293, R294, Tables 10-1 and 10-4). -/
def State.openOk (s : State) (j : Job) : Bool :=
  let x := j.shape
  let mode (n : Nat) : Bool := (s.palSlot? n).any (·.always)
  let x := { x with kAlways := mode x.kSlot, vAlways := mode x.vSlot }
  j.f.len = 64 && j.u 50 1 ≤ 2 && j.u 52 1 ≤ 1 && j.u 53 1 = 0 && leField j.body 58 6 = 0 &&
    1 ≤ x.layers && x.layers ≤ 256 && 1 ≤ x.kvHeads && x.kvHeads ≤ 128 && x.qHeads % x.kvHeads = 0 && 1 ≤ x.group &&
    x.group ≤ 64 && (x.fmt = 1 || x.fmt = 3 || x.fmt = 4 || x.fmt = 7) && !(x.compress && x.dim = 64) && 128 ≤ x.maxTokens &&
    x.maxTokens ≤ 4194304 && x.maxTokens % 128 = 0 && x.base % 65536 = 0 &&
    (if x.compress then 1 ≤ x.kSlot && x.kSlot ≤ 4095 && 1 ≤ x.vSlot && x.vSlot ≤ 4095 else x.kSlot = 0 && x.vSlot = 0) &&
    x.base + x.layers * x.kvHeads * x.pages * x.pair ≤ 2 ^ 57

/-- KV_APPEND: the fields that need no session (Table 10-5). -/
def Job.appendOk (j : Job) : Bool :=
  j.f.len = 64 && j.u 57 1 ≤ 1 && leField j.body 58 6 = 0 && 1 ≤ j.u 38 2 && j.u 38 2 ≤ 256 && j.u 44 4 ≤ 65536 &&
    (j.u 44 4 != 0 || j.u 57 1 = 1) && (j.u 56 1 ≤ 1 || j.u 56 1 = 3 || j.u 56 1 = 4 || j.u 56 1 = 7)

/-- Bytes of an element of an ATTEND's output. -/
def Job.oSize (j : Job) : Nat := if j.u 42 1 = 0 then 4 else 2

/-- ATTEND (R304, Table 10-6); what needs the session is checked where the session is there. -/
def State.attendOk (s : State) (j : Job) : Bool :=
  let inline := bit (j.u 43 1) 0
  let mask := j.u 41 1
  let lo := j.u 44 4
  let hi := j.u 48 4
  let own := 112 ≤ j.f.len.toNat && mask ≤ 7 && j.u 42 1 ≤ 2 && j.u 43 1 ≤ 1 && leField j.body 100 12 = 0 && 1 ≤ j.u 38 2 &&
    j.u 38 2 ≤ 256 && 1 ≤ j.u 40 1 && j.u 40 1 ≤ 64 && lo < hi && hi ≤ 4194304 && (!bit mask 1 || 1 ≤ j.u 56 4) &&
    (inline || (j.f.len = 112 && j.u 64 8 % 2 = 0)) && j.u 72 8 % j.oSize = 0 && (j.u 72 8 = 0 || j.u 80 8 % 4 = 0) &&
    j.u 96 4 % 8 = 0 && (!bit mask 2 || ceilDiv (hi - lo) 8 ≤ j.u 96 4)
  own && (match s.sessionOf j with
    | .error _ => true
    | .ok x =>
      let cols := j.u 38 2 * j.u 40 1 * x.qHeads
      j.u 36 2 + j.u 38 2 ≤ x.layers && hi ≤ x.maxTokens && (!inline || j.f.len.toNat = 112 + cols * x.dim * 2) &&
        (j.u 72 8 != 0 || bit j.flags 1 || cols * (x.dim * j.oSize + 4) ≤ 4064))

/-- The checks of a session job at step 8. -/
def State.sessionOk (s : State) (j : Job) : Bool :=
  match j.ty with
  | 0x200 => s.openOk j
  | 0x201 => j.f.len = 40 && j.u 36 4 = 0
  | 0x202 => j.appendOk
  | 0x203 => s.attendOk j
  | _ => j.f.len = 40 && 1 ≤ j.u 38 2 && j.u 38 2 ≤ 256

/-! ### Order and start (R296 to R299) -/

/-- The jobs of a session, of the job's own tenant, admitted before it and not completed: another tenant's are DENIED and are no
jobs of the session (R292). -/
def State.sessionBefore (s : State) (i : Nat) (j : Job) : List Nat :=
  (s.jobs.jobs.filter fun e => e.1 < i && 0x201 ≤ e.2.ty && e.2.ty ≤ 0x205 && e.2.sid = j.sid && e.2.tenant = j.tenant).map (·.2.ty)

/-- Whether a session job must wait for an earlier one (R296). -/
def State.sessionWaits (s : State) (i : Nat) (j : Job) : Bool :=
  (s.sessionBefore i j).any fun ty => match j.ty with
    | 0x201 => true
    | 0x202 => ty = 0x202 || ty = 0x203
    | 0x203 => ty = 0x202
    | _ => ty = 0x204 || ty = 0x205

/-- The session attention unit that serves a handle: that of its die, or the other while its own does not serve (R55). -/
def State.sessionUnit (s : State) (h : Nat) : Option Nat :=
  let g := h % 2
  if s.serves (corePage g 0x60) then some g else if s.serves (corePage (1 - g) 0x60) then some (1 - g) else none

/-- SESSION_OPEN takes the lowest free handle (R292, R298). -/
def State.sessionOpen (s : State) (i : Nat) (j : Job) : State :=
  let x := j.shape
  let mode := (smodeOf x.kvFmt).getD 0
  let wrong (n : Nat) : Bool := x.compress && (s.palSlot? n).any fun y => y.smode != mode
  if wrong x.kSlot || wrong x.vSlot then s.stopJob i .unsupported
  else match Tbl.lowestFree (s.sess.filter fun e => e.2.opened) 65536 0 with
    | none => (s.bump Reg.saSessFull).stopJob i .busy
    | some h =>
      let s := s.when x.compress fun s => (s.palConfigure x.kSlot mode).palConfigure x.vSlot mode
      let gen := (s.session h).gen % 65535 + 1
      let always (n : Nat) : Bool := x.compress && (s.palSlot? n).any (·.always)
      let x := { x with gen := gen, length := 0, kAlways := always x.kSlot, vAlways := always x.vSlot }
      (s.onSession h fun _ => x).onJob i fun j => { j with result := leBytes 4 (gen * 65536 + h) ++ leBytes 4 x.pair }

/-- Pages that an append touches for one layer and head. -/
def Job.appendPages (j : Job) : Nat :=
  let pos := j.u 40 4
  let n := j.u 44 4
  if n = 0 then 0 else (pos + n - 1) / 128 + 1 - pos / 128

/-- Whether a slot still holds the modes that a session recorded (R300). -/
def State.slotKept (s : State) (x : Session) (n : Nat) (always : Bool) : Bool :=
  (s.palSlot? n).any fun y => y.always = always && some y.smode = smodeOf x.kvFmt

/-- The checks of an append against its session (R300). -/
def State.appendFits (s : State) (j : Job) (x : Session) : Bool :=
  let pos := j.u 40 4
  j.u 36 2 + j.u 38 2 ≤ x.layers && (j.u 56 1 ≤ 1 || j.u 56 1 = x.fmt) && pos ≤ x.length && pos + j.u 44 4 ≤ x.maxTokens &&
    (!x.compress || (s.slotKept x x.kSlot x.kAlways && s.slotKept x x.vSlot x.vAlways))

/-- Start a session job whose turn it is: an OPEN or a CLOSE takes effect, the others set out their work. -/
def State.sessionBegin (s : State) (i : Nat) (j : Job) : State :=
  let s := s.onJob i fun j => { j with phase := .running, units := 0 }
  if j.ty = 0x200 then s.sessionOpen i j
  else match s.sessionOf j with
    | .error st => s.stopJob i st
    | .ok x =>
      let h := j.sid % 65536
      let eng := 8 + (s.sessionUnit h).getD (h % 2)
      match j.ty with
      | 0x201 => s.onSession h fun x => { x with opened := false }
      | 0x202 =>
        if s.appendFits j x then
          s.onJob i fun j => { j with units := j.u 38 2 * x.kvHeads * j.appendPages, engine := eng }
        else s.stopJob i .unsupported
      | 0x203 =>
        if j.u 36 2 + j.u 38 2 ≤ x.layers && j.u 48 4 ≤ x.maxTokens then
          s.onJob i fun j => { j with units := j.u 38 2 * x.kvHeads }
        else s.stopJob i .unsupported
      | _ =>
        if j.u 36 2 + j.u 38 2 ≤ x.layers then
          s.onJob i fun j => { j with units := 1, engine := eng, counts := [0, 0, 0, 0] }
        else s.stopJob i .unsupported

/-- A session job that waits starts when R296 lets it; one behind a CLOSE completes NOT_PRESENT. -/
def State.sessionGo (s : State) (i : Nat) : State :=
  match s.job? i with
  | none => s
  | some j =>
    if j.phase != .waiting || j.stopped.isSome || j.ty < 0x200 || 0x205 < j.ty then s
    else if j.ty != 0x200 && (s.sessionBefore i j).contains 0x201 then s.stopJob i .notPresent
    else if j.ty != 0x200 && s.sessionWaits i j then s
    else s.sessionBegin i j

/-! ### KV_APPEND (R300 to R303) -/

/-- n free bytes (log entry 1). -/
def freeBytes (n : Nat) : Eng (List Byte) := do
  let s ← get
  set { s with free := s.free + n }
  pure ((List.range n).map fun k => BitVec.ofNat 8 (Config.freeValue (s.free + k)))

/-- Whether an append takes a block's stored values, and what it does when they do not decode: it cannot do without them, it
takes them where they are stored, or it replaces them all. -/
inductive Stored where
  | must | may | no
  deriving DecidableEq, Repr

/-- n bytes that stand for positions of a page at va that hold no stored value: a function of the append alone (R7, log entry 51). -/
def Job.unstored (j : Job) (va n : Nat) : List Byte := (List.range n).map fun k => Config.unstoredByte j.body (va + k)

/-- Where an append works: its session, layer, head and page, and the page's first position. -/
structure AppendAt where
  x : Session
  l : Nat
  h : Nat
  n : Nat

/-- The place of a unit of an append: pages in ascending order of (l, h, n) (R303). -/
def Job.appendAt (j : Job) (x : Session) (u : Nat) : AppendAt :=
  let np := j.appendPages
  { x := x, l := j.u 36 2 + u / (x.kvHeads * np), h := u / np % x.kvHeads, n := j.u 40 4 / 128 + u % np }

/-- Whether an append writes a position. -/
def Job.newPos (j : Job) (p : Nat) : Bool := j.u 40 4 ≤ p && p < j.u 40 4 + j.u 44 4

/-- The positions of a page that an append writes. -/
def Job.newRange (j : Job) (n : Nat) : Nat × Nat := (max (j.u 40 4) (128 * n), min (j.u 40 4 + j.u 44 4) (128 * n + 128))

/-- LENGTH after an append that completes OK (R303). -/
def Job.newLength (j : Job) (x : Session) : Nat :=
  let e := j.u 40 4 + j.u 44 4
  if bit (j.u 57 1) 0 then e else max x.length e

/-- The format of an append's source. -/
def Job.srcFmt (j : Job) : Fmt := (fmtOf (j.u 56 1)).getD .fp32

/-- Index of source element (t, h, d) of the keys of a layer, or of its values (R300). -/
def Job.srcIndex (j : Job) (w : AppendAt) (vals : Bool) (t d : Nat) : Nat :=
  let half := j.u 44 4 * w.x.kvHeads * w.x.dim
  (w.l - j.u 36 2) * 2 * half + (if vals then half else 0) + (t * w.x.kvHeads + w.h) * w.x.dim + d

/-- Where the source row (t, h) of the keys or values lies. -/
def Job.srcRow (j : Job) (w : AppendAt) (vals : Bool) (t : Nat) : Nat := j.u 48 8 + j.srcFmt.rowBytes (j.srcIndex w vals t 0)

/-- The stored frame or row spans of a page, for translation. -/
def pageSpan (va len : Nat) (access : Access) : Span := { va := va, len := len, access := access, stream := 1 }

/-- The rows of a compressed page: decoded where a block's stored values are taken (R301). Rows are positions of a K page and
columns d of a V page; a block covers four rows. -/
def Ctx.storedRows (c : Ctx) (j : Job) (x : Session) (va rows cols frame page : Nat) (need : Nat → Stored) : Eng (List (List Byte)) := do
  let f := x.kvFmt
  let w := f.rowBytes 128
  let mut out : List (List Byte) := []
  for r in List.range (rows / 4) do
    let mut four : List (List Byte) := [[], [], [], []]
    for b in List.range (cols / 128) do
      let at_ := va + (r * (cols / 128) + b) * frame
      let v ←
        if need r = .no then pure (j.unstored at_ (4 * w))
        else do
          match (← c.readBlock at_ 1 f x.fmt frame page).2 with
          | .ok (v, _, _) => pure v
          | .error st => if need r = .must then halt st else pure (j.unstored at_ (4 * w))
      four := (four.zip (parts w 4 v)).map fun (a, b) => a ++ b
    out := out ++ four
  pure out

/-- The frames of a page of rows: coded in a slot, or raw blocks (R302). -/
def pageFrames (x : Session) (va cols frame g slot : Nat) (coded : Bool) (rows : List (List Byte)) :
    Eng (List (Nat × List Byte × Option PalRef)) := do
  let f := x.kvFmt
  let w := f.rowBytes 128
  let always := frame != x.frame false
  let mut out : List (Nat × List Byte × Option PalRef) := []
  for r in List.range (rows.length / 4) do
    for b in List.range (cols / 128) do
      let vals := ((rows.drop (4 * r)).take 4).flatMap fun row => slice row (b * w) w
      let at_ := va + (r * (cols / 128) + b) * frame
      if coded then
        let (e, ref, s) := (← get).codeBlock g slot f x.fmt vals
        set s
        out := out ++ [(at_, e.frame, ref)]
      else out := out ++ [(at_, (encodeBlock f x.fmt none 0 always vals).frame, none)]
  pure out

/-- The new rows of a K page: the position within the page, and the row in KV_FORMAT (R300). -/
def Ctx.newKeys (c : Ctx) (j : Job) (w : AppendAt) : Eng (List (Nat × List Byte)) := do
  let (p0, p1) := j.newRange w.n
  let sf := j.srcFmt
  let f := w.x.kvFmt
  let mut out : List (Nat × List Byte) := []
  for k in List.range (p1 - p0) do
    let t := p0 + k - j.u 40 4
    let bs ← c.load (j.srcRow w false t) (sf.rowBytes w.x.dim) 0
    let row := if sf = .shade4 then bs
      else (writeRow f j.rounding (j.srcIndex w false t 0) 1 ((rowVals sf w.x.dim bs).map (·.f32))).bytes
    out := out ++ [(p0 + k - 128 * w.n, row)]
  pure out

/-- The new values of a V page, by position within the page: FP32 bits for every d. -/
def Ctx.newValues (c : Ctx) (j : Job) (w : AppendAt) : Eng (List (Nat × List Nat)) := do
  let (p0, p1) := j.newRange w.n
  let sf := j.srcFmt
  let mut out : List (Nat × List Nat) := []
  for k in List.range (p1 - p0) do
    let bs ← c.load (j.srcRow w true (p0 + k - j.u 40 4)) (sf.rowBytes w.x.dim) 0
    out := out ++ [(p0 + k - 128 * w.n, (rowVals sf w.x.dim bs).map (·.f32))]
  pure out

/-- Plain writes of an append's page. -/
abbrev PageWrites := List (Nat × List Byte × Option PalRef)

/-- The K page of an append: its rows where it is compressed, or the plain write of its new rows. -/
def Ctx.appendKeys (c : Ctx) (j : Job) (w : AppendAt) (va g : Nat) : Eng (List (List Byte) × PageWrites) := do
  let x := w.x
  let new ← c.newKeys j w
  let rowb := x.kvFmt.rowBytes x.dim
  if !x.compress then
    match new with
    | [] => pure ([], [])
    | (p, _) :: _ => pure ([], [(va + p * rowb, new.flatMap (·.2), none)])
  else
    let old (p : Nat) : Bool := 128 * w.n + p < x.length && !j.newPos (128 * w.n + p)
    let rows ← c.storedRows j x va 128 x.dim (x.frame x.kAlways) (codecPage g) fun r =>
      if (List.range 4).any fun k => old (4 * r + k) then .must else .no
    pure (new.foldl (fun l e => l.set e.1 e.2) rows, [])

/-- One row of a V page with its new elements: converted in place, or whole Shade-4 blocks formed again (R301). va is the page's
address: where a stored value is converted again, its index is a function of the append and of its place (log entry 51). -/
def newVRow (j : Job) (w : AppendAt) (d va : Nat) (old : List Byte) (new : List (Nat × List Nat)) : List Byte :=
  let f := w.x.kvFmt
  let t (p : Nat) : Nat := 128 * w.n + p - j.u 40 4
  if f != .shade4 then
    let b := f.rowBytes 1
    new.foldl (fun l e =>
      let bs := (writeRow f j.rounding (j.srcIndex w true (t e.1) d) 1 [e.2.getD d 0]).bytes
      l.take (e.1 * b) ++ bs ++ l.drop (e.1 * b + b)) old
  else
    (List.range 4).flatMap fun k =>
      let was := slice old (17 * k) 17
      if !new.any fun e => e.1 / 32 = k then was
      else
        let val (i : Nat) : Nat :=
          match new.find? fun e => e.1 = 32 * k + i with
          | some e => e.2.getD d 0
          | none => (elemAt f was i).f32
        let idx (i : Nat) : Nat :=
          if new.any fun e => e.1 = 32 * k + i then j.srcIndex w true (t (32 * k + i)) d
          else Config.storedIndex j.body (va + 128 * d + 32 * k + i)
        (toShade4By j.rounding idx ((List.range 32).map val)).1

/-- Whether a 32-position block of a page is written in part. -/
def Job.partBlock (j : Job) (n k : Nat) : Bool :=
  let l := (List.range 32).map fun i => j.newPos (128 * n + 32 * k + i)
  l.contains true && l.contains false

/-- The V page of an append: its rows where it is compressed, or the plain writes of its new elements (R301). -/
def Ctx.appendValues (c : Ctx) (j : Job) (w : AppendAt) (va g : Nat) : Eng (List (List Byte) × PageWrites) := do
  let x := w.x
  let f := x.kvFmt
  let new ← c.newValues j w
  let vrow := f.rowBytes 128
  if x.compress then
    let old := (List.range 128).any fun p => 128 * w.n + p < x.length && !j.newPos (128 * w.n + p)
    let mixed := f = .shade4 && (List.range 4).any fun k => j.partBlock w.n k
    let rows ← c.storedRows j x va x.dim 128 (x.frame x.vAlways) (codecPage g) fun _ =>
      if old then .must else if mixed then .may else .no
    pure (rows.zipIdx.map fun (r, d) => newVRow j w d va r new, [])
  else
    let (p0, p1) := j.newRange w.n
    let (a, b) := if f = .shade4 then (p0 % 128 / 32 * 32, ceilDiv (p1 - 128 * w.n) 32 * 32) else (p0 % 128, p1 - 128 * w.n)
    let mut out : PageWrites := []
    for d in List.range x.dim do
      let mut row := List.replicate vrow 0#8
      if f = .shade4 then
        for k in List.range 4 do
          if j.partBlock w.n k then
            let bs ← c.load (va + d * vrow + 17 * k) 17 1
            row := row.take (17 * k) ++ bs ++ row.drop (17 * k + 17)
      let bytes := newVRow j w d va row new
      out := out ++ [(va + d * vrow + f.rowBytes a, slice bytes (f.rowBytes a) (f.rowBytes (b - a)), none)]
    pure ([], out)

/-- Store one page of an append (R302): whole frames, coded where every position lies below the new LENGTH, or plain
writes. -/
def Ctx.appendStore (c : Ctx) (x : Session) (va cols g slot key : Nat) (always coded : Bool)
    (page : Except Status (List (List Byte) × PageWrites)) : Eng Unit := do
  match page with
  | .error st => modify fun s => s.jobFail c.job key st
  | .ok (rows, plain) =>
    if (← c.theJob).saved.contains key then pure ()
    else if coded && !(← get).serves (codecPage g) then modify fun s => s.jobFail c.job key .busy
    else
      let base ← get
      let work : Eng Unit := do
        if x.compress then c.saveFrom base 1 key (← pageFrames x va cols (x.frame always) g slot coded rows)
        else c.saveAll 1 key plain
      match ← catching work with
      | .error st => modify fun s => s.jobFail c.job key st
      | .ok _ =>
        let pg := corePage g 0x60
        modify fun s => s.when x.compress fun s => s.bump (if coded then Reg.saPagesCoded pg else Reg.saPagesRaw pg)

/-- KV_APPEND: one page pair. Its K page and its V page are stored or left on their own. -/
def appendUnit (c : Ctx) : Eng Unit := do
  let j ← c.theJob
  match (← get).sessionOf j with
  | .error st => halt st
  | .ok x =>
    let w := j.appendAt x c.unit
    let kva := x.pairAt w.l w.h w.n
    let vva := kva + x.kBytes
    let (p0, p1) := j.newRange w.n
    let sb := j.srcFmt.rowBytes x.dim
    let src (v : Bool) : List Span := (List.range (p1 - p0)).map fun k => { va := j.srcRow w v (p0 + k - j.u 40 4), len := sb }
    let rowb := x.kvFmt.rowBytes x.dim
    let kspan := if x.compress then pageSpan kva x.kBytes else pageSpan (kva + p0 % 128 * rowb) ((p1 - p0) * rowb)
    let vspan := pageSpan vva x.vBytes
    let reads := if x.compress then [kspan .read, vspan .read] else if x.kvFmt = .shade4 then [vspan .read] else []
    c.prepare (src false ++ src true ++ reads ++ [kspan .write, vspan .write])
    let kp ← c.xlat kva .write 1 false
    let vp ← c.xlat vva .write 1 false
    let coded := x.compress && 128 * w.n + 128 ≤ j.newLength x
    let kg := homeDie (offOf kp)
    let vg := homeDie (offOf vp)
    let keys ← catching (c.appendKeys j w kva kg)
    let vals ← catching (c.appendValues j w vva vg)
    c.appendStore x kva x.dim kg x.kSlot (failKey c.unit 0) x.kAlways coded keys
    c.appendStore x vva 128 vg x.vSlot (failKey c.unit (2 ^ 31)) x.vAlways coded vals

/-- DETAIL of an append: the pair number of its first failing page (R303). -/
def State.appendDetail (s : State) (j : Job) : Nat :=
  match j.firstFail, s.sessionOf j with
  | some (p, _), .ok x =>
    let w := j.appendAt x (p / 2 ^ 32)
    min (x.pairNo w.l w.h w.n) 0xFFFFFFFF
  | _, _ => 0

/-! ### ATTEND (R244, R245, R304 to R309) -/

/-- The state of one query row in the softmax lanes (R244). -/
structure Lane where
  m : Nat := 0xFF800000
  l : Nat := 0
  o : List Nat
  live : Bool := false

/-- update of R244: v holds, for each d, the values of the 128 keys. -/
def Lane.update (x : Lane) (scale : Nat) (scores : List Nat) (valid : List Bool) (v : List (List Nat)) : Lane :=
  let t := (scores.zip valid).map fun (s, ok) => if ok then f32Mul s scale else f32NegInf
  let m2 := f32Max x.m (tree f32Max f32NegInf t)
  if m2 = f32NegInf then { x with live := true }
  else
    let c := f32Exp (f32Sub x.m m2)
    let p := t.map fun y => f32Exp (f32Sub y m2)
    let pb := p.map viaBf16
    { m := m2, l := f32Add (f32Mul x.l c) (chunkSum p), live := true,
      o := (x.o.zip v).map fun (o, vd) => f32Add (f32Mul o c) (chunkSum ((pb.zip vd).map fun (a, b) => f32Mul a b)) }

/-- The finish of a row (R245): its output before conversion, and its log-sum-exp. -/
def Lane.finish (x : Lane) : List Nat × Nat :=
  if x.l = 0 then (x.o.map fun _ => 0, f32NegInf)
  else (x.o.map fun o => f32Div o x.l, f32Add x.m (f32Ln x.l))

/-- Whether key position k is valid for query token t (R305); bitmap holds the rows read. -/
def Job.keyValid (j : Job) (length : Nat) (bitmap : List (List Byte)) (t k : Nat) : Bool :=
  let mask := j.u 41 1
  let lo := j.u 44 4
  let q := j.u 52 4 + t
  lo ≤ k && k < min (j.u 48 4) length && (!bit mask 0 || k ≤ q) && (!bit mask 1 || q < k + j.u 56 4) &&
    (!bit mask 2 || bit ((bitmap.getD t []).getD ((k - lo) / 8) 0).toNat ((k - lo) % 8))

/-- The layer and KV head of a piece (R306). -/
def Job.piece (j : Job) (x : Session) (p : Nat) : Nat × Nat := (j.u 36 2 + p / x.kvHeads, p % x.kvHeads)

/-- Index of output element (t, q, 0) of a piece's layer (R308). -/
def Job.outIndex (j : Job) (x : Session) (p t q : Nat) : Nat := ((p / x.kvHeads * j.u 40 1 + t) * x.qHeads + q) * x.dim

/-- Read a K or V page: rows of values, and the waits of its expander in 2,048ths. -/
def Ctx.pageRows (c : Ctx) (x : Session) (va rows cols stream : Nat) (always : Bool) : Eng (List (List Fp) × Nat) := do
  let f := x.kvFmt
  if x.compress then c.expandRows c.engine va stream f x.fmt (x.frame always) cols 1 0 rows
  else
    let b := f.rowBytes cols
    let bs ← c.load va (rows * b) stream
    pure ((List.range rows).map fun r => rowVals f cols (slice bs (r * b) b), 0)

/-- The columns of a pass (R306). -/
def passColumns (total p : Nat) : List Nat := (List.range (min 128 (total - 128 * p))).map (128 * p + ·)

/-- One group of a pass (R307): scores, lanes, values. -/
def groupStep (j : Job) (x : Session) (q : List (List Fp)) (k v : List (List Fp)) (valid : List (List Bool))
    (lanes : List Lane) : List Lane :=
  let any := (List.range 128).map fun i => valid.any fun l => l.getD i false
  let vals := v.map fun row => (row.zip any).map fun (y, ok) => if ok then y.f32 else 0
  let mixed := x.kvFmt != .bf16
  (lanes.zip (q.zip valid)).map fun (lane, qc, ok) =>
    if ok.contains true then
      lane.update (j.u 60 4) (k.map fun row => dotFloat mixed (ceilDiv x.dim 128) row qc 0) ok vals
    else lane

/-- What a piece gives: output rows by token and head, its groups presented and skipped, its waits, its passes. -/
structure PieceOut where
  lanes : List Lane := []
  shown : Nat := 0
  skipped : Nat := 0
  wait : Nat := 0
  passes : Nat := 0

/-- The work of a piece before its writes (R307). -/
def Ctx.pieceRun (c : Ctx) (j : Job) (x : Session) (q : List (List Fp)) (bitmap : List (List Byte)) (kind : Nat → Nat) :
    Eng PieceOut := do
  let (l, h) := j.piece x c.unit
  let cols := j.u 40 1 * x.group
  let hi := min (j.u 48 4) x.length
  let first := j.u 44 4 / 128
  let mut out : PieceOut := { }
  for p in List.range (ceilDiv cols 128) do
    let mine := passColumns cols p
    let mut lanes : List Lane := mine.map fun _ => { o := List.replicate x.dim 0 }
    let mut shown := 0
    for n in (List.range (ceilDiv hi 128)).drop first do
      let valid := mine.map fun col => (List.range 128).map fun i => j.keyValid x.length bitmap (col / x.group) (128 * n + i)
      if valid.any (·.contains true) then
        let kva := x.pairAt l h n
        let (k, w1) ← c.pageRows x kva 128 x.dim (kind 0) x.kAlways
        let (v, w2) ← c.pageRows x (kva + x.kBytes) x.dim 128 (kind 1) x.vAlways
        lanes := groupStep j x (mine.map fun col => q.getD col []) k v valid lanes
        shown := shown + 1
        out := { out with wait := out.wait + w1 + w2 }
      else out := { out with skipped := out.skipped + 1 }
    out := { out with lanes := out.lanes ++ lanes, shown := out.shown + shown, passes := out.passes + (if shown = 0 then 0 else 1) }
  pure out

/-- The output rows of a piece: for each token, the offset in O and bytes, and the same in LSE (R308); overflows and NaN
outputs. -/
def Job.pieceRows (j : Job) (x : Session) (p : Nat) (lanes : List Lane) : List (Nat × List Byte × Nat × List Byte) × Nat × Nat :=
  let (_, h) := j.piece x p
  let f := (fmtOf (j.u 42 1)).getD .fp32
  let rows := (List.range (j.u 40 1)).map fun t =>
    let q0 := h * x.group
    let i0 := j.outIndex x p t q0
    let mine := (lanes.drop (t * x.group)).take x.group
    let outs := mine.zipIdx.map fun (lane, g) => (writeRow f j.rounding (i0 + g * x.dim) 1 lane.finish.1, lane.finish.2)
    let o := (outs.flatMap fun e => e.1.bytes)
    let lse := outs.flatMap fun e => leBytes 4 e.2
    ((i0 * j.oSize, o, i0 / x.dim * 4, lse), (outs.map fun e => e.1.ovf).sum, (outs.map fun e => e.1.nan).sum)
  (rows.map (·.1), (rows.map (·.2.1)).sum, (rows.map (·.2.2)).sum)

/-- Bytes of a whole ATTEND output (R304). -/
def Job.oBytes (j : Job) (x : Session) : Nat := j.u 38 2 * j.u 40 1 * x.qHeads * x.dim * j.oSize

/-- The bitmap bytes of one token that validity looks at. -/
def Job.bitmapLen (j : Job) (length : Nat) : Nat := ceilDiv (min (j.u 48 4) length - j.u 44 4) 8

/-- The work of a piece with its accesses (R306 to R309). -/
def Ctx.pieceBody (c : Ctx) (j : Job) (x : Session) : Eng Unit := do
  let a := c.engine
  let g := corePage (a / 4) 0x60
  let kind (k : Nat) : Nat := k + 8 * (c.unit % 8192)
  let (l, h) := j.piece x c.unit
  let qt := j.u 40 1
  let inline := bit (j.u 43 1) 0
  let qlen := x.group * x.dim * 2
  let qoff (t : Nat) : Nat := j.outIndex x c.unit t (h * x.group) * 2
  let useMap := bit (j.u 41 1) 2 && 0 < j.bitmapLen x.length
  let qspans : List Span := if inline then [] else
    (List.range qt).map fun t => { va := j.u 64 8 + qoff t, len := qlen, stream := kind 2 }
  let mspans : List Span := if useMap then
    (List.range qt).map fun t => { va := j.u 88 8 + t * j.u 96 4, len := j.bitmapLen x.length, stream := kind 3 } else []
  c.prepare (qspans ++ mspans)
  let mut q : List (List Fp) := []
  for t in List.range qt do
    let bs ← if inline then pure (slice j.body (112 + qoff t) qlen) else c.load (j.u 64 8 + qoff t) qlen (kind 2)
    q := q ++ (parts (2 * x.dim) x.group bs).map (rowVals .bf16 x.dim)
  let mut bitmap : List (List Byte) := []
  for sp in mspans do
    bitmap := bitmap ++ [← c.load sp.va sp.len sp.stream]
  let hi := min (j.u 48 4) x.length
  let shown := ((List.range (ceilDiv hi 128)).drop (j.u 44 4 / 128)).filter fun n =>
    (List.range qt).any fun t => (List.range 128).any fun i => j.keyValid x.length bitmap t (128 * n + i)
  let pages : List Span := shown.flatMap fun n =>
    [{ va := x.pairAt l h n, len := x.kBytes, stream := kind 0 },
     { va := x.pairAt l h n + x.kBytes, len := x.vBytes, stream := kind 1 }]
  let store := j.u 72 8 != 0
  let outs : List Span := if store then (List.range qt).flatMap fun t =>
    let i := j.outIndex x c.unit t (h * x.group)
    [{ va := j.u 72 8 + i * j.oSize, len := x.group * x.dim * j.oSize, access := .write, stream := kind 4 },
     { va := j.u 80 8 + i / x.dim * 4, len := 4 * x.group, access := .write, stream := kind 4 }] else []
  c.prepare (pages ++ outs)
  let r ← c.pieceRun j x q bitmap kind
  let (rows, ovf, nan) := j.pieceRows x c.unit r.lanes
  if store then
    c.saveAll (kind 4) (failKey c.unit 0) (rows.flatMap fun (o, ob, i, ib) => [(j.u 72 8 + o, ob, none), (j.u 80 8 + i, ib, none)])
  else
    modify fun s => s.onJob c.job fun j =>
      { j with outs := rows.foldl (fun t (o, ob, i, ib) => (t.put o ob).put (j.oBytes x + i) ib) j.outs }
  let empty := r.lanes.countP fun lane => !lane.live
  modify fun s =>
    let s := (s.bump64 (Reg.saGroups g) r.shown).bump64 (Reg.saGroupsSkipped g) r.skipped
    let pg := arrayPage a
    let s := (s.bump64 (Reg.maSteps pg) (r.shown * 256 * ceilDiv x.dim 128)).bump64 (Reg.maStallStream pg) (r.wait / 2048)
    let s := (s.bump64 (Reg.exShortSteps (expanderPage a)) (r.wait / 2048)).bump64 (Reg.maStallLoad pg) (128 * r.passes)
    let s := ((s.bump (Reg.maOverflows pg) ovf).bump (Reg.maNanOut pg) nan).bump (Reg.saEmptyRows g) empty
    (s.bump (Reg.saPieces g)).addCount c.job empty

/-- ATTEND: one piece; one that fails counts in its unit and raises its source (R309, R314, R316). A stop of the job is no
failure of its piece. -/
def attendUnit (c : Ctx) : Eng Unit := do
  let j ← c.theJob
  match (← get).sessionOf j with
  | .error st => halt st
  | .ok x =>
    match ← catching (c.pieceBody j x) with
    | .ok _ => pure ()
    | .error st =>
      let g := c.engine / 4
      let pg := corePage g 0x60
      modify fun s => s.when ((s.job? c.job).all (·.stopped.isNone)) fun s =>
        ((s.bump (Reg.saPiecesFailed pg)).bump (Reg.saPieces pg)).unitError pg 0 fun s => s.raiseQuiet (352 + g)
      halt st

/-- Whether an array can take a piece of an ATTEND (R306). -/
def State.pieceArray (s : State) (a : Nat) (j : Job) : Bool :=
  s.arrayServes a (match s.sessionOf j with
    | .ok x => x.compress
    | .error _ => false) && s.serves (corePage (a / 4) 0x60)

/-- PIECE_DEAL: the lowest free array takes the next piece (R222, R252, R306). -/
def pieceDealOp (mismatches : List Nat) (s : State) : State :=
  match s.dealArray (fun j => j.ty = 0x203) s.pieceArray with
  | none => s
  | some (a, i) =>
    match (s.job? i).bind (·.nextUnit) with
    | none => s
    | some u =>
      let s := s.onJob i Job.dealt
      match s.residues a i u mismatches with
      | (true, s) => s
      | (false, s) =>
        let c : Ctx := { job := i, unit := u, engine := a }
        s.runUnit c (failKey u 0) (attendUnit c)

/-- The result of an ATTEND that carries O and LSE in its completion (R304, R309). -/
def Job.attendResult (j : Job) (x : Session) : List Byte :=
  if j.u 72 8 != 0 then []
  else
    let n := j.oBytes x
    let total := n + j.u 38 2 * j.u 40 1 * x.qHeads * 4
    j.outs.foldl (fun l e => l.take e.1 ++ e.2 ++ l.drop (e.1 + e.2.length)) (List.replicate total 0)

/-! ### WAKE and SLEEP (R311) -/

/-- Take one tile of a WAKE or SLEEP: a move begun adds to the job's units; the four counts are Table 10-7's. -/
def State.sleepTile (s : State) (i t : Nat) (wake : Bool) : State :=
  let x := s.tile t
  let off := t * 65536
  let count (s : State) (k : Nat) : State := s.onJob i fun j => j.count k 1
  let begun (s : State) : State := s.onJob i fun j => { j with units := j.units + 1 }
  if windowOf off != .blended || x.tier = .unbacked then count s 3
  else if x.moving then s.onJob i fun j => { j with todo := j.todo ++ [t] }
  else if wake then
    if x.tier = .near then count s 1
    else match s.beginMove t .near (.job i) with
      | (.begun, s) => begun s
      | (_, s) => count s 2
  else if x.policy = 0 then count s 3
  else if x.tier = .muted then count s 1
  else match s.beginMove t .muted (.job i) with
    | (.begun, s) => begun s
    | (.refused, s) | (.noFrame, s) => s
    | (.noGain, s) =>
      let s := count s 2
      if x.tier = .near then
        match s.beginMove t .bulk (.job i) with
        | (.begun, s) => begun s
        | (_, s) => s
      else s

/-- WAKE and SLEEP: the tiles of the layers' range. -/
def sleepUnit (c : Ctx) : Eng Unit := do
  let j ← c.theJob
  match (← get).sessionOf j with
  | .error st => halt st
  | .ok x =>
    let lo := x.pairAt (j.u 36 2) 0 0
    let len := j.u 38 2 * x.kvHeads * x.pages * x.pair
    c.prepare [{ va := lo, len := len }]
    let mut tiles : List Nat := []
    for (a, _) in pageParts lo len do
      let t := tileOf (offOf (← c.xlat a .read 0 false))
      if !tiles.contains t then tiles := tiles ++ [t]
    for t in tiles.mergeSort do
      modify fun s => s.sleepTile c.job t (j.ty = 0x204)

/-- The tiles whose moves a WAKE or SLEEP waited for and that have ended are taken. -/
def State.sleepAgain (s : State) (i : Nat) : State :=
  match s.job? i with
  | none => s
  | some j =>
    if (j.ty != 0x204 && j.ty != 0x205) || j.stopped.isSome then s
    else
      let ready := j.todo.filter fun t => !(s.tile t).moving
      let s := s.onJob i fun j => { j with todo := j.todo.filter fun t => !ready.contains t }
      ready.foldl (fun s t => s.sleepTile i t (j.ty = 0x204)) s

/-- The work of a session job's unit. -/
def sessionWork (ty : Nat) (c : Ctx) : Eng Unit :=
  match ty with
  | 0x202 => appendUnit c
  | 0x203 => attendUnit c
  | _ => sleepUnit c

end Sys2Proof.Machine
end

