-- ==== Sys2Proof/Machine/Embeddings.lean ====
section
/-! DEFINITION. Embedding tables (11_embeddings.md): tables and versions, GATHER, MERGE_UPDATE, load windows and hot rows
(R317 to R346). -/

namespace Sys2Proof.Machine

/-! ### Tables and versions (R317 to R322, R341) -/

def State.table (s : State) (t : Nat) : Table := s.emb.tables.getD t { }

def State.onTable (s : State) (t : Nat) (f : Table → Table) : State :=
  s.onEmb fun e => { e with tables := e.tables.put t (f (e.tables.getD t { })) }

/-- The current version: the newest one. -/
def Table.current (x : Table) : Option Version := x.versions.getLast?

def Table.version? (x : Table) (n : Nat) : Option Version := x.versions.find? (·.num = n)

def State.onVersion (s : State) (t n : Nat) (f : Version → Version) : State :=
  s.onTable t fun x => { x with versions := x.versions.map fun v => if v.num = n then f v else v }

/-- Bytes of a row (R319). -/
def embRow (fmt e : Nat) : Nat := if fmt = 5 then 4 + e else if fmt = 0 then 4 * e else if fmt ≤ 2 then 2 * e else e

/-- The alignment of rows. -/
def embAlign (fmt : Nat) : Nat := if fmt = 0 || fmt = 5 then 4 else if fmt ≤ 2 then 2 else 1

/-- The version that a TABLE_OPEN or TABLE_VERSION describes (Table 11-1). -/
def Job.embVersion (j : Job) (num : Nat) : Version :=
  { num := num, lo := j.u 40 8, rows := j.u 48 8, base := j.u 56 8, acc := j.u 64 8, hot := j.u 72 8, stride := j.u 80 4,
    hotRows := j.u 84 4 }

/-- The field checks of TABLE_OPEN and TABLE_VERSION (R318, R319). -/
def State.tableOk (s : State) (j : Job) : Bool :=
  let v := j.embVersion 0
  let total := j.u 32 8
  let e := j.u 88 2
  let fmt := j.u 90 1
  let fl := j.u 91 1
  let up := fl % 4
  let al := embAlign fmt
  let own := j.f.len = 96 && 1 ≤ total && total ≤ 2 ^ 34 && 1 ≤ v.rows && v.lo + v.rows ≤ total && v.hotRows ≤ 1048576 &&
    1 ≤ e && e ≤ 4096 && fmt ≤ 5 && up ≤ 2 && fl % 128 < 4 && embRow fmt e ≤ v.stride && v.stride % al = 0 &&
    v.base % al = 0 && (v.hotRows = 0 || v.hot % al = 0) && (up != 2 || v.acc % 4 = 0) &&
    v.base + (v.rows - 1) * v.stride + embRow fmt e ≤ 2 ^ 57 && (up != 2 || v.acc + 4 * v.rows ≤ 2 ^ 57) &&
    (v.hotRows = 0 || v.hot + (v.hotRows - 1) * v.stride + embRow fmt e ≤ 2 ^ 57)
  own && (if j.ty = 0x300 then j.u 92 4 = 0
    else
      let x := s.table (j.u 92 4 % 65536)
      !x.opened || x.gen != j.u 92 4 / 65536 ||
        (x.rowsTotal = total && x.e = e && x.fmt = fmt && x.tflags = fl))

/-- The table that a job names, or why it may not use it (R317, R322). -/
def State.tableOf (s : State) (id tenant : Nat) : Except Status Table :=
  let x := s.table (id % 65536)
  if !x.opened || x.gen != id / 65536 || x.closing.isSome then .error .notPresent
  else if x.tenant != tenant then .error .denied
  else .ok x

/-- Bytes of the tables part that a version claims (Table 4-11). -/
def versionClaim (hotRows : Nat) : Nat := 4096 + 16 * hotRows

/-- The open claims now held. -/
def State.openClaims (s : State) : Nat :=
  s.emb.tables.foldl (fun n e => e.2.versions.foldl (fun n v => n + versionClaim v.hotRows) n) 0

/-- The fixed claims of Table 4-11, and those reserved by a BLENDED_MAX. -/
def fixedClaims (blended : Nat) : Nat :=
  2 ^ 20 + 2 ^ 22 + 2 ^ 22 + 2 ^ 17 + 2 ^ 16 + 2 ^ 17 + 2 ^ 20 + blended * 2 ^ 17

/-- Whether n more bytes fit in the tables part of the running carve (R122, R341). -/
def State.claimFits (s : State) (n : Nat) : Bool :=
  fixedClaims (s.reg Reg.tmBlendedMax) + s.openClaims + n ≤ s.boot.carve.getD 5 3 * 2 ^ 27

/-- Versions leave residence: those bound by no job that are not current, and all such of a closing table (R320, R322). -/
def Table.leave (x : Table) : Table :=
  let cur := x.current.elim 0 (·.num)
  { x with versions := x.versions.filter fun v => v.bound != 0 || (v.num = cur && x.closing.isNone) }

/-- TABLE_OPEN at its admission (R317, R318, R320). -/
def State.tableOpen (s : State) (i : Nat) (j : Job) : State :=
  match Tbl.lowestFree (s.emb.tables.filter fun e => e.2.opened) 1024 0 with
  | none => s.stopJob i .busy
  | some t =>
    if !s.claimFits (versionClaim (j.u 84 4)) then (s.bump Reg.geEmbTablesFull).stopJob i .busy
    else
      let gen := (s.table t).gen % 65535 + 1
      let x : Table := { gen := gen, opened := true, tenant := j.tenant, rowsTotal := j.u 32 8, e := j.u 88 2, fmt := j.u 90 1,
                         tflags := j.u 91 1, versions := [j.embVersion 1] }
      (s.onTable t fun _ => x).onJob i fun j => { j with result := leBytes 4 (gen * 65536 + t) ++ leBytes 4 1 }

/-- TABLE_VERSION at its admission (R320). -/
def State.tableVersion (s : State) (i : Nat) (j : Job) : State :=
  let t := j.u 92 4 % 65536
  match s.tableOf (j.u 92 4) j.tenant with
  | .error st => s.stopJob i st
  | .ok x =>
    if 4 ≤ x.versions.length then (s.bump Reg.geVersionBusy).stopJob i .busy
    else if !s.claimFits (versionClaim (j.u 84 4)) then (s.bump Reg.geEmbTablesFull).stopJob i .busy
    else
      let last := x.current.elim 0 (·.num)
      let num := if last = 2 ^ 32 - 1 then 1 else last + 1
      let s := s.onTable t fun x => Table.leave { x with versions := x.versions ++ [j.embVersion num] }
      s.onJob i fun k => { k with result := leBytes 4 (j.u 92 4) ++ leBytes 4 num }

/-- TABLE_CLOSE at its admission: later jobs are refused; it waits for the versions (R322). -/
def State.tableClose (s : State) (i : Nat) (j : Job) : State :=
  match s.tableOf (j.u 32 4) j.tenant with
  | .error st => s.stopJob i st
  | .ok _ =>
    (s.onTable (j.u 32 4 % 65536) fun x => Table.leave { x with closing := some i }).onJob i fun j => { j with units := 1 }

/-- TABLE_CLOSE_DONE: the last version has left residence (R322). -/
def tableCloseDoneOp (t : Nat) (s : State) : State :=
  match (s.table t).closing with
  | some i =>
    if (s.table t).versions.isEmpty then
      (s.onTable t fun x => { gen := x.gen }).onJob i fun j => { j with finished := 1 }
    else s
  | none => s

/-- Bind a GATHER or MERGE_UPDATE to its version at admission (R321). -/
def State.embBind (s : State) (i : Nat) (j : Job) : State :=
  let t := j.u 32 4 % 65536
  match s.tableOf (j.u 32 4) j.tenant with
  | .error st => s.stopJob i st
  | .ok x =>
    match (if j.u 36 4 = 0 then x.current else x.version? (j.u 36 4)) with
    | none => s.stopJob i .version
    | some v => (s.onVersion t v.num fun v => { v with bound := v.bound + 1 }).onJob i fun j => { j with bind := [t, v.num] }

/-- The completion of a bound job is sent or discarded (R321); its merge entries are free again (R326). -/
def State.embRelease (s : State) (i : Nat) (j : Job) : State :=
  let s := s.onEmb fun e => { e with claims := e.claims.del i }
  match j.bind with
  | [t, n] =>
    if j.ty = 0x310 || j.ty = 0x311 then
      (s.onVersion t n fun v => { v with bound := v.bound - 1 }).onTable t Table.leave
    else s
  | _ => s

/-- The field checks of GATHER and MERGE_UPDATE (Table 11-4). -/
def State.embOk (s : State) (j : Job) : Bool :=
  let dim (n : Nat) : Bool := 1 ≤ n && n ≤ 16777216
  let merge := j.ty = 0x311
  let own := j.f.len = (if merge then 104 else 96) && dim (j.u 80 4) && dim (j.u 84 4) && j.u 88 1 ≤ 3 && j.u 89 1 ≤ 2 &&
    j.u 90 2 = 0 && (if merge then j.u 100 4 = 0 else j.u 92 4 = 0)
  own && (!merge || (match s.tableOf (j.u 32 4) j.tenant with
    | .ok x => x.tflags % 4 != 0
    | .error _ => true))

/-- Start an embedding job at its admission: table jobs take effect, the others bind their version. -/
def State.embBegin (s : State) (i : Nat) (j : Job) : State :=
  let run (s : State) : State := s.onJob i fun j => { j with phase := .running, units := 0 }
  match j.ty with
  | 0x300 => (run s).tableOpen i j
  | 0x301 => (run s).tableVersion i j
  | 0x302 => (run s).tableClose i j
  | _ => s.embBind i j

/-! ### Index lists (R327, R328) -/

/-- The classes of an index (Table 11-5). -/
inductive IndexClass where
  | sentinel | range | absent | valid
  deriving DecidableEq, Repr

def classify (total : Nat) (v : Version) (r : Nat) : IndexClass :=
  if r = 2 ^ 64 - 1 then .sentinel
  else if total ≤ r then .range
  else if r < v.lo || v.lo + v.rows ≤ r then .absent
  else .valid

/-- The lowest bag that breaks R327. -/
def badBag (n : Nat) (offs : List Nat) : Option Nat :=
  let bags := offs.length - 1
  if offs.headD 0 != 0 then some 0
  else (List.range bags).find? fun b =>
    let lo := offs.getD b 0
    let hi := offs.getD (b + 1) 0
    hi < lo || 65536 < hi - lo || (b + 1 = bags && hi != n)

/-- A valid occurrence: its position, its row and its weight. -/
structure Occ where
  pos : Nat
  row : Nat
  w : Nat

/-- What the lists of a job say: the occurrences of each bag, and the counts VALID, RANGE, SENTINEL, ABSENT. -/
structure IndexLists where
  bags : List (List Occ)
  counts : List Nat

/-- Words of n bytes in a list of bytes. -/
def wordsOf (n k : Nat) (bs : List Byte) : List Nat := (parts n k bs).map leNat

/-- Sort the occurrences of a job into its bags. -/
def indexLists (total : Nat) (v : Version) (idx offs wts : List Nat) : IndexLists :=
  let cls := idx.map (classify total v)
  let all := (idx.zip cls).zipIdx
  let count (c : IndexClass) : Nat := cls.countP (· == c)
  let bag (b : Nat) : List Occ :=
    let lo := offs.getD b 0
    ((all.drop lo).take (offs.getD (b + 1) 0 - lo)).filterMap fun ((r, c), p) =>
      if c = .valid then some { pos := p, row := r, w := wts.getD p 0 } else none
  { bags := (List.range (offs.length - 1)).map bag,
    counts := [count .valid, count .range, count .sentinel, count .absent] }

/-- Read and check the lists of a job (R325, R327). -/
def Ctx.embLists (c : Ctx) (j : Job) (x : Table) (v : Version) : Eng IndexLists := do
  let n := j.u 80 4
  let bags := j.u 84 4
  let weighted := 2 ≤ j.u 88 1
  c.prepare ([{ va := j.u 40 8, len := 8 * n }, { va := j.u 48 8, len := 4 * (bags + 1), stream := 1 }] ++
    (if weighted then [{ va := j.u 56 8, len := 4 * n, stream := 2 }] else []))
  let offs := wordsOf 4 (bags + 1) (← c.load (j.u 48 8) (4 * (bags + 1)) 1)
  match badBag n offs with
  | some b =>
    modify fun s => s.onJob c.job fun j => { j with detail := b }
    halt .unsupported
  | none =>
    let idx := wordsOf 8 n (← c.load (j.u 40 8) (8 * n) 0)
    let wts ← if weighted then do pure (wordsOf 4 n (← c.load (j.u 56 8) (4 * n) 2)) else pure []
    pure (indexLists x.rowsTotal v idx offs wts)

/-! ### Rows (R319, R329, R330) -/

/-- Where a row lies at home, and its hot slot. -/
def Version.rowAt (v : Version) (r : Nat) : Nat := v.base + (r - v.lo) * v.stride
def Version.slotOf (v : Version) (r : Nat) : Option Nat := (v.hotSlots.find? fun e => e.2 = r).map (·.1)
def Version.slotAt (v : Version) (k : Nat) : Nat := v.hot + k * v.stride

/-- The FP32 elements of a row. -/
def Table.rowElems (x : Table) (bs : List Byte) : List Nat :=
  if x.fmt = 5 then
    let sc := leField bs 0 4
    (rowVals .int8 x.e (bs.drop 4)).map fun q => f32Mul q.f32 sc
  else (rowVals ((fmtOf x.fmt).getD .fp32) x.e bs).map (·.f32)

/-- The bytes of a row of new elements (R335); i is the index of element 0. An INT8 row without a finite value stores scale 1.0,
0 for each NaN and 127 or -127 for each infinity. -/
def Table.rowBytes (x : Table) (rd : Rounding) (i : Nat) (vs : List Nat) : List Byte :=
  let fin := vs.filter fun v => v % 0x80000000 < f32Inf
  if x.fmt = 5 && fin.isEmpty then
    leBytes 4 0x3F800000 ++ vs.map fun v => if v = f32Inf then 127#8 else if v = f32NegInf then -127#8 else 0#8
  else if x.fmt = 5 then
    let amax := fin.foldl (fun a v => max a (v % 0x80000000)) 0
    let sc := if amax = 0 then 0x3F800000 else f32Div amax 0x42FE0000
    leBytes 4 sc ++ (writeRow .int8 rd i 1 (vs.map fun v => f32Div v sc)).bytes
  else (writeRow ((fmtOf x.fmt).getD .fp32) rd i 1 vs).bytes

/-- The distinct rows of occurrences, in the order of their first, each with the position of that. -/
def firstRows (l : List Occ) : Tbl Nat :=
  l.foldl (fun t o => if (Tbl.get? t o.row).isSome then t else Tbl.put t o.row o.pos) []

/-- The rows in the order of their first occurrence. -/
def rowOrder (t : Tbl Nat) : List Nat := ((t.map fun e => (e.2, e.1)).mergeSort fun a b => a.1 ≤ b.1).map (·.2)

/-- wtot, the sum of a bag's weights (R330). -/
def bagWeight (b : List Occ) : Nat := tree f32Add 0 (b.map (·.w))

/-- One pooled element (R330). -/
def poolElem (pool : Nat) (b : List Occ) (xs : List Nat) : Nat :=
  if b.isEmpty then 0
  else match pool with
    | 0 => tree f32Add 0 xs
    | 1 => f32Div (tree f32Add 0 xs) (f32OfInt b.length)
    | 2 => tree f32Add 0 ((b.zip xs).map fun (o, x) => f32Mul o.w x)
    | _ => f32Div (tree f32Add 0 ((b.zip xs).map fun (o, x) => f32Mul o.w x)) (bagWeight b)

/-- The flag byte of a bag (R331). -/
def bagFlags (pool : Nat) (b : List Occ) (failed : Bool) : Byte :=
  let wzero := pool = 3 && !b.isEmpty && bagWeight b % 0x80000000 = 0
  BitVec.ofNat 8 (b2n b.isEmpty + 2 * b2n wzero + 4 * b2n failed)

/-- The flags write of a job. -/
def Ctx.saveFlags (c : Ctx) (j : Job) (flags : List Byte) : Eng Unit := do
  if j.u 72 8 != 0 then
    let _ ← c.save (j.u 72 8) flags 6 (failKey flags.length 0)

/-! ### The tracker (R338) -/

/-- One fetch of a row in the tracker of 256 entries. -/
def trackOne (t : Tbl Nat) (r : Nat) : Tbl Nat :=
  match Tbl.get? t r with
  | some n => Tbl.put t r (n + 1)
  | none =>
    if t.length < 256 then Tbl.put t r 1
    else
      let low := t.foldl (fun (b : Nat × Nat) e => if e.2 < b.2 || (e.2 = b.2 && b.1 < e.1) then e else b) (t.headD (0, 0))
      Tbl.put (Tbl.del t low.1) r (low.2 + 1)

/-- The fetches of a job in order count in its table and its version. -/
def State.noteFetches (s : State) (t n : Nat) (fetched : List Nat) : State :=
  let s := s.onVersion t n fun v => { v with tracker := fetched.foldl trackOne v.tracker }
  s.onTable t fun x => { x with fetches := x.fetches + fetched.length, winNow := x.winNow + fetched.length }

/-- The occurrences and dropped indices of a job count in its table (R328, R338). -/
def State.noteIndices (s : State) (t : Nat) (counts : List Nat) : State :=
  s.onTable t fun x =>
    { x with occ := x.occ + counts.getD 0 0, dropRange := x.dropRange + counts.getD 1 0,
             dropSent := x.dropSent + counts.getD 2 0, dropAbsent := x.dropAbsent + counts.getD 3 0 }

/-! ### GATHER (R329 to R332) -/

/-- Rows that the duplicate filter of a job can hold: its claimed slots, and 64 MiB of staged rows (R326, R329). -/
def State.filterCap (s : State) (i rowBytes : Nat) : Nat := min (s.emb.claims.getD i 0) (2 ^ 26 / max 1 rowBytes)

/-- Four-byte counts of a result. -/
def countBytes (l : List Nat) : List Byte := l.flatMap fun n => leBytes 4 (min n 0xFFFFFFFF)

/-- GATHER: the whole job on its engine. -/
def gatherWork (c : Ctx) (j : Job) (t : Nat) (x : Table) (v : Version) : Eng Unit := do
  let lists ← c.embLists j x v
  let rb := embRow x.fmt x.e
  let occs := lists.bags.flatten
  let rows := rowOrder (firstRows occs)
  let cap := (← get).filterCap c.job rb
  let kept := rows.take cap
  let late := (rows.drop cap)
  let refetched := (occs.filter fun o => late.contains o.row).map (·.row)
  let place (r : Nat) : Nat := match v.slotOf r with
    | some k => v.slotAt k
    | none => v.rowAt r
  let osz := if j.u 89 1 = 0 then 4 else 2
  let orow := x.e * osz
  let bags := lists.bags.length
  c.prepare ((rows.map fun r => ({ va := place r, len := rb, stream := 3 } : Span)) ++
    [{ va := j.u 64 8, len := bags * orow, access := .write, stream := 4 }] ++
    (if j.u 72 8 != 0 then [{ va := j.u 72 8, len := bags, access := .write, stream := 6 }] else []))
  let mut data : Tbl (List Nat) := []
  let mut bad : Tbl Status := []
  for r in rows do
    match ← c.tryLoad (place r) rb 3 with
    | .ok bs => data := data.put r (x.rowElems bs)
    | .error st => bad := bad.put r st
  let fmt := (fmtOf (j.u 89 1)).getD .fp32
  let mut flags : List Byte := []
  for (b, k) in lists.bags.zipIdx do
    match b.findSome? fun o => bad.get? o.row with
    | some st =>
      modify fun s => s.jobFail c.job (failKey k 0) st
      flags := flags ++ [bagFlags (j.u 88 1) b true]
    | none =>
      let vals := b.map fun o => data.getD o.row []
      let elems := (List.range x.e).map fun e => poolElem (j.u 88 1) b (vals.map fun l => l.getD e 0)
      let row := writeRow fmt j.rounding (k * x.e) 1 elems
      let r ← c.save (j.u 64 8 + k * orow) row.bytes 4 (failKey k 0)
      flags := flags ++ [bagFlags (j.u 88 1) b r.isSome]
  c.saveFlags j flags
  let empties := (List.range bags).filter fun k => (lists.bags.getD k []).isEmpty
  let pg := gatherPage (c.engine - 10)
  let valid := lists.counts.getD 0 0
  modify fun s =>
    let s := (s.noteIndices t lists.counts).noteFetches t v.num ((occs.foldl (fun (x : List Nat × List Nat) o =>
      if late.contains o.row then (x.1 ++ [o.row], x.2)
      else if x.2.contains o.row then x else (x.1 ++ [o.row], o.row :: x.2)) ([], [])).1)
    let s := ((s.bump64 (Reg.geOccurrences pg) valid).bump64 (Reg.geRowsFetched pg) kept.length).bump64
      (Reg.geRefetches pg) refetched.length
    let s := (s.bump64 (Reg.geRowBytes pg) ((kept.length + refetched.length) * rb)).bump64 (Reg.gePoolOps pg) (valid * x.e)
    let s := s.when (s.reg (Reg.geFilterHigh pg) < kept.length) fun s => s.setReg (Reg.geFilterHigh pg) kept.length
    s.onJob c.job fun j =>
      { j with result := countBytes (lists.counts ++ [kept.length, refetched.length, empties.length, empties.headD 0xFFFFFFFF]) }

/-! ### MERGE_UPDATE (R333 to R337) -/

/-- The row hash of R334. -/
def rowHash (r : Nat) : Nat := mix32 ((r % 2 ^ 32) ^^^ mix32 (r / 2 ^ 32 % 2 ^ 32))

/-- One pass over the rows of the index list in order (R334 steps 2 and 3): the bound hi that it ends with, its splits,
and the rows it merged; none where a range of width 1 overflows. -/
def mergePass (cap lo : Nat) : List Nat → Nat → Nat → List Nat → Option (Nat × Nat × List Nat)
  | [], hi, splits, held => some (hi, splits, held)
  | r :: rs, hi, splits, held =>
    if rowHash r < lo || hi ≤ rowHash r || held.contains r then mergePass cap lo rs hi splits held
    else if held.length < cap then mergePass cap lo rs hi splits (r :: held)
    else
      let rec shrink : Nat → Nat → Nat → List Nat → Option (Nat × Nat × List Nat)
        | 0, _, _, _ => none
        | n + 1, hi, splits, held =>
          if hi ≤ lo + 1 then none
          else
            let hi := lo + (hi - lo) / 2
            let held := held.filter fun q => rowHash q < hi
            if hi ≤ rowHash r then some (hi, splits + 1, held)
            else if held.length < cap then some (hi, splits + 1, r :: held)
            else shrink n hi (splits + 1) held
      match shrink 33 hi splits held with
      | none => none
      | some (hi, splits, held) => mergePass cap lo rs hi splits held

/-- What the passes of a merge give: the rows of each completed pass, the splits, and whether one overflowed. -/
structure Passes where
  done : List (List Nat) := []
  splits : Nat := 0
  overflow : Bool := false

/-- All passes, from hash lo on; the fuel bounds their number by the rows. -/
def mergePasses (cap : Nat) (rows : List Nat) : Nat → Nat → Passes → Passes
  | 0, _, p => p
  | n + 1, lo, p =>
    match mergePass cap lo rows (2 ^ 32) 0 [] with
    | none => { p with overflow := true }
    | some (hi, splits, held) =>
      let p : Passes := { done := p.done ++ [held.mergeSort], splits := p.splits + splits }
      if 2 ^ 32 ≤ hi then p else mergePasses cap rows n hi p

/-- The gradient share of one occurrence of a bag (R333). -/
def gradShare (pool : Nat) (b : List Occ) (o : Occ) (g : Nat) : Nat :=
  match pool with
  | 0 => g
  | 1 => f32Div g (f32OfInt b.length)
  | 2 => f32Mul o.w g
  | _ => f32Div (f32Mul o.w g) (bagWeight b)

/-- The update of a row (R335): new elements, and the new accumulator. -/
def updateRow (adaptive : Bool) (lr eps acc : Nat) (x m : List Nat) : List Nat × Nat :=
  if !adaptive then ((x.zip m).map fun (a, g) => f32Sub a (f32Mul lr g), acc)
  else
    let a := f32Div (tree f32Add 0 (m.map fun g => f32Mul g g)) (f32OfInt m.length)
    let acc := f32Add acc a
    let d := f32Add (f32Sqrt acc) eps
    ((x.zip m).map fun (v, g) => f32Sub v (f32Div (f32Mul lr g) d), acc)

/-- MERGE_UPDATE: the whole job on its engine. -/
def mergeWork (c : Ctx) (j : Job) (t : Nat) (x : Table) (v : Version) : Eng Unit := do
  let lists ← c.embLists j x v
  let rb := embRow x.fmt x.e
  let occs := lists.bags.flatten
  let first := firstRows occs
  let rows := rowOrder first
  let bags := lists.bags.length
  let adaptive := x.tflags % 4 = 2
  let gsz := if j.u 89 1 = 0 then 4 else 2
  let grow := x.e * gsz
  let gf := (fmtOf (j.u 89 1)).getD .fp32
  let accAt (r : Nat) : Nat := v.acc + 4 * (r - v.lo)
  let live := (List.range bags).filter fun b => !(lists.bags.getD b []).isEmpty
  let rw (stream : Nat) (access : Access) (r : Nat) : List Span :=
    [{ va := v.rowAt r, len := rb, stream := stream, access := access }] ++
      (if adaptive then [{ va := accAt r, len := 4, stream := stream, access := access }] else [])
  c.prepare ((live.map fun b => ({ va := j.u 64 8 + b * grow, len := grow, stream := 4 } : Span)) ++
    rows.flatMap (rw 3 .read) ++ rows.flatMap (rw 5 .write) ++
    (rows.filterMap fun r => (v.slotOf r).map fun k => ({ va := v.slotAt k, len := rb, stream := 5, access := .write } : Span)) ++
    (if j.u 72 8 != 0 then [{ va := j.u 72 8, len := bags, access := .write, stream := 6 }] else []))
  let mut grads : Tbl (List Nat) := []
  for b in live do
    let bs ← c.load (j.u 64 8 + b * grow) grow 4
    grads := grads.put b ((rowVals gf x.e bs).map (·.f32))
  let shares : List (Nat × List Nat) := (lists.bags.zipIdx).flatMap fun (b, k) =>
    b.map fun o => (o.row, (grads.getD k []).map fun g => gradShare (j.u 88 1) b o g)
  let byRow : Tbl (List (List Nat)) := shares.foldl (fun m e => Tbl.put m e.1 ((Tbl.getD m e.1 []) ++ [e.2])) []
  let cap := (← get).emb.claims.getD c.job 0
  let passes := mergePasses cap (occs.map (·.row)) (rows.length + 1) 0 { }
  let todo := passes.done.flatten
  let mut got : Tbl (Except Status (List Nat × Nat)) := []
  for r in todo do
    match ← c.tryLoad (v.rowAt r) rb 3 with
    | .error st => got := got.put r (.error st)
    | .ok bs =>
      if adaptive then
        match ← c.tryLoad (accAt r) 4 3 with
        | .error st => got := got.put r (.error st)
        | .ok a => got := got.put r (.ok (x.rowElems bs, leNat a))
      else got := got.put r (.ok (x.rowElems bs, 0))
  let mut updated := 0
  for r in todo do
    let key := failKey (first.getD r 0) 0
    let stands := (← c.theJob).saved.contains key
    match got.getD r (.error .reset) with
    | .error st => modify fun s => s.jobFail c.job key st
    | .ok (xs, acc) =>
      let gs := byRow.getD r []
      let m := (List.range x.e).map fun e => tree f32Add 0 (gs.map fun g => g.getD e 0)
      let (vs, acc) := updateRow adaptive (j.u 92 4) (j.u 96 4) acc xs m
      let bs := x.rowBytes j.rounding ((r - v.lo) * x.e) vs
      let writes := [(v.rowAt r, bs, none)] ++ (if adaptive then [(accAt r, leBytes 4 acc, none)] else []) ++
        (match v.slotOf r with
          | some k => [(v.slotAt k, bs, none)]
          | none => [])
      if stands then updated := updated + 1
      else match ← catching (c.saveAll 5 key writes) with
        | .error st => modify fun s => s.jobFail c.job key st
        | .ok _ => updated := updated + 1
  c.saveFlags j (lists.bags.map fun b => bagFlags (j.u 88 1) b false)
  let pg := gatherPage (c.engine - 10)
  let valid := lists.counts.getD 0 0
  let npass := passes.done.length + b2n passes.overflow
  let most := byRow.foldl (fun n e => max n e.2.length) 0
  let n := updated
  modify fun s =>
    let s := (s.noteIndices t lists.counts).onTable t fun x => { x with updates := x.updates + n }
    let s := ((s.bump64 (Reg.geOccurrences pg) valid).bump64 (Reg.geRowBytes pg) (todo.length * rb)).bump64
      (Reg.gePoolOps pg) (valid * x.e)
    let s := ((s.bump64 (Reg.geRowsUpdated pg) n).bump (Reg.gePasses pg) npass).bump (Reg.gePassSplits pg) passes.splits
    s.onJob c.job fun j =>
      { j with result := countBytes (lists.counts ++ [n, npass, bags - live.length, most]) }
  if passes.overflow then modify fun s => s.stopJob c.job .busy

/-- The work of a GATHER or MERGE_UPDATE. -/
def embUnit (ty : Nat) (c : Ctx) : Eng Unit := do
  let j ← c.theJob
  match j.bind with
  | [t, n] =>
    let x := (← get).table t
    match x.version? n with
    | none => halt .version
    | some v => if ty = 0x310 then gatherWork c j t x v else mergeWork c j t x v
  | _ => halt .reset

/-- DETAIL of an embedding job: the failing bag, the position of the failing row, or the bag that broke R327. -/
def Job.embDetail (j : Job) : Nat :=
  match j.firstFail with
  | some (_, .unsupported) => j.detail
  | some (p, _) => min (p / 2 ^ 32) 0xFFFFFFFF
  | none => 0

/-! ### Dealing (R324, R326, R336, R340) -/

/-- Whether a gather engine holds a job. -/
def State.gatherHeld (s : State) (e : Nat) : Bool :=
  s.jobs.jobs.any fun x => (x.2.ty = 0x310 || x.2.ty = 0x311) && x.2.phase = .running && x.2.engine = 10 + e

/-- Whether a queued embedding job may be dealt: a MERGE_UPDATE waits for earlier ones of its version and for promotions
that are due (R336, R340). -/
def State.embReady (s : State) (i : Nat) (j : Job) : Bool :=
  (j.ty = 0x310 || j.ty = 0x311) && j.phase = .waiting && j.stopped.isNone &&
  (j.ty = 0x310 ||
    (!(s.jobs.jobs.any fun e => e.1 < i && e.2.ty = 0x311 && e.2.bind = j.bind && e.2.stopped.isNone) &&
      (match j.bind with
        | [t, n] => (((s.table t).version? n).all fun v => v.due.isEmpty) && !(s.jobs.jobs.any fun e => e.2.ty = 0 && e.2.bind = [0, t, n])
        | _ => true)))

/-- Merge entries that are free (R326). -/
def State.mergeFree (s : State) : Nat :=
  s.boot.carve.getD 3 4 * 1048576 - s.emb.claims.foldl (fun n e => n + e.2) 0

/-- A job that has its engine claims its entries, if 4,096 are free, and runs (R326). -/
def State.embClaim (s : State) (i : Nat) : State :=
  match s.job? i with
  | none => s
  | some j =>
    let free := s.mergeFree
    if (j.ty != 0x310 && j.ty != 0x311) || j.phase != .running || j.next != 0 || j.stopped.isSome || free < 4096 then s
    else
      let n := min (s.reg (if j.ty = 0x310 then Reg.geFilterMax else Reg.geMergeMax)) free
      let s := (s.onEmb fun e => { e with claims := e.claims.put i n }).onJob i fun j => { j with next := 1 }
      let c : Ctx := { job := i, unit := 0, engine := j.engine }
      s.runUnit c (failKey 0 0) (embUnit j.ty c)

/-- GATHER_DEAL: the oldest job that may go takes the lowest free gather engine. -/
def gatherDealOp (s : State) : State :=
  match (List.range 4).find? fun e => s.serves (gatherPage e) && !s.gatherHeld e with
  | none => s
  | some e =>
    match s.jobs.jobs.find? fun x => s.embReady x.1 x.2 with
    | none => s
    | some (i, _) => (s.onJob i fun j => { j with phase := .running, engine := 10 + e }).embClaim i

/-- The counts of a gather engine when one of its jobs completes (R344, R346). -/
def State.embEnd (s : State) (j : Job) (st : Status) : State :=
  if (j.ty != 0x310 && j.ty != 0x311) || j.engine < 10 then s
  else
    let e := j.engine - 10
    let pg := gatherPage e
    let s := s.bump (Reg.geJobs pg)
    if st = .ok then s
    else
      (s.bump (Reg.geJobsFailed pg)).unitError pg 0 fun s => s.raiseQuiet (360 + e)

/-! ### Load windows and hot rows (R338 to R340) -/

/-- The plan of a window end for a version: slot and row of each promotion, as slot * 2^40 + row (R339). A slot or a row that a
promotion still due has taken is not given again. -/
def Version.plan (v : Version) (thresh : Nat) : List Nat :=
  let slots := v.due.map (· / 2 ^ 40)
  let rows := v.due.map (· % 2 ^ 40)
  let cand := ((v.tracker.filter fun e => thresh ≤ e.2 && (v.slotOf e.1).isNone && !rows.contains e.1).mergeSort
    fun a b => b.2 < a.2 || (a.2 = b.2 && a.1 ≤ b.1)).map (·.1)
  let cold := ((v.hotSlots.filter fun e => 2 * v.tracker.getD e.2 0 < thresh && !slots.contains e.1).mergeSort fun a b => b.2 ≤ a.2).map (·.1)
  let free := (List.range v.hotRows).filter fun k => (v.hotSlots.get? k).isNone && !slots.contains k
  ((free ++ cold).zip cand).map fun (k, r) => k * 2 ^ 40 + r

/-- The window end of one table. -/
def State.tableWindow (s : State) (t : Nat) : State :=
  let x := s.table t
  if !x.opened then s
  else
    let hotOn := bit (s.reg Reg.geEmbCtrl) 16 && bit x.tflags 7
    let thresh := s.reg Reg.geHotThresh
    let top := (x.current.elim [] (·.tracker)).foldl (fun (b : Nat × Nat) e =>
      if b.2 < e.2 then e else b) (0, 0)
    let over_ := x.alert != 0 && x.alert < x.winNow
    let s := s.onTable t fun x =>
      { x with winFetch := x.winNow, topCount := top.2, topRow := top.1, winNow := 0,
               versions := x.versions.map fun v =>
                 let due := if hotOn && 0 < v.hotRows && 1 ≤ v.windows then v.due ++ v.plan thresh else v.due
                 { v with tracker := [], windows := v.windows + 1, due := due } }
    s.when over_ fun s => s.raise 364

/-- EMB_WINDOW_END: a window of EMB_CTRL.WINDOW ms has passed. -/
def embWindowEndOp (s : State) : State :=
  if s.since s.emb.windowAt (s.reg Reg.geEmbCtrl % 1024 * 1000000) then
    s.emb.tables.foldl (fun s e => s.tableWindow e.1) (s.onEmb fun e => { e with windowAt := s.ran })
  else s

/-- The copies of a batch of promotions, as work of a gather engine of its own (R340): each row that is copied becomes
hot, and a row whose slot it takes is hot no more. -/
def hotUnit (c : Ctx) : Eng Unit := do
  let j ← c.theJob
  match j.bind with
  | [_, t, n] =>
    let x := (← get).table t
    match x.version? n with
    | none => pure ()
    | some v =>
      let rb := embRow x.fmt x.e
      let moves := j.counts.map fun d => (d / 2 ^ 40, d % 2 ^ 40)
      c.prepare (moves.flatMap fun (k, r) =>
        [{ va := v.rowAt r, len := rb, stream := 3 }, { va := v.slotAt k, len := rb, access := .write, stream := 5 }])
      let mut rows : List (Nat × Nat × List Byte) := []
      for (k, r) in moves do
        match ← c.tryLoad (v.rowAt r) rb 3 with
        | .ok bs => rows := rows ++ [(k, r, bs)]
        | .error _ => pure ()
      for (k, r, bs) in rows do
        let done := (← c.theJob).saved.contains k
        match ← catching (c.saveAll 5 k [(v.slotAt k, bs, none)]) with
        | .error _ => pure ()
        | .ok _ => if !done then
          modify fun s =>
            let was := Tbl.get? (((s.table t).version? n).elim [] (·.hotSlots)) k
            let s := s.onVersion t n fun v => { v with hotSlots := v.hotSlots.put k r }
            s.onTable t fun x => { x with promotions := x.promotions + 1, demotions := x.demotions + b2n was.isSome }
  | _ => pure ()

/-- Begin work that an engine does of itself: kind 0, promotions; 1, a merge's switch; 2, its drain. -/
def State.ownBegin (s : State) (tenant engine : Nat) (bind : List Nat) : Nat × State :=
  let i := s.jobs.nextJob
  let j : Job := { conn := 0, f := { }, ty := 0, tenant := tenant, flags := 0, target := 0, seed := 0, limit := 0, user := 0,
                   body := [], tAdmit := s.now, die := 0, phase := .running, next := 1, bind := bind, engine := engine }
  (i, s.onJobs fun x => { x with jobs := x.jobs.put i j, nextJob := i + 1 })

/-- A batch of promotions ends: it is no longer due, and what has become due since is the next batch. -/
def State.hotEnd (s : State) (i : Nat) : State :=
  match s.job? i with
  | none => s
  | some j =>
    match j.ty, j.bind with
    | 0, [0, t, n] =>
      if (j.finished = j.units || j.stopped.isSome) && !s.jobBusy i then
        (s.onJobs fun x => { x with jobs := x.jobs.del i }).onVersion t n fun v => { v with due := v.due.filter fun d => !j.counts.contains d }
      else s
    | _, _ => s

/-- HOT_PROMOTION_BATCH: the due promotions of a version, once no MERGE_UPDATE of it runs (R340). -/
def hotPromotionBatchOp (t n : Nat) (s : State) : State :=
  match (s.table t).version? n with
  | none => s
  | some v =>
    let busy := s.jobs.jobs.any fun e => e.2.stopped.isNone &&
      (e.2.bind = [0, t, n] || (e.2.bind = [t, n] && e.2.ty = 0x311 && e.2.phase = .running))
    if v.due.isEmpty || busy then s
    else
      let (i, s) := s.ownBegin (s.table t).tenant 10 [0, t, n]
      let s := s.onJob i fun j => { j with counts := v.due }
      let c : Ctx := { job := i, unit := 0, engine := 10 }
      (s.runUnit c (failKey 0 0) (hotUnit c)).hotEnd i

end Sys2Proof.Machine
end

