-- ==== Sys2Proof/Machine/Searches.lean ====
section
/-! DEFINITION. Vector search (12_vector_search.md): collections, INSERT, DELETE, SEARCH, merges (R347 to R376). -/

namespace Sys2Proof.Machine

/-! ### Collections and the META region (R347 to R349) -/

def State.coll (s : State) (k : Nat) : Collection := s.srch.colls.getD k { }

def State.onColl (s : State) (k : Nat) (f : Collection → Collection) : State :=
  s.onSrch fun e => { e with colls := e.colls.put k (f (e.colls.getD k { })) }

def up4k (n : Nat) : Nat := ceilDiv n 4096 * 4096

/-- CAPACITY. -/
def Collection.cap (x : Collection) : Nat := x.capPages * 4096

/-- Codes of a table. -/
def Collection.codes (x : Collection) : Nat := 2 ^ x.codeBits

/-- Bytes of a directory. -/
def Collection.dirBytes (x : Collection) : Nat := 8 * x.tables * x.codes

/-- The parts of the META region in order (Table 12-3): journal, norms, live bitmap, quarantine bitmap, side list,
directory 0, directory 1, heap map, bucket heap, and their end. -/
def Collection.parts (x : Collection) : List Nat :=
  [2 ^ 20, 8 * x.cap, x.cap / 8, x.cap / 8, 16 * x.sideMax, x.dirBytes, x.dirBytes, x.heapBytes / 2048, x.heapBytes].foldl
    (fun l n => l ++ [up4k (l.getLastD 0 + n)]) [0]

/-- Where a part begins. -/
def Collection.part (x : Collection) (k : Nat) : Nat := x.metaBase + x.parts.getD k 0

def Collection.journal (x : Collection) : Nat := x.part 0
def Collection.normAt (x : Collection) (id : Nat) : Nat := x.part 1 + 8 * id
def Collection.liveAt (x : Collection) (id : Nat) : Nat := x.part 2 + id / 8
def Collection.quarAt (x : Collection) (id : Nat) : Nat := x.part 3 + id / 8
/-- The place of the k-th record of the ring from its start. -/
def Collection.sideAt (x : Collection) (k : Nat) : Nat := x.part 4 + (x.sideFirst + k) % x.sideMax * 16
/-- The directory entry of a generation: generation 1 lies on directory 0, and each next one on the other (log entry 29). -/
def Collection.dirAt (x : Collection) (gen t code : Nat) : Nat := x.part (5 + (gen + 1) % 2) + 8 * (t * x.codes + code)
def Collection.heapMap (x : Collection) : Nat := x.part 7
/-- The bytes of a heap granule. -/
def Collection.granuleAt (x : Collection) (g : Nat) : Nat := x.part 8 + 256 * g
def Collection.vecAt (x : Collection) (id : Nat) : Nat := x.vecBase + id * x.vstride
def Collection.fmt (x : Collection) : Fmt := (fmtOf x.vtype).getD .fp32
/-- Bytes of a vector. -/
def Collection.vecBytes (x : Collection) : Nat := x.fmt.rowBytes x.d

/-- The collection that a COLL_OPEN describes (Table 12-2). -/
def Job.collBody (j : Job) : Collection :=
  { tenant := j.tenant, vecBase := j.u 32 8, metaBase := j.u 40 8, metaBytes := j.u 48 8, projBase := j.u 56 8,
    capPages := j.u 64 4, vstride := j.u 68 4, sideMax := j.u 72 4, d := j.u 76 2, vtype := j.u 78 1, metric := j.u 79 1,
    tables := j.u 80 1, codeBits := j.u 81 1, heapBytes := j.u 84 8 }

/-- The field checks of a COLL_OPEN (R348). -/
def Job.collOk (j : Job) : Bool :=
  let x := j.collBody
  j.f.len = 96 && j.u 82 2 = 0 && j.u 92 4 = 0 && x.vecBase % 64 = 0 && x.metaBase % 4096 = 0 && x.projBase % 2 = 0 &&
    1 ≤ x.capPages && x.capPages ≤ 1048576 && x.vstride % 64 = 0 && x.vtype ≤ 2 && x.vecBytes ≤ x.vstride && 4096 ≤ x.sideMax &&
    x.sideMax ≤ 1048576 && x.sideMax % 4096 = 0 && 32 ≤ x.d && x.d ≤ 4096 && x.d % 32 = 0 && x.metric ≤ 2 && 1 ≤ x.tables &&
    x.tables ≤ 16 && 8 ≤ x.codeBits && x.codeBits ≤ 24 && x.heapBytes % 4096 = 0 && 2 ^ 20 ≤ x.heapBytes &&
    x.parts.getLastD 0 ≤ x.metaBytes && x.vecBase + x.cap * x.vstride ≤ 2 ^ 57 && x.metaBase + x.metaBytes ≤ 2 ^ 57 &&
    x.projBase + 2 * x.d * x.tables * x.codeBits ≤ 2 ^ 57

/-- The collection number that a job names. -/
def Job.collNo (j : Job) : Nat := j.u 32 4 % 65536

/-- The collection that a job names, or why it may not use it (R347). -/
def State.collOf (s : State) (j : Job) : Except Status Collection :=
  let x := s.coll j.collNo
  if !x.opened || x.gen != j.u 32 4 / 65536 then .error .notPresent
  else if x.tenant != j.tenant then .error .denied
  else .ok x

/-- The field checks of the search jobs at step 8. -/
def State.searchOk (s : State) (j : Job) : Bool :=
  match j.ty with
  | 0x400 => j.collOk
  | 0x401 => j.f.len = 40 && j.u 36 4 = 0
  | 0x402 => j.f.len = 56 && 1 ≤ j.u 36 4 && j.u 36 4 ≤ 65536
  | 0x403 => j.f.len = 48 && 1 ≤ j.u 36 4 && j.u 36 4 ≤ 65536
  | 0x404 =>
    j.f.len = 80 && j.u 39 1 = 0 && j.u 42 2 = 0 && j.u 72 8 = 0 && 1 ≤ j.u 36 2 && j.u 36 2 ≤ 256 && 1 ≤ j.u 38 1 && j.u 38 1 ≤ 25 &&
      1 ≤ j.u 40 2 && j.u 40 2 ≤ 1024 && j.u 44 4 ≤ 16777215 && j.u 56 8 % 8 = 0 && j.u 64 8 % 8 = 0 &&
      (match s.collOf j with
        | .ok x => j.u 38 1 ≤ x.codeBits + 1
        | .error _ => true)
  | _ => j.f.len = 40 && j.u 36 1 ≤ 1 && leField j.body 37 3 = 0

/-! ### Arithmetic (R351 to R353) -/

/-- dot of R351. -/
def vecDot (a b : List Fp) : Nat := dotFloat false (ceilDiv a.length 128) a b 0

/-- nx and rx of a vector, or nq and rq of a query. -/
def vecNorm (v : List Fp) : Nat × Nat :=
  let n := vecDot v v
  (n, if f32IsNan n || n = f32Inf then 0 else f32Rsqrt n)

/-- The score of an item (R351). -/
def vecScore (metric dot nx rx nq rq : Nat) : Nat :=
  match metric with
  | 0 => f32Add (f32Sub nx (f32Add dot dot)) nq
  | 1 => f32Neg dot
  | _ => f32Neg (f32Mul (f32Mul dot rx) rq)

/-- The place of a score in the order of R352: -0 as +0, every NaN alike above +infinity. -/
def scoreKey (a : Nat) : Int :=
  if f32IsNan a then 2 ^ 40 else if a % 0x80000000 = 0 then 0 else f32Key a

/-- The order of results (R352): pairs of score and ID. -/
def scoreLe (a b : Nat × Nat) : Bool := scoreKey a.1 < scoreKey b.1 || (scoreKey a.1 = scoreKey b.1 && a.2 ≤ b.2)

/-- The p_j of a vector in a table (R353): proj holds the table's B rows of D BF16 values. -/
def projections (v : List Fp) (proj : List (List Fp)) : List Nat :=
  let w := v.map fun a => f32Val (viaBf16 a.f32)
  proj.map fun p => vecDot w p

/-- The code of p_j's (R353). -/
def codeOf (ps : List Nat) : Nat := (ps.zipIdx.map fun (p, j) => if f32Lt 0 p then 2 ^ j else 0).sum

/-- The first n bits of |p_j| ascending, ties by the lower j, NaN last (R363). -/
def flipBits (ps : List Nat) (n : Nat) : List Nat :=
  let key (p : Nat) : Nat := if f32IsNan p then 0xFFFFFFFF else p % 0x80000000
  ((ps.zipIdx.mergeSort fun a b => key a.1 < key b.1 || (key a.1 = key b.1 && a.2 ≤ b.2)).take n).map (·.2)

/-! ### Reads that jobs share -/

/-- The projections of a collection, table by table. -/
def Ctx.loadProj (c : Ctx) (x : Collection) (stream : Nat) : Eng (List (List (List Fp))) := do
  let bs ← c.load x.projBase (2 * x.d * x.tables * x.codeBits) stream
  let rows := (parts (2 * x.d) (x.tables * x.codeBits) bs).map (rowVals .bf16 x.d)
  pure (parts x.codeBits x.tables rows)

/-- A vector of the collection. -/
def Ctx.loadVec (c : Ctx) (x : Collection) (id stream : Nat) : Eng (List Fp) := do
  pure (rowVals x.fmt x.d (← c.load (x.vecAt id) x.vecBytes stream))

/-- One bit of a bitmap. -/
def Ctx.loadBit (c : Ctx) (va id stream : Nat) : Eng Bool := do
  pure (bit (← c.number va 1 stream) (id % 8))

/-- A side-list record: epoch, ID, KIND (Table 12-5). -/
structure SideRec where
  epoch : Nat
  id : Nat
  kind : Nat
  deriving DecidableEq, Repr

/-- The committed records of the ring, in ring order. -/
def Ctx.loadSide (c : Ctx) (x : Collection) (stream : Nat) : Eng (List SideRec) := do
  let mut out : List SideRec := []
  for k in List.range x.sideUsed do
    let bs ← c.load (x.sideAt k) 16 stream
    out := out ++ [{ epoch := leField bs 0 8, id := leField bs 8 4, kind := leField bs 12 1 }]
  pure out

/-- The bytes of a record. -/
def SideRec.bytes (r : SideRec) : List Byte := leBytes 8 r.epoch ++ leBytes 4 r.id ++ leBytes 1 r.kind ++ List.replicate 3 0

/-- Write, and end the unit where the write fails at once. -/
def Ctx.saveOr (c : Ctx) (va : Nat) (bs : List Byte) (stream : Nat) : Eng Unit := do
  match ← c.save va bs stream (failKey c.unit 0) with
  | some st => halt st
  | none => pure ()

/-- The bytes of a bitmap that hold the IDs, with the bits set or cleared. -/
def Ctx.bitBytes (c : Ctx) (base : Nat) (ids : List Nat) (set : Bool) (stream : Nat) : Eng (List (Nat × Byte)) := do
  let mut out : Tbl Byte := []
  for id in ids do
    let va := base + id / 8
    let old ← match out.get? va with
      | some b => pure b
      | none => do pure (BitVec.ofNat 8 (← c.number va 1 stream))
    let m := BitVec.twoPow 8 (id % 8)
    out := out.put va (if set then old ||| m else old &&& ~~~m)
  pure out

/-- Translate the bytes for writing. -/
def writeSpans (l : List (Nat × Nat)) (stream : Nat) : List Span :=
  l.map fun (va, n) => { va := va, len := n, access := .write, stream := stream }

/-! ### COLL_OPEN, INSERT, DELETE (R349, R356 to R358) -/

/-- COLL_OPEN: zeros in the journal, both bitmaps, directory 0 and the heap map (R349). -/
def collOpenUnit (c : Ctx) : Eng Unit := do
  let j ← c.theJob
  let x := j.collBody
  let zeros := [(x.part 0, 2 ^ 20), (x.part 2, x.cap / 8), (x.part 3, x.cap / 8), (x.part 5, x.dirBytes),
    (x.part 7, x.heapBytes / 2048)]
  c.prepare (writeSpans zeros 1)
  for (va, n) in zeros do
    for (a, k) in pageParts va n do
      c.saveOr a (List.replicate k 0) 1

/-- The first ID of a list that breaks R357 step 1 or 2: its place and the status. -/
def insertFault (cap : Nat) (ids : List Nat) (live quar : List Bool) : Option (Nat × Status) :=
  let all := (ids.zip (live.zip quar)).zipIdx
  match all.find? fun ((id, l, _), k) => cap ≤ id || l || (ids.take k).contains id with
  | some (_, k) => some (k, .unsupported)
  | none => (all.find? fun ((_, _, q), _) => q).map fun (_, k) => (k, .busy)

/-- INSERT up to its completion (R357 steps 1 to 3). -/
def insertUnit (c : Ctx) : Eng Unit := do
  let j ← c.theJob
  match (← get).collOf j with
  | .error st => halt st
  | .ok x =>
    let n := j.u 36 4
    let ids := wordsOf 4 n (← c.load (j.u 40 8) (4 * n) 0)
    let mut live : List Bool := []
    let mut quar : List Bool := []
    for id in ids do
      if id < x.cap then
        live := live ++ [← c.loadBit (x.liveAt id) id 3]
        quar := quar ++ [← c.loadBit (x.quarAt id) id 3]
      else
        live := live ++ [false]
        quar := quar ++ [false]
    match insertFault x.cap ids live quar with
    | some (k, st) =>
      modify fun s => s.onJob c.job fun j => { j with detail := k }
      if st = .busy then modify fun s => s.bump Reg.seQuarBusy
      halt st
    | none =>
      let keep := (← get).reg Reg.seDeleteReserve
      if x.sideMax - x.sideUsed < n + keep then
        modify fun s => s.bump Reg.seSideBusy
        halt .busy
      let vb := x.vecBytes
      let src ← c.load (j.u 48 8) (n * vb) 0
      let bitsSet ← c.bitBytes (x.part 2) ids true 3
      let recs := (List.range n).map fun k => (x.sideAt (x.sideUsed + k), 16)
      c.prepare (writeSpans (ids.map fun id => (x.vecAt id, vb)) 4 ++ writeSpans (ids.map fun id => (x.normAt id, 8)) 3 ++
        writeSpans recs 2 ++ writeSpans (bitsSet.map fun e => (e.1, 1)) 3)
      for (id, k) in ids.zipIdx do
        let bs := slice src (k * vb) vb
        c.saveOr (x.vecAt id) bs 4
        let (nx, rx) := vecNorm (rowVals x.fmt x.d bs)
        c.saveOr (x.normAt id) (leBytes 4 nx ++ leBytes 4 rx) 3
      for (id, k) in ids.zipIdx do
        let r : SideRec := { epoch := x.epoch + 1, id := id, kind := 1 }
        c.saveOr (x.sideAt (x.sideUsed + k)) r.bytes 2
      for (va, b) in bitsSet do
        c.saveOr va [b] 3
      modify fun s => s.onJob c.job fun j => { j with counts := [n, 0] }

/-- DELETE up to its completion (R358). -/
def deleteUnit (c : Ctx) : Eng Unit := do
  let j ← c.theJob
  match (← get).collOf j with
  | .error st => halt st
  | .ok x =>
    let n := j.u 36 4
    let ids := wordsOf 4 n (← c.load (j.u 40 8) (4 * n) 0)
    let mut dead : List Nat := []
    for id in ids do
      if id < x.cap && !dead.contains id then
        if ← c.loadBit (x.liveAt id) id 3 then dead := dead ++ [id]
    if x.sideMax - x.sideUsed < dead.length then
      modify fun s => s.bump Reg.seSideBusy
      halt .busy
    let clear ← c.bitBytes (x.part 2) dead false 3
    let set ← c.bitBytes (x.part 3) dead true 3
    c.prepare (writeSpans (dead.zipIdx.map fun (_, k) => (x.sideAt (x.sideUsed + k), 16)) 2 ++
      writeSpans ((clear ++ set).map fun e => (e.1, 1)) 3)
    for (id, k) in dead.zipIdx do
      let r : SideRec := { epoch := x.epoch + 1, id := id, kind := 2 }
      c.saveOr (x.sideAt (x.sideUsed + k)) r.bytes 2
    for (va, b) in clear ++ set do
      c.saveOr va [b] 3
    let gone := dead.length
    modify fun s => s.onJob c.job fun j =>
      { j with counts := [gone, n - gone], result := leBytes 4 gone ++ leBytes 4 (n - gone) }

/-! ### SEARCH (R360 to R367) -/

/-- What a query binds at admission (R360): collection, epoch, generation and SIDE_LO. -/
structure QueryBind where
  k : Nat
  epoch : Nat
  gen : Nat
  sideLo : Nat

def Job.query (j : Job) : Option QueryBind :=
  match j.bind with
  | [k, e, g, lo] => some { k := k, epoch := e, gen := g, sideLo := lo }
  | _ => none

/-- A bucket header (Table 12-4). -/
structure BucketHead where
  code : Nat
  table : Nat
  count : Nat
  gen : Nat
  rgen : Nat
  nbr : List Nat
  deriving DecidableEq, Repr

def bucketHead (bs : List Byte) : BucketHead :=
  { code := leField bs 0 4 % 2 ^ 24, table := leField bs 4 1, count := leField bs 8 4, gen := leField bs 12 4,
    rgen := leField bs 16 4, nbr := (List.range 24).map fun j => leField bs (24 + 8 * j) 8 % 2 ^ 48 }

/-- The bytes of a header. -/
def BucketHead.bytes (h : BucketHead) : List Byte :=
  leBytes 4 h.code ++ leBytes 1 h.table ++ List.replicate 3 0 ++ leBytes 4 h.count ++ leBytes 4 h.gen ++ leBytes 4 h.rgen ++
    List.replicate 4 0 ++ h.nbr.flatMap (leBytes 8) ++ List.replicate 40 0

/-- The acceptance of a header reached through a neighbour entry (R355). -/
def BucketHead.accepts (h : BucketHead) (gen t code : Nat) : Bool :=
  h.table = t && h.code = code && h.gen ≤ gen && (h.rgen = 0 || gen < h.rgen)

/-- Read the header of the bucket at a granule. -/
def Ctx.loadHead (c : Ctx) (x : Collection) (loc stream : Nat) : Eng BucketHead := do
  pure (bucketHead (← c.load (x.granuleAt loc) 256 stream))

/-- The IDs of a bucket. -/
def Ctx.loadIds (c : Ctx) (x : Collection) (loc count stream : Nat) : Eng (List Nat) := do
  pure (wordsOf 4 count (← c.load (x.granuleAt loc + 256) (4 * count) stream))

/-- What the probes of a query give. -/
structure ProbeOut where
  taken : List (Nat × Nat) := []
  read : Nat := 0
  probes : Nat := 0
  stale : Nat := 0
  hits : Nat := 0
  truncated : Bool := false

/-- The IDs of an accepted bucket join the candidates (R364 step 1): pairs of ID and bucket. -/
def ProbeOut.take (p : ProbeOut) (candMax loc : Nat) (ids : List Nat) : ProbeOut :=
  let p := { p with read := p.read + ids.length }
  ids.foldl (fun p id =>
    if p.taken.any fun e => e.1 = id then p
    else if p.taken.length < candMax then { p with taken := p.taken ++ [(id, loc)] }
    else { p with truncated := true }) p

/-- Probe one table (R363): loc is where a probe goes, or none where the home's NBR decides. -/
def Ctx.probeTable (c : Ctx) (x : Collection) (b : QueryBind) (t nprobe candMax : Nat) (ps : List Nat) (fetched : List Nat)
    (st1 : Nat) (p0 : ProbeOut) : Eng ProbeOut := do
  let code := codeOf ps
  let mut p : ProbeOut := { p0 with probes := p0.probes + nprobe }
  let home ← c.number (x.dirAt b.gen t code) 8 st1
  let home := home % 2 ^ 48
  let mut nbr : List Nat := []
  if home != 0 then
    let h ← c.loadHead x home st1
    nbr := h.nbr
    p := { p.take candMax home (← c.loadIds x home h.count st1) with hits := p.hits + b2n (fetched.contains home) }
  for k in flipBits ps (nprobe - 1) do
    let want := code ^^^ 2 ^ k
    if home != 0 then
      let loc := nbr.getD k 0
      if loc != 0 then
        let h ← c.loadHead x loc st1
        if h.accepts b.gen t want then
          p := { p.take candMax loc (← c.loadIds x loc h.count st1) with hits := p.hits + b2n (fetched.contains loc) }
        else p := { p with stale := p.stale + 1 }
    else
      let loc ← c.number (x.dirAt b.gen t want) 8 st1
      let loc := loc % 2 ^ 48
      if loc != 0 then
        let h ← c.loadHead x loc st1
        p := { p.take candMax loc (← c.loadIds x loc h.count st1) with hits := p.hits + b2n (fetched.contains loc) }
  pure p

/-- The tests and scores of candidates (R364 steps 3 and 4): filtered, dead, and scored ones as score, ID and bucket. -/
structure ScoreOut where
  filtered : Nat := 0
  dead : Nat := 0
  scored : List (Nat × Nat × Nat) := []

/-- Test and score candidates in order. -/
def Ctx.scoreAll (c : Ctx) (j : Job) (x : Collection) (q : List Fp) (cands : List (Nat × Nat)) (kind : Nat → Nat) :
    Eng ScoreOut := do
  let (nq, rq) := vecNorm q
  let mut out : ScoreOut := { }
  for (id, loc) in cands do
    let pass ← if j.u 64 8 = 0 then pure true else c.loadBit (j.u 64 8 + id / 8) id (kind 3)
    if !pass then out := { out with filtered := out.filtered + 1 }
    else if !(← c.loadBit (x.liveAt id) id (kind 3)) then out := { out with dead := out.dead + 1 }
    else
      let norm ← if x.metric = 1 then pure [] else c.load (x.normAt id) 8 (kind 3)
      let v ← c.loadVec x id (kind 4)
      let sc := vecScore x.metric (vecDot q v) (leField norm 0 4) (leField norm 4 4) nq rq
      out := { out with scored := out.scored ++ [(sc, id, loc)] }
  pure out

/-- The buckets that the prefetcher would read for a query of a half: those that the hinted buckets name (R365). It has
no effect but on its counters. -/
def State.prefetch (s : State) (half : Nat) (x : Collection) : List Nat :=
  if !bit (s.reg Reg.seSearchCtrl) 31 then []
  else
    let at_ (loc : Nat) : List Byte :=
      (s.peekRanges x.tenant (x.granuleAt loc) 256).flatMap fun (pa, n) => s.bytes (offOf pa) n
    ((x.hints.getD half []).flatMap fun loc => ((bucketHead (at_ loc)).nbr.take x.codeBits).filter (· != 0)).eraseDups

/-- The bytes of a query's result (R366). -/
def queryResult (k scored flags stale : Nat) (best : List (Nat × Nat)) : List Byte :=
  let pad := List.replicate (k - best.length) (leBytes 4 0xFFFFFFFF ++ leBytes 4 f32Nan)
  leBytes 4 best.length ++ leBytes 4 scored ++ leBytes 4 flags ++ leBytes 4 stale ++
    best.flatMap (fun (sc, id) => leBytes 4 id ++ leBytes 4 sc) ++ pad.flatten

/-- Add to the eight counts of a SEARCH (R366). -/
def State.searchCounts (s : State) (i : Nat) (l : List Nat) : State :=
  s.onJob i fun j => { j with counts := ((j.counts ++ List.replicate (8 - j.counts.length) 0).zip l).map fun (a, b) => a + b }

/-- One query (R360 to R366). -/
def Ctx.queryBody (c : Ctx) (j : Job) (b : QueryBind) : Eng Unit := do
  let x := (← get).coll b.k
  let half := c.engine - 14
  let pg := corePage half 0x70
  let kind (n : Nat) : Nat := n + 256 * c.unit
  let k := j.u 40 2
  let nprobe := j.u 38 1
  let ctrl := (← get).reg Reg.seSearchCtrl
  let candMax := if j.u 44 4 = 0 then ctrl % 2 ^ 24 else j.u 44 4
  let fetched := (← get).prefetch half x
  let q := rowVals x.fmt x.d (← c.load (j.u 48 8 + c.unit * x.vecBytes) x.vecBytes (kind 0))
  let proj ← c.loadProj x (kind 0)
  let mut p : ProbeOut := { }
  for (rows, t) in proj.zipIdx do
    p ← c.probeTable x b t nprobe candMax (projections q rows) fetched (kind 1) p
  let side := (← c.loadSide x (kind 2)).filter fun r => b.sideLo < r.epoch && r.epoch ≤ b.epoch
  let cands := p.taken ++ (side.filter fun r => r.kind = 1).map fun r => (r.id, 0)
  let sc ← c.scoreAll j x q cands kind
  let best := ((sc.scored.map fun (a, id, loc) => ((a, id), loc)).mergeSort fun a b => scoreLe a.1 b.1).take k
  let out := j.u 56 8 + c.unit * (16 + 8 * k)
  let bytes := queryResult k sc.scored.length (b2n p.truncated) p.stale (best.map (·.1))
  c.saveAll (kind 5) (failKey c.unit 0) [(out, bytes, none)]
  let hints := (((best.take 8).map (·.2)).filter (· != 0)).eraseDups
  let tiles := ceilDiv sc.scored.length 128 * 128 * ceilDiv x.d 128
  let steps := ceilDiv (x.tables * x.codeBits) 128 * 128 * ceilDiv x.d 128 + (if x.vtype = 0 then 0 else tiles)
  modify fun s =>
    let s := ((s.bump (Reg.seQueries pg)).bump64 (Reg.seProbes pg) p.probes).bump64 (Reg.seEntriesRead pg) p.read
    let s := ((s.bump64 (Reg.seScored pg) sc.scored.length).bump64 (Reg.seSideScanned pg) side.length).bump
      (Reg.seDeadSuppressed pg) sc.dead
    let s := ((s.bump (Reg.seFiltered pg) sc.filtered).bump (Reg.seNbrStale pg) p.stale).bump (Reg.seTruncated pg) (b2n p.truncated)
    let s := (s.bump (Reg.sePrefetched pg) fetched.length).bump (Reg.sePrefetchHits pg) p.hits
    let s := s.bump64 (Reg.maSteps (arrayPage (c.array.getD (4 * half)))) steps
    let s := s.onColl b.k fun x =>
      let old := (x.hints.getD half []).filter fun l => !hints.contains l
      { x with hints := x.hints.put half ((old ++ hints).drop (old.length + hints.length - 64)) }
    s.searchCounts c.job [1, 0, sc.scored.length, p.read, side.length, sc.dead, sc.filtered, p.stale]

/-- SEARCH: one query; one that fails writes its header alone (R367). -/
def queryUnit (c : Ctx) : Eng Unit := do
  let j ← c.theJob
  match j.query with
  | none => halt .reset
  | some b =>
    match ← catching (c.queryBody j b) with
    | .ok _ => pure ()
    | .error st =>
      let half := c.engine - 14
      let pg := corePage half 0x70
      let out := j.u 56 8 + c.unit * (16 + 8 * j.u 40 2)
      let scored ← freeBytes 4
      let stale ← freeBytes 4
      match ← catching (c.save out (leBytes 4 0 ++ scored ++ leBytes 4 2 ++ stale) (5 + 256 * c.unit) (failKey c.unit 1)) with
      | .ok _ => pure ()
      | .error _ => pure ()
      modify fun s =>
        let s := ((s.bump (Reg.seQueriesFailed pg)).bump (Reg.seQueries pg)).unitError pg 0 fun s => s.raiseQuiet (368 + half)
        s.searchCounts c.job [0, 1, 0, 0, 0, 0, 0, 0]
      halt st

/-- QUERY_DEAL: the lowest free array of a die whose half runs takes the next query (R252, R362). -/
def queryDealOp (s : State) : State :=
  match s.dealArray (fun j => j.ty = 0x404) fun a _ => s.arrayServes a false && s.serves (corePage (a / 4) 0x70) with
  | none => s
  | some (a, i) =>
    match (s.job? i).bind (·.nextUnit) with
    | none => s
    | some u =>
      let bad := s.jobs.misfires
      let s := (s.onJob i Job.dealt).onJobs fun j => { j with misfires := [] }
      match s.residues a i u bad with
      | (true, s) => s
      | (false, s) =>
        let c : Ctx := { job := i, unit := u, engine := 14 + a / 4, array := some a }
        s.runUnit c (failKey u 0) (queryUnit c)

/-! ### Merges (R368 to R371) -/

/-- The lowest run of n free granules from lo on, below hi (R368 step 4). -/
def freeRun (used : Nat → Bool) (n : Nat) : Nat → Nat → Nat → Nat → Option Nat
  | 0, _, _, _ => none
  | fuel + 1, at_, len, hi =>
    if len = n then some (at_ - n)
    else if hi ≤ at_ then none
    else if used at_ then freeRun used n fuel (at_ + 1) 0 hi
    else freeRun used n fuel (at_ + 1) (len + 1) hi

/-- Granules of a bucket of n IDs (R354). -/
def bucketGranules (n : Nat) : Nat := 1 + ceilDiv (4 * n) 256

/-- A bucket to be written: its table and code, its IDs, and its old location. -/
structure Planned where
  table : Nat
  code : Nat
  ids : List Nat
  old : Nat
  oldCount : Nat

/-- The affected codes of a table (R368 step 3). -/
def affected (full : Bool) (touched : List Nat) (dir : List Nat) : List Nat :=
  let nonEmpty := if full then (dir.zipIdx.filter fun e => e.1 != 0).map (·.2) else []
  ((touched ++ nonEmpty).eraseDups).mergeSort

/-- Allocate the new buckets in order: the location of each, none when the heap has no room. -/
def allocate (used : Nat → Bool) (hi : Nat) : List Planned → Nat → Option (List (Planned × Nat))
  | [], _ => some []
  | p :: ps, from_ =>
    if p.ids.isEmpty then (allocate used hi ps from_).map fun l => (p, 0) :: l
    else
      let n := bucketGranules p.ids.length
      match freeRun used n (hi + 2) from_ 0 hi with
      | none => none
      | some g => (allocate used hi ps (g + n)).map fun l => (p, g) :: l

/-- What the chunk sums of a merge's projections show on the arrays of its half's die: an array that fails leaves them to the
next (R252, R368). -/
def State.mergeResidue (half : Nat) : List Nat → State → State
  | [], s => s.onJobs fun j => { j with misfires := [] }
  | n :: l, s =>
    let s := match (List.range 8).find? fun a => a / 4 = half && s.arrayServes a false with
      | some a => if 2 ≤ n then s.arrayFails a else s.when (n = 1) fun s => s.residue a
      | none => s
    State.mergeResidue half l s

/-- The output of a collection's merge (R368, R369): drop and add sets, affected codes, new buckets, the new directory,
retirement. -/
def mergeBody (c : Ctx) (k : Nat) : Eng Unit := do
  let x := (← get).coll k
  if x.merge.st = .running then
    let g1 := x.generation + 1
    let recs := (← c.loadSide x 2).filter fun r => r.epoch ≤ x.merge.s
    let drop := ((recs.filter fun r => r.kind = 2).map (·.id)).eraseDups
    let add := (((recs.filter fun r => r.kind = 1).map (·.id)).eraseDups).filter fun id => !drop.contains id
    let proj ← c.loadProj x 0
    let mut codes : Tbl (List Nat) := []
    for id in drop ++ add do
      let v ← c.loadVec x id 4
      codes := codes.put id (proj.map fun rows => codeOf (projections v rows))
    if !(drop ++ add).isEmpty then modify fun s => State.mergeResidue (c.engine - 14) s.jobs.misfires s
    let code (id t : Nat) : Nat := (codes.getD id []).getD t 0
    let map ← c.load x.heapMap (x.heapBytes / 2048) 1
    let used (n : Nat) : Bool := n = 0 || bit (map.getD (n / 8) 0).toNat (n % 8)
    let mut planned : List Planned := []
    let mut dirs : List (List Nat) := []
    for t in List.range x.tables do
      let dir := wordsOf 8 x.codes (← c.load (x.dirAt x.generation t 0) (8 * x.codes) 1)
      dirs := dirs ++ [dir]
      let touched := (drop ++ add).map fun id => code id t
      for k in affected x.merge.full touched dir do
        let loc := dir.getD k 0 % 2 ^ 48
        let (cnt, ids) ← if loc = 0 then pure (0, []) else do
          let h ← c.loadHead x loc 1
          pure (h.count, ← c.loadIds x loc h.count 1)
        let ids := ids.filter fun id => !drop.contains id
        let ids := (ids ++ add.filter fun id => code id t = k && !ids.contains id).mergeSort
        planned := planned ++ [{ table := t, code := k, ids := ids, old := loc, oldCount := cnt }]
    match allocate used (x.heapBytes / 256) planned 1 with
    | none => halt .busy
    | some placed =>
      let newDir : List (List Nat) := placed.foldl (fun (d : List (List Nat)) (p, loc) =>
        d.set p.table ((d.getD p.table []).set p.code loc)) dirs
      let nbr (p : Planned) : List Nat := (List.range 24).map fun k =>
        if k < x.codeBits then (newDir.getD p.table []).getD (p.code ^^^ 2 ^ k) 0 else 0
      let built := placed.filter fun e => !e.1.ids.isEmpty
      let heads := built.map fun (p, loc) =>
        (x.granuleAt loc, slice (({ code := p.code, table := p.table, count := p.ids.length, gen := g1, rgen := 0, nbr := nbr p } :
          BucketHead).bytes ++ p.ids.flatMap (leBytes 4)) 0 (256 * bucketGranules p.ids.length))
      let retired := planned.filter fun p => p.old != 0
      c.prepare (writeSpans (heads.map fun e => (e.1, e.2.length)) 1 ++ writeSpans [(x.dirAt g1 0 0, x.dirBytes)] 1 ++
        writeSpans (retired.map fun p => (x.granuleAt p.old + 16, 4)) 1 ++ writeSpans [(x.journal, 2 ^ 20)] 1)
      for (va, bs) in heads do
        c.saveOr va bs 1
      for (row, t) in newDir.zipIdx do
        c.saveOr (x.dirAt g1 t 0) (row.flatMap (leBytes 8)) 1
      let out := (heads.map fun e => e.2.length).sum + x.dirBytes
      for n in List.range (out / 2 ^ 26) do
        let body ← freeBytes 60
        c.saveOr (x.journal + 64 * (n % 16384)) (body ++ leBytes 4 (crc32c body)) 1
      for p in retired do
        c.saveOr (x.granuleAt p.old + 16) (leBytes 4 g1) 1
      let idsOut := (built.map fun e => e.1.ids.length).sum
      modify fun s => s.onColl k fun x =>
        let m : Merge := { x.merge with
          out := out,
          built := built.map fun (p, loc) =>
            { table := p.table, code := p.code, loc := loc, granules := bucketGranules p.ids.length, ids := p.ids.length },
          retired := retired.map fun p => (p.old, bucketGranules p.oldCount),
          complete := true, drop := drop, consumed := recs.length, idsWritten := idsOut,
          oldGen := x.generation }
        { x with merge := m }

/-- MERGE and the RESUME of a merge, up to the switch. -/
def mergeUnit (c : Ctx) : Eng Unit := do
  let j ← c.theJob
  match (← get).collOf j with
  | .error st => halt st
  | .ok _ => mergeBody c j.collNo

/-- The granules of runs. -/
def granulesOf (l : List (Nat × Nat)) : List Nat := l.flatMap fun (g, n) => (List.range n).map (g + ·)

/-- The switch of a merge (R370): heap-map bits of the new buckets, generation and SIDE_LO. -/
def switchUnit (c : Ctx) (k : Nat) : Eng Unit := do
  let x := (← get).coll k
  let gs := granulesOf (x.merge.built.map fun b => (b.loc, b.granules))
  let set ← c.bitBytes x.heapMap gs true 1
  c.prepare (writeSpans (set.map fun e => (e.1, 1)) 1)
  for (va, b) in set do
    c.saveOr va [b] 1
  modify fun s => s.onColl k fun x =>
    let m : Merge := { x.merge with st := .draining }
    { x with generation := x.generation + 1, sideLo := x.merge.s, heapUsed := x.heapUsed + gs.length, merge := m }

/-- The drain of a merge (R370): retired granules, consumed records and quarantines are released. -/
def drainUnit (c : Ctx) (k : Nat) : Eng Unit := do
  let x := (← get).coll k
  let gs := granulesOf x.merge.retired
  let clear ← c.bitBytes x.heapMap gs false 1
  let quar ← c.bitBytes (x.part 3) x.merge.drop false 3
  c.prepare (writeSpans (clear.map fun e => (e.1, 1)) 1 ++ writeSpans (quar.map fun e => (e.1, 1)) 3)
  for (va, b) in clear ++ quar do
    c.saveOr va [b] 1
  let m := x.merge
  modify fun s =>
    let s := s.onColl k fun x =>
      { x with heapUsed := x.heapUsed - gs.length, sideFirst := (x.sideFirst + m.consumed) % max 1 x.sideMax,
               sideUsed := x.sideUsed - m.consumed, quarantined := x.quarantined - m.drop.length, merge := { } }
    let s := (s.bump Reg.seMerges).raise 370
    match m.job with
    | some i => s.onJob i fun j =>
        { j with finished := j.units,
                 result := leBytes 8 m.built.length ++ leBytes 8 m.retired.length ++ leBytes 8 m.idsWritten ++ leBytes 8 m.consumed }
    | none => s

/-- MERGE_RESUME ABANDON: the journal is cleared (R371). -/
def abandonUnit (c : Ctx) : Eng Unit := do
  let j ← c.theJob
  match (← get).collOf j with
  | .error st => halt st
  | .ok x =>
    c.prepare (writeSpans [(x.journal, 2 ^ 20)] 1)
    for (a, n) in pageParts x.journal (2 ^ 20) do
      c.saveOr a (List.replicate n 0) 1
    modify fun s => ((s.onColl j.collNo fun x => { x with merge := { } }).bump Reg.seMergesAbandoned).raise 370

/-- Kinds of work of a merge that the device does of itself: its switch, its drain, and the output of a merge that a Dark hold
has held (R372). -/
def mergeOwn (kind : Nat) (c : Ctx) (k : Nat) : Eng Unit :=
  match kind with
  | 1 => switchUnit c k
  | 2 => drainUnit c k
  | _ => mergeBody c k

/-- A merge stopped before its switch is PENDING; after it the merge drains on without its job (R371). -/
def Merge.stop (m : Merge) : Merge :=
  match m.st with
  | .running => { st := .pending, full := m.full, s := m.s, out := m.out }
  | _ => { m with job := none }

/-- A collection's merge has stopped: what the device does of itself towards its switch ends. -/
def State.mergePend (s : State) (k : Nat) : State :=
  (s.onJobs fun q => { q with jobs := q.jobs.filter fun e => !(e.2.ty = 0 && (e.2.bind = [1, k] || e.2.bind = [3, k])) }).onColl k
    fun x => { x with merge := x.merge.stop }

/-- Work of a merge that the device does of itself has ended; output or a switch that met a failure abandons the merge. -/
def State.mergeOwnEnd (s : State) (i : Nat) : State :=
  match s.job? i with
  | none => s
  | some j =>
    match j.ty, j.bind with
    | 0, [kind, k] =>
      if (j.finished = j.units || j.stopped.isSome) && !s.jobBusy i then
        let s := s.onJobs fun x => { x with jobs := x.jobs.del i }
        if kind = 3 && j.stopped.isSome then s.mergePend k else
        match kind, j.firstFail with
        | 1, some (_, st) | 3, some (_, st) =>
          let m := (s.coll k).merge
          let s := ((s.onColl k fun x => { x with merge := { } }).bump Reg.seMergesAbandoned).raise 370
          match m.job with
          | some q => s.stopJob q st
          | none => s
        | _, _ => s
      else s
    | _, _ => s

/-- Whether the device is at work of its own on a collection. -/
def State.ownBusy (s : State) (k : Nat) : Bool :=
  s.jobs.jobs.any fun e => e.2.ty = 0 && (e.2.bind = [1, k] || e.2.bind = [2, k] || e.2.bind = [3, k])

/-- The half on which a collection's work runs: its own, or the other while its own does not serve. -/
def State.searchHalf (s : State) (k : Nat) : Option Nat :=
  let g := k % 2
  if s.serves (corePage g 0x70) then some g else if s.serves (corePage (1 - g) 0x70) then some (1 - g) else none

/-- MERGE_SWITCH: a merge has finished its output (R370). -/
def mergeSwitchOp (k : Nat) (s : State) : State :=
  let x := s.coll k
  if x.merge.st = .running && x.merge.complete && !s.ownBusy k && s.boot.service = .full then
    let (i, s) := s.ownBegin x.tenant (14 + k % 2) [1, k]
    let c : Ctx := { job := i, unit := 0, engine := 14 + k % 2 }
    (s.runUnit c (failKey 0 0) (switchUnit c k)).mergeOwnEnd i
  else s

/-- MERGE_DRAIN: no query of the old generation remains (R370). -/
def mergeDrainOp (k : Nat) (s : State) : State :=
  let x := s.coll k
  let bound := s.jobs.jobs.any fun e => e.2.ty = 0x404 &&
    e.2.query.any fun b => b.k = k && b.gen = x.merge.oldGen
  if x.merge.st = .draining && !bound && !s.ownBusy k && s.boot.service = .full then
    let (i, s) := s.ownBegin x.tenant (14 + k % 2) [2, k]
    let c : Ctx := { job := i, unit := 0, engine := 14 + k % 2 }
    (s.runUnit c (failKey 0 0) (drainUnit c k)).mergeOwnEnd i
  else s

/-- A merge that a Dark hold held goes on of itself in full service, on its half (R372). -/
def State.mergeAgain (s : State) (k : Nat) : State :=
  let x := s.coll k
  if x.merge.st = .running && !x.merge.complete && x.merge.job.isNone && !s.ownBusy k && s.boot.service = .full &&
      s.serves (corePage (k % 2) 0x70) then
    let (i, s) := s.ownBegin x.tenant (14 + k % 2) [3, k]
    let c : Ctx := { job := i, unit := 0, engine := 14 + k % 2 }
    (s.runUnit c (failKey 0 0) (mergeBody c k)).mergeOwnEnd i
  else s

/-- Held merges go on. -/
def State.mergesAgain (s : State) : State := (s.srch.colls.map (·.1)).foldl State.mergeAgain s

/-! ### Order, start and end of the jobs (R356, R360, R368, R371) -/

/-- Jobs of a tenant's collection admitted before a job and not completed. -/
def State.collBefore (s : State) (i : Nat) (j : Job) : List Nat :=
  (s.jobs.jobs.filter fun e => e.1 < i && e.2.phase != .ingress && 0x401 ≤ e.2.ty && e.2.ty ≤ 0x406 &&
    e.2.u 32 4 = j.u 32 4 && e.2.tenant = j.tenant).map (·.2.ty)

/-- Start a search job whose turn it is. -/
def State.searchBegin (s : State) (i : Nat) (j : Job) : State :=
  let s := s.onJob i fun j => { j with phase := .running, units := 0 }
  let one (s : State) (k : Nat) : State := s.onJob i fun j => { j with units := 1, engine := 14 + (s.searchHalf k).getD (k % 2) }
  if j.ty = 0x400 then
    if (Tbl.lowestFree (s.srch.colls.filter fun e => e.2.opened) 256 0).isSome then one s 0
    else (s.bump Reg.seCollFull).stopJob i .busy
  else match s.collOf j with
    | .error st => s.stopJob i st
    | .ok x =>
      let k := j.collNo
      match j.ty with
      | 0x401 => s.onColl k fun x => { gen := x.gen }
      | 0x402 | 0x403 => one s k
      | 0x404 =>
        if j.u 38 1 ≤ x.codeBits + 1 then
          s.onJob i fun j => { j with units := j.u 36 2, bind := [k, x.epoch, x.generation, x.sideLo] }
        else s.stopJob i .unsupported
      | 0x405 =>
        if x.merge.st != .none then s.stopJob i .busy
        else if !s.serves (corePage (k % 2) 0x70) then s.stopJob i .busy
        else
          let m : Merge := { st := .running, full := j.u 36 1 = 1, s := x.epoch, job := some i, oldGen := x.generation }
          (s.onColl k fun x => { x with merge := m }).onJob i fun j => { j with units := 3, engine := 14 + k % 2 }
      | _ =>
        if x.merge.st != .pending then s.stopJob i .unsupported
        else if j.u 36 1 = 1 then one s k
        else
          let m : Merge := { st := .running, full := x.merge.full, s := x.merge.s, job := some i, oldGen := x.generation }
          (s.onColl k fun x => { x with merge := m }).onJob i fun j => { j with units := 3, engine := 14 + k % 2 }

/-- A search job that waits starts when R356 lets it; one behind a COLL_CLOSE completes NOT_PRESENT. -/
def State.searchGo (s : State) (i : Nat) : State :=
  match s.job? i with
  | none => s
  | some j =>
    if j.phase != .waiting || j.stopped.isSome || j.ty < 0x400 || 0x406 < j.ty then s
    else
      let before := s.collBefore i j
      if j.ty = 0x400 then s.searchBegin i j
      else if before.contains 0x401 then s.stopJob i .notPresent
      else if j.ty = 0x401 && !before.isEmpty then s
      else if (j.ty = 0x402 || j.ty = 0x403) && before.any (fun ty => ty = 0x402 || ty = 0x403) then s
      else s.searchBegin i j

/-- The work of a search job's unit. -/
def searchWork (j : Job) (c : Ctx) : Eng Unit :=
  match j.ty with
  | 0x400 => collOpenUnit c
  | 0x402 => insertUnit c
  | 0x403 => deleteUnit c
  | 0x404 => queryUnit c
  | 0x405 => mergeUnit c
  | _ => if j.u 36 1 = 1 then abandonUnit c else mergeUnit c

/-- The job of a merge has stopped: before the switch the merge is PENDING, abandoned when it met a failure, and held when the
device went to Dark hold (R370, R371, R372; log entry 99). -/
def State.mergeStopped (s : State) (k i : Nat) (st : Status) (failed : Bool) : State :=
  let x := s.coll k
  if x.merge.job = some i then
    if x.merge.st = .running && !(st = .held && !failed) then
      let s := s.mergePend k
      s.when failed fun s => ((s.onColl k fun x => { x with merge := { } }).bump Reg.seMergesAbandoned).raise 370
    else s.onColl k fun x =>
      let m : Merge := { x.merge with job := none }
      { x with merge := m }
  else s

/-- What the completion of a search job does (R347, R357, R358, R371): its status, which a COLL_OPEN may still change. -/
def State.searchEnd (s : State) (i : Nat) (j : Job) (st : Status) : Status × State :=
  let k := j.collNo
  match j.ty with
  | 0x400 =>
    if st != .ok then (st, s)
    else match Tbl.lowestFree (s.srch.colls.filter fun e => e.2.opened) 256 0 with
      | none => (.busy, s.bump Reg.seCollFull)
      | some k =>
        let x := j.collBody
        let gen := (s.coll k).gen % 65535 + 1
        let x := { x with gen := gen, opened := true, epoch := 1, generation := 1 }
        (.ok, (s.onColl k fun _ => x).onJob i fun j => { j with result := leBytes 4 (gen * 65536 + k) ++ leBytes 4 0 })
  | 0x402 =>
    if st != .ok then (st, s)
    else (st, s.onColl k fun x =>
      let n := j.counts.getD 0 0
      { x with epoch := x.epoch + 1, sideUsed := x.sideUsed + n, live := x.live + n })
  | 0x403 =>
    if st != .ok then (st, s)
    else (st, s.onColl k fun x =>
      let n := j.counts.getD 0 0
      { x with epoch := x.epoch + 1, sideUsed := x.sideUsed + n, live := x.live - n, quarantined := x.quarantined + n })
  | 0x404 => (st, s.onJob i fun j => { j with result := countBytes (j.counts ++ List.replicate (8 - j.counts.length) 0) })
  | 0x405 | 0x406 => (st, s.when (st != .ok) fun s => s.mergeStopped k i st j.stopped.isNone)
  | _ => (st, s)

/-- DETAIL of a search job: the failing query, or the position of the offending ID (R357, R367). -/
def Job.searchDetail (j : Job) : Nat :=
  match j.ty, j.firstFail with
  | 0x404, some (p, _) => p / 2 ^ 32
  | 0x402, some _ => j.detail
  | _, _ => 0

end Sys2Proof.Machine
end

