-- ==== Sys2Proof/Machine/Completion.lean ====
section
/-! DEFINITION. How jobs and bulk operations end (R205, R208 to R211, R213): the completion record, JOB_DONE and the BULK
response, JOB_COMPLETION and TIME_LIMIT_EXPIRY. -/

namespace Sys2Proof.Machine

/-- Page of job ingress d. -/
def ingressPage (d : Nat) : Nat := corePage d 0x11

/-- Credits that a tenant holds (R205). -/
def State.creditsUsed (s : State) (t : Nat) : Nat := s.jobs.jobs.count fun _ j => j.ty != 0 && j.tenant = t

/-- The record of Table 7-4. -/
def Job.record (j : Job) (st : Status) (written : Bool) (done len detail : Nat) : List Byte :=
  leBytes 2 j.ty ++ leBytes 1 st.code ++ leBytes 1 (b2n written) ++ leBytes 4 j.user ++ leBytes 8 j.tAdmit ++ leBytes 8 done ++
    leBytes 4 len ++ leBytes 4 detail

/-- The message that carries a completion (R209): the BULK response, or a JOB_DONE with ADDR = TARGET. -/
def Job.doneFrame (j : Job) (st : Status) (body : List Byte) : Frame :=
  if j.isBulk then respFrame j.f st body
  else { ty := 0x06, opId := j.f.opId, addr := BitVec.ofNat 64 j.target, len := BitVec.ofNat 16 body.length,
         status := BitVec.ofNat 8 st.code, payload := body }

/-- DETAIL of a job that a reset of the device stops: of a matrix job the lowest unit not written (R249). -/
def Job.resetDetail (j : Job) : Nat := if j.ty = 0x100 || j.ty = 0x101 then j.lowest.getD j.unwritten else 0

/-- A completion is sent, or discarded when the agent has died: the credit and the entries are returned (R205, R220). A requested
reset answers so too, and what the job would have changed then is not changed. -/
def State.sendJobDone (s : State) (i : Nat) (j : Job) (st : Status) (body : List Byte) : State :=
  let s := s.onJobs fun x => { x with jobs := x.jobs.del i }
  (s.bump64 (Reg.jiJobsDone (ingressPage j.die))).answer j.conn j.f (j.doneFrame st body)

/-- Refuse a JOB or BULK at its admission: nothing is executed (R206). The manual gives TIME_ADMIT as the TIME of a step
that has not been reached: a free value. -/
def State.refuseJob (s : State) (j : Job) (st : Status) : State :=
  let (v, s) := s.draw
  let j := { j with tAdmit := v }
  s.answer j.conn j.f (j.doneFrame st (j.record st false s.now 0 0))

/-- The job of a descriptor. -/
def jobOf (conn : Nat) (f : Frame) (isBulk : Bool) : Job :=
  let b := f.payload
  { conn := conn, f := f, ty := leField b 0 2, tenant := leField b 2 2 % 4096, flags := leField b 4 4, target := leField b 8 8,
    seed := leField b 20 4, limit := leField b 24 4, user := leField b 28 4, body := b, tAdmit := 0, die := 0,
    weight := leField b 16 2, isBulk := isBulk, phase := .ingress }

/-- Refuse a request that waits at admission: a JOB or a BULK with its record, any other with a bare response (R208, R209). -/
def State.refuseWaiting (s : State) (w : Waiting) (st : Status) : State :=
  if w.f.ty = 0x04 || w.f.ty = 0x05 then s.refuseJob (jobOf w.conn w.f (w.f.ty = 0x04)) st else s.respond w.conn w.f st

/-! ### The result of a job -/

/-- The status that the work of a job has come to (R211, R213, R249, R309, R332, R367). -/
def Job.workStatus (j : Job) : Status :=
  match j.stopped, j.firstFail with
  | some st, _ => st
  | none, some (_, st) => st
  | none, none => .ok

/-- The result of a job (R213, R278, R304, R311 and the bodies kept in its result field). -/
def State.jobResult (s : State) (j : Job) : List Byte :=
  if j.stopped.isSome && j.ty != 0x311 && !(1 ≤ j.ty && j.ty ≤ 3) then []
  else match j.ty with
    | 1 | 2 => leBytes 8 j.written
    | 3 => leBytes 8 (j.counts.getD 0 (2 ^ 64 - 1))
    | 0x11 => leBytes 4 (j.counts.getD 0 0) ++ leBytes 4 (j.counts.getD 1 0)
    | 0x203 =>
      match s.sessionOf j with
      | .ok x => j.attendResult x
      | .error _ => []
    | 0x204 | 0x205 => countBytes j.counts
    | _ => j.result

/-- DETAIL of a job (R213, R249, R278, R303, R308, R309, R331, R357, R367). -/
def State.jobDetail (s : State) (j : Job) : Nat :=
  if j.ty = 0x100 || j.ty = 0x101 then j.matDetail
  else if j.stopped.isSome then 0
  else
    let place (f : Nat → Nat) : Nat := j.firstFail.elim 0 fun e => min (f e.1) 0xFFFFFFFF
    match j.ty with
    | 1 | 2 | 3 | 4 => place (· / 64)
    | 0x11 => place fun p => j.u 40 4 + p / 2 ^ 32
    | 0x202 => s.appendDetail j
    | 0x203 => if j.firstFail.isSome then place (· / 2 ^ 32) else min (j.counts.getD 0 0) 0xFFFFFFFF
    | 0x310 | 0x311 => j.embDetail
    | 0x402 | 0x404 => j.searchDetail
    | _ => 0

/-- The counts that rise when a job of a kind completes (Tables 7-9 and 10-9), and LENGTH after an append (R303). -/
def State.jobCounts (s : State) (j : Job) (st : Status) : State :=
  let be (r : Nat → Nat) : State := if j.engine < 16 then s else s.bump (r (bulkEnginePage (j.engine - 16)))
  match j.ty with
  | 1 => be Reg.beFills
  | 2 => be Reg.beCopies
  | 3 => be Reg.beCompares
  | 4 => be Reg.beReduces
  | 0x200 => s.when (st = .ok) fun s => s.bump Reg.saOpens
  | 0x201 => s.when (st = .ok) fun s => s.bump Reg.saCloses
  | 0x202 =>
    (s.bump Reg.saAppends).when (st = .ok) fun s => s.onSession (j.sid % 65536) fun x => { x with length := j.newLength x }
  | 0x203 => s.bump Reg.saAttends
  | 0x204 => s.bump Reg.saWakes
  | 0x205 => s.bump Reg.saSleeps
  | _ => s

/-- A job's work is over: its status, its result and its DETAIL; a search job's effect is complete before its JOB_DONE (R357). -/
def State.jobForm (s : State) (i : Nat) (j : Job) : Status × List Byte × Nat × State :=
  let st := j.workStatus
  if j.phase = .ingress then (st, [], 0, s)
  else
    let (st, s) := if 0x400 ≤ j.ty then s.searchEnd i j st else (st, s)
    let j := (s.job? i).getD j
    (st, if 0x400 ≤ j.ty && st = .busy then [] else s.jobResult j, s.jobDetail j, s)

/-- The completion of a job that has been at work is sent with its last status: its counts, LENGTH after an append, the version
that it was bound to (R303, R315, R321). -/
def State.jobEnds (s : State) (i : Nat) (j : Job) (st : Status) (body : List Byte) : State :=
  let s := s.when (j.phase != .ingress) fun s =>
    ((s.jobCounts j st).when (0x310 ≤ j.ty && j.ty ≤ 0x311) fun s => s.embEnd j st).embRelease i j
  s.sendJobDone i j st body

/-! ### Completion (R209, R210) -/

/-- The write at TARGET: the record and the result, under the job's tenant (R210). -/
def targetUnit (c : Ctx) : Eng Unit := do
  let j ← c.theJob
  c.prepare [{ va := j.target, len := j.result.length, access := .write }]
  let _ ← c.save j.target j.result 0 0

/-- The engine through whose TLB a job writes its result. -/
def Job.doneEngine (j : Job) : Nat := if j.ty < 0x200 && j.ty != 0x11 && j.ty != 0x10 then j.bind.headD 0 else j.engine

/-- The result of a job whose completion has been formed is written, and the completion is sent once no access is under
way. -/
def State.jobFinish (s : State) (i : Nat) : State :=
  match s.job? i with
  | none => s
  | some j =>
    if j.phase != .done || s.jobBusy i then s
    else match j.stopped, j.firstFail with
      | some st, _ | none, some (_, st) =>
        s.jobEnds i j st (j.record st false j.doneAt 0 j.detail)
      | none, none =>
        if j.finished = 0 then s
        else s.jobEnds i j j.status (j.record j.status true j.doneAt 0 j.detail)

/-- Run the write of a formed completion, unless it waits. -/
def State.targetRun (s : State) (i : Nat) : State :=
  match s.job? i with
  | none => s
  | some j =>
    if j.phase = .done && j.stopped.isNone && j.finished = 0 && j.blocked.all fun b => b.misses.isEmpty then
      let c : Ctx := { job := i, unit := 0, engine := j.engine }
      (s.runUnit c 0 (targetUnit c)).jobFinish i
    else s.jobFinish i

/-- JOB_COMPLETION: the completion of a job that has done its work is formed, and sent or written (R209, R210). -/
def jobCompletionOp (i : Nat) (s : State) : State :=
  if !s.jobReady i then s
  else match s.job? i with
    | none => s
    | some j =>
      if j.ty = 0 then s
      else
        let (st, result, detail, s) := s.jobForm i j
        let j := (s.job? i).getD j
        if bit j.flags 1 && !j.isBulk && j.phase != .ingress then
          let body := j.record st true s.now result.length detail ++ result
          let s := s.onJob i fun j =>
            { j with phase := .done, status := st, stopped := none, fails := [], blocked := [], bad := [], staging := [],
                     held := [], kept := [], faultAt := [], finished := 0, todo := [], engine := j.doneEngine, doneAt := s.now, detail := detail,
                     result := body }
          s.targetRun i
        else s.jobEnds i j st (j.record st false s.now result.length detail ++ result)

/-- TIME_LIMIT_EXPIRY: the job stops, and completes TIMEOUT once the accesses already issued have completed (R211); the write
of its result is one of them. -/
def timeLimitExpiryOp (i : Nat) (s : State) : State :=
  match s.job? i with
  | none => s
  | some j =>
    if j.ty != 0 && j.limit != 0 && j.phase != .ingress && s.since j.admitted (j.limit * 1000) then
      s.stopJob i .timeout
    else s

end Sys2Proof.Machine
end

