-- ==== Sys2Proof/Machine/Admission.lean ====
section
/-! DEFINITION. How a JOB or BULK is admitted (R202 to R207, R210, R224): the descriptor, the checks of Table 7-3, the
translation of its first line, and the start of its work. -/

namespace Sys2Proof.Machine

/-! ### The descriptor (Tables 7-1 and 7-2) -/

/-- Job types of BULK and of JOB that are assigned (R204). -/
def bulkType (ty : Nat) : Bool := 1 ≤ ty && ty ≤ 4
def jobTypes : List Nat :=
  [0x10, 0x11, 0x100, 0x101, 0x200, 0x201, 0x202, 0x203, 0x204, 0x205, 0x300, 0x301, 0x302, 0x310, 0x311, 0x400, 0x401, 0x402,
   0x403, 0x404, 0x405, 0x406]

/-- The descriptor's addresses that a job uses, TARGET included (R177); those of table, collection and session regions are
checked with their regions. -/
def Job.addresses (j : Job) : List Nat :=
  let at_ (l : List Nat) : List Nat := l.map fun o => j.u o 8
  let opt (o : Nat) : List Nat := if j.u o 8 = 0 then [] else [j.u o 8]
  j.target :: (match j.ty with
    | 1 | 0x10 | 0x11 | 0x200 => at_ [32]
    | 2 | 3 | 4 | 0x101 => at_ [32, 40]
    | 0x100 => at_ (if bit (j.u 96 4) 2 then [32, 40, 48, 56] else [32, 40, 56])
    | 0x202 => at_ [48]
    | 0x203 =>
      (if bit (j.u 43 1) 0 then [] else at_ [64]) ++ (if j.u 72 8 = 0 then [] else at_ [72, 80]) ++
        (if bit (j.u 41 1) 2 then at_ [88] else [])
    | 0x310 | 0x311 => at_ [40, 48] ++ (if 2 ≤ j.u 88 1 then at_ [56] else []) ++ at_ [64] ++ opt 72
    | 0x402 => at_ [40, 48]
    | 0x403 => at_ [40]
    | 0x404 => at_ [48, 56] ++ opt 64
    | _ => [])

/-- Step 2 of Table 7-3, with R177. -/
def Job.headOk (j : Job) : Bool :=
  let n := j.f.len.toNat
  j.body.length = n && 32 ≤ n && n ≤ 4096 && leField j.body 18 2 = n && leField j.body 2 2 < 4096 && j.flags < 8 &&
    (!j.isBulk || j.target = 0) && (if j.isBulk then bulkType j.ty else jobTypes.contains j.ty) &&
    j.addresses.all (· < 2 ^ 57)

/-! ### The units that a type needs (R4, R44, R55) -/

/-- The kinds of unit that a job needs, each by its pages. -/
def Job.kinds (j : Job) : List (List Nat) :=
  let halves (low : Nat) : List Nat := [corePage 0 low, corePage 1 low]
  let expanders := (List.range 8).map expanderPage
  match j.ty with
  | 1 | 2 | 3 | 4 => [halves 0x78]
  | 0x10 => [halves 0x12]
  | 0x11 => [halves 0x13]
  | 0x100 => if j.needsExpander then [arrayPages, expanders] else [arrayPages]
  | 0x101 => [arrayPages]
  | 0x203 => [halves 0x60, arrayPages]
  | 0x404 => [halves 0x70, arrayPages]
  | 0x300 | 0x301 | 0x302 | 0x310 | 0x311 => [(List.range 4).map gatherPage]
  | ty => if ty < 0x300 then [halves 0x60] else [halves 0x70]

/-- Step 4: a unit of every kind is present. -/
def State.kindsPresent (s : State) (j : Job) : Bool := j.kinds.all fun l => l.any s.present

/-- Some unit of every kind takes work (R55); a MATMUL with a compressed A needs an array whose expander does too. A member that drains
takes none (log entry 70). -/
def State.kindsServe (s : State) (j : Job) : Bool :=
  j.kinds.all (fun l => l.any s.serves) &&
    (match j.ty with
      | 0x100 => (List.range 8).any fun a => s.arrayServes a j.needsExpander
      | 0x203 => (List.range 8).any fun a => s.pieceArray a j
      | 0x404 => (List.range 8).any fun a => s.serves (arrayPage a) && s.serves (corePage (a / 4) 0x70)
      | 0x10 => s.serves (tmPage j.die)
      | 0x11 => s.serves (codecPage j.die)
      | _ => true)

/-! ### The first line (R207, R248, R297, R324, R362) -/

/-- The first line of a job: its address, the access that the job makes of it, and whether it may name a peer; none where
the type makes no translation at ingress. -/
def Job.firstLine (j : Job) : Option (Nat × Access × Bool) :=
  match j.ty with
  | 1 => some (j.u 32 8, .write, false)
  | 2 => some (j.u 40 8, .write, true)
  | 3 => some (j.u 32 8, .read, false)
  | 4 => some (j.u 40 8, .write, false)
  | 0x10 | 0x11 => some (j.u 32 8, .read, false)
  | 0x100 => some (j.u 56 8, .write, false)
  | 0x101 => some (j.u 40 8, .write, false)
  | 0x310 | 0x311 => some (j.u 40 8, .read, false)
  | 0x404 => some (j.u 48 8, .read, false)
  | _ => none

/-- The die of a job that is not translated at ingress. -/
def Job.plainDie (j : Job) : Nat :=
  match j.ty with
  | 0x200 | 0x300 | 0x301 | 0x302 | 0x400 => 0
  | _ => j.u 32 4 % 2

/-! ### Steps 6 to 8 -/

/-- Job-queue entries of a die (R207). -/
def State.queueCap (s : State) : Nat := 8192 * (s.boot.carve.getD 1 2 - 1)

def State.queueUsed (s : State) (d : Nat) : Nat := s.jobs.jobs.count fun _ j => j.pooled && j.die = d

/-- The field checks of TIER_POLICY and RECODE (R123, R278). -/
def Job.tierOk (j : Job) : Bool :=
  if j.ty = 0x10 then
    45 ≤ j.body.length && (j.body.drop 45).all (· == 0#8) && 1 ≤ j.u 40 4 && j.u 40 4 ≤ 16384 && j.u 44 1 ≤ 3
  else j.f.len = 48 && 1 ≤ j.u 44 4 && j.u 44 4 ≤ 16777216

/-- Step 8: the field checks of the owning chapter. -/
def State.descOk (s : State) (j : Job) : Bool :=
  if j.ty ≤ 4 then j.bulkOk
  else if j.ty < 0x100 then j.tierOk
  else if j.ty = 0x100 then j.matOk
  else if j.ty = 0x101 then j.convOk
  else if j.ty < 0x300 then s.sessionOk j
  else if j.ty < 0x310 then (if j.ty = 0x302 then j.f.len = 40 && j.u 36 4 = 0 else s.tableOk j)
  else if j.ty < 0x400 then s.embOk j
  else s.searchOk j

/-- The bulk engine of a bulk operation: that of its die, or the other (R224). -/
def State.bulkEngine (s : State) (d : Nat) : Option Nat :=
  if s.serves (bulkEnginePage d) then some d else if s.serves (bulkEnginePage (1 - d)) then some (1 - d) else none

/-- Set out the work of an admitted job. -/
def State.jobBegin (s : State) (i : Nat) : State :=
  match s.job? i with
  | none => s
  | some j =>
    let run (units engine : Nat) : State := s.onJob i fun j => { j with phase := .running, units := units, engine := engine }
    if j.ty ≤ 4 then
      let d := (s.bulkEngine j.die).getD j.die
      (run j.bulkUnits (16 + d)).when (d != j.die) fun s => s.bump (Reg.beTakenOver (bulkEnginePage d))
    else if j.ty = 0x10 then run 1 (18 + j.die)
    else if j.ty = 0x11 then run (j.u 44 4) (18 + j.die)
    else if j.ty < 0x200 then run j.matUnits 0
    else if j.ty < 0x300 then s.sessionGo i
    else if j.ty < 0x400 then s.embBegin i j
    else s.searchGo i

/-- Drop a job that admission refuses. -/
def State.dropJob (s : State) (i : Nat) (j : Job) (st : Status) : State :=
  (s.onJobs fun x => { x with jobs := x.jobs.del i }).refuseJob j st

/-- A job that others have overtaken in ingress takes a new number, so that numbers follow the order of admission. -/
def State.renumber (s : State) (i : Nat) : Nat × State :=
  let n := s.jobs.nextJob
  match s.job? i with
  | none => (i, s)
  | some j => if i + 1 = n then (i, s) else (n, s.onJobs fun x => { x with jobs := (x.jobs.del i).put n j, nextJob := n + 1 })

/-- Steps 6 to 8 of Table 7-3 on a die, and the admission (R206, R221, R224). -/
def State.enterQueue (s : State) (i d : Nat) : State :=
  match s.job? i with
  | none => s
  | some j =>
    let pg := ingressPage d
    let j := { j with die := d }
    if s.stopping pg || s.ctl.resetting.contains pg then s.dropJob i j .busy
    else if s.queueCap ≤ s.queueUsed d then (s.bump (Reg.jiRefusedQueue pg)).dropJob i j .busy
    else match s.poolRefuses d j.tenant with
      | (true, s) => s.dropJob i j .busy
      | (false, s) =>
        if !s.descOk j then (s.bump (Reg.jiRefusedDesc pg)).dropJob i j .unsupported
        else if !s.kindsServe j then s.dropJob i j .busy
        else
          let (i, s) := s.renumber i
          let (tag, s) := s.stampTag j.tenant j.f.len.toNat (s.weightOf j.tenant j.weight)
          let s := s.onJob i fun x =>
            { x with die := d, phase := .waiting, tag := tag, tAdmit := s.now, admitted := s.ran, blocked := [], held := [], kept := [] }
          ((s.bump64 (Reg.jiJobsAdmitted pg)).notePool d).jobBegin i

/-- Translate the first line of a job in ingress, and admit it; it waits where the translation misses (R207). -/
def State.ingressRun (s : State) (i : Nat) : State :=
  match s.job? i with
  | none => s
  | some j =>
    if j.phase != .ingress || j.stopped.isSome || j.blocked.any (fun b => !b.misses.isEmpty) then s
    else match j.firstLine with
      | none => s.enterQueue i j.plainDie
      | some (va, access, peer) =>
        let c : Ctx := { job := i, unit := 0, engine := 20 }
        match (c.xlat va access 0 peer).run s with
        | (.ok pa, s) => s.enterQueue i (homeDie (offOf pa))
        | (.error (.fail st), s) => if st = .faulted then s else s.dropJob i j st
        | (.error (.wait m), s) =>
          s.onJob i fun j =>
            let b : Blocked := { unit := 0, engine := 20, misses := m }
            { j with blocked := [b] }

/-- Take a JOB or BULK of a connection (Table 7-3). -/
def State.takeJob (s : State) (c : Nat) (f : Frame) (isBulk : Bool) : State :=
  match s.conn? c with
  | none => s
  | some k =>
    let j := jobOf c f isBulk
    if s.boot.service != .full then s.refuseJob j .held
    else if !j.headOk then s.refuseJob j .unsupported
    else if k.tenant != 0 && j.tenant != k.tenant then s.refuseJob j .denied
    else if !s.kindsPresent j then s.refuseJob j .unsupported
    else if (s.tenantJobs j.tenant).credits ≤ s.creditsUsed j.tenant then
      ((s.bump (Reg.jiRefusedCredit (ingressPage 0))).raiseQuiet 322).refuseJob j .busy
    else
      let i := s.jobs.nextJob
      (s.onJobs fun x => { x with jobs := x.jobs.put i j, nextJob := i + 1 }).ingressRun i

end Sys2Proof.Machine
end

