-- ==== Sys2Proof/Machine/Drills.lean ====
section
/-! DEFINITION. The drill unit (R454 to R458): arming, the checks of a FIRE, the effects of Table 15-7 and their ends. -/

namespace Sys2Proof.Machine

/-- Whether a drill is armed now: within 100 ms of its ARM (R454). -/
def State.drillArmed (s : State) : Bool := s.drill.key != 0 && !s.since s.drill.armedAt 100000000

/-- The armed state lapses. -/
def State.drillLapse (s : State) : State :=
  s.onDrill fun d => { d with key := 0, st := if d.st = .armed then .idle else d.st }

/-- DRILL_ARM: a key of 0 arms nothing. -/
def drillArmOp (key : BitVec 16) (s : State) : State :=
  if key = 0 then s
  else s.onDrill fun d => { d with key := key.toNat, armedAt := s.ran, st := if d.st = .active then .active else .armed }

/-- DRILL_ARM_LAPSE: 100 ms have passed since the ARM. -/
def drillArmLapseOp (s : State) : State := if s.drillArmed then s else s.drillLapse

/-! ### The staged drill (Tables 15-7, 15-10) -/

def State.drillPage (s : State) : Nat := s.reg Reg.drDrillTarget % 2 ^ 20

/-- The lines of a SYM drill: COUNT of them from the one at ADDR on. -/
def State.drillLines (s : State) : List Nat :=
  (List.range (bits (s.reg Reg.drDrillCount) 10 0)).map (s.reg Reg.drDrillAddr / 64 + ·)

/-- Whether the unit type and the parameters of the staged drill are those of Table 15-7. -/
def State.drillFits (s : State) : Bool :=
  let kind := bits (s.reg Reg.drDrillKind) 3 0
  let page := s.drillPage
  let param := s.reg Reg.drDrillParam
  let dur := bits (s.reg Reg.drDrillDuration) 13 0
  let durOk := decide (1 ≤ dur ∧ dur ≤ 10000)
  match (unitOf page).map UnitRef.ty, kind with
  | some .nearChannel, 1 | some .nearChannel, 2 | some .bulkChannel, 1 | some .bulkChannel, 2 =>
    let a := s.reg Reg.drDrillAddr
    let n := bits (s.reg Reg.drDrillCount) 10 0
    let syms := bits param 3 0
    decide (1 ≤ n ∧ n ≤ 1024 ∧ 1 ≤ syms ∧ syms ≤ codeLimit page) && decide (a % 64 = 0 ∧ a < 2 ^ 48) && s.placed a &&
      extentOf a = extentOf (a + 64 * n - 1) && (s.channelsOf a).contains page
  | some .port, 3 | some .port, 4 => durOk
  | some .port, 5 => durOk && bits param 31 16 != 1
  | some .lockGroup, 5 => durOk && bits param 31 16 != 1 && !s.lgUnused page
  | some .group, 6 =>
    let a := s.reg Reg.drDrillAddr
    page = 3 && (s.agentConns (bits a 31 20) (bits a 19 7)).any fun e => e.2.st = .openC
  | some .twin, 7 => decide (1 ≤ dur ∧ dur ≤ 1000)
  | _, _ => false

/-- The outcome of a FIRE, its checks in the order of R454. -/
def State.drillCheck (s : State) (key : Nat) : Status :=
  let kind := bits (s.reg Reg.drDrillKind) 3 0
  let page := s.drillPage
  let commandPort := (kind = 3 || kind = 4 || kind = 5) && (page = 0x2000 || page = 0x2001)
  if !s.drillArmed || key != s.drill.key || (kind = 2 && s.drillLines.any fun l => !(s.lineExtent l).drillOk) then .denied
  else if s.boot.service != .full then .held
  else if s.drill.st = .active || !s.serves 0xA || (s.drill.lastFire.any fun t => !s.since t (bits (s.reg Reg.drDrillGap) 9 0 * 1000000)) || (commandPort && !(s.portSt (0x2001 - page)).up) then .busy
  else if !s.present page || !bit (s.unitCap page) 3 || !s.drillFits then .unsupported
  else .ok

/-! ### Effects and ends -/

/-- Lines outside extents with DRILL_OK that an agent holds M or O. -/
def State.dirtyOf (s : State) (agent : Nat) : List Nat :=
  (s.coh.dir.filter fun e => (e.2.st = .m || e.2.st = .o) && e.2.owner = agent && !(s.lineExtent e.1).drillOk).map (·.1)

/-- Lines outside those extents whose open transaction awaits the agent, or is the agent's own. -/
def State.involves (s : State) (agent : Nat) : List Nat :=
  (s.coh.dir.filter fun e => !(s.lineExtent e.1).drillOk && (match e.2.txn with
    | some t => s.reqAgent t.req = some agent || t.msgs.any fun m => m.target = agent && !m.answered
    | none => false)).map (·.1)

/-- Go on with an AGENT_DEATH drill (R457): lines still dirty are recalled; once none is, the agent is declared dead. -/
def State.drillProgress (s : State) : State :=
  let d := s.drill
  if d.st = .active && d.kind = 6 && !d.declared then
    match (s.agentConns (bits d.arg 31 20) (bits d.arg 19 7)).find? (·.2.st = .openC) with
    | none => s.onDrill fun d => { d with declared := true }
    | some (c, k) =>
      let dirty := s.dirtyOf k.agent
      if dirty.isEmpty && (s.involves k.agent).isEmpty then
        (s.onDrill fun d => { d with declared := true }).declareDead c Reg.pgDeadKilled false true
      else
        let new := dirty.filter fun l =>
          let e := s.entry l
          !(e.queue.any (·.kind = .recall)) && (match e.txn with
            | some t => t.req.kind != .recall
            | none => true)
        s.recallLines .recall fun l _ => new.contains l
  else s

/-- A recall of the drill has been left unanswered for 1 ms (R457). -/
def State.drillTimedOut (s : State) : Bool :=
  let agent := bits s.drill.arg 19 7
  let late (r : LineReq) : Bool := r.kind = .recall && s.since r.at_ 1000000
  !s.drill.declared && s.coh.dir.any fun e =>
    !(s.lineExtent e.1).drillOk && (e.2.queue.any late || (match e.2.txn with
      | some t => late t.req && t.msgs.any fun m => m.target = agent && !m.answered
      | none => false))

/-- The effect of the drill stops, and its end is recorded with its RESULT (R454, R455). -/
def State.drillEnds (s : State) (st : Status) : State :=
  let d := s.drill
  if d.st != .active then s
  else
    let p := d.page - 0x2000
    let s := s.onDrill fun d => { d with st := if d.key = 0 then .idle else .armed, result := st.code, lines := [] }
    let s := match d.kind with
      | 1 => s.onStore fun t => { t with flawed := t.flawed.filter fun e => !d.lines.contains e.1 || 255 ≤ e.2.syms }
      | 3 =>
        let s := s.onPort p fun q =>
          { q with lanesGood := if 4 ≤ d.arg then q.lanesGood ||| BitVec.twoPow 4 (d.arg % 4) else q.lanesGood }
        let q := s.portSt p
        if q.up && s.trainRate p != some (q.rate, q.lanes) then s.retrain p false else s
      | _ => s
    s.raise 593 { status := st.code, arg0 := d.kind }

/-- A FIRE that passed its checks: the effect starts (Table 15-7). -/
def State.drillStart (s : State) : State :=
  let kind := bits (s.reg Reg.drDrillKind) 3 0
  let page := s.drillPage
  let target := s.reg Reg.drDrillTarget
  let param := s.reg Reg.drDrillParam
  let p := page - 0x2000
  let lane := bits target 25 24
  let oneIn := if bits param 31 16 = 0 then 65536 else bits param 31 16
  let good := (s.portSt p).lanesGood.getLsbD lane
  let arg := match kind with
    | 3 => lane + 4 * b2n good
    | 5 => oneIn * 2 + bits target 28 28
    | 6 => s.reg Reg.drDrillAddr % 2 ^ 32
    | _ => 0
  let lines := if kind = 1 || kind = 2 then s.drillLines.filter fun l => (s.channelOf (s.mediumOf (l * 64))).isSome else []
  let s := s.onDrill fun d =>
    { d with st := .active, key := 0, lastFire := some s.ran, result := 0, kind := kind, page := page, arg := arg,
             lines := lines, endAt := s.ran + bits (s.reg Reg.drDrillDuration) 13 0 * 1000000,
             frames := 0, declared := false }
  let s := (s.bump Reg.drDrillsFired).raise 592 { status := Status.ok.code, arg0 := kind }
  let syms := if kind = 1 then bits param 3 0 else 255
  match kind with
  | 1 => s.onStore fun st =>
      { st with flawed := lines.foldl (fun t l => t.put l { syms := max syms (t.getD l { syms := 0 }).syms }) st.flawed }
  | 2 =>
    let s := s.onStore fun st =>
      { st with flawed := lines.foldl (fun t l => t.put l { syms := syms }) st.flawed,
                corrected := st.corrected.filter fun l => !lines.contains l }
    s.drillEnds .ok
  | 3 => execLaneFaultCore p ((s.portSt p).lanesGood &&& ~~~ BitVec.twoPow 4 lane) s
  | 4 => s.declareDown p
  | 6 => s.drillProgress
  | _ => s

/-- DRILL_FIRE: the checks, and the effect or the refusal (R454). -/
def drillFireOp (key : BitVec 16) (s : State) : State :=
  let st := s.drillCheck key.toNat
  if st = .ok then s.drillStart
  else
    let other := key.toNat != s.drill.key
    let s := s.when other State.drillLapse
    let s := s.onDrill fun d => { d with result := st.code }
    (s.bump Reg.drDrillRefused).raise 594 { status := st.code, arg0 := bits (s.reg Reg.drDrillKind) 3 0 }

/-- DRILL_STOP ends an active effect at once. -/
def drillStopOp (s : State) : State := s.drillEnds .ok

/-- DRILL_END: the natural end of the effect (Table 15-7, R457). -/
def drillEndOp (s : State) : State :=
  let d := s.drill
  if d.st != .active then s
  else match d.kind with
    | 1 => if d.lines.all fun l => (s.store.flawed.get? l).isNone || s.store.corrected.contains l then s.drillEnds .ok else s
    | 6 =>
      if s.drillTimedOut then s.drillEnds .timeout
      else if d.declared && (s.coh.reclaims.get? (bits d.arg 19 7)).isNone then s.drillEnds .ok
      else s
    | _ => if d.endAt ≤ s.ran then s.drillEnds .ok else s

/-! ### Rows -/

/-- DRILL_ARM (R454). -/
def execDrillArm (key : BitVec 16) (s : State) : Answer := act s (drillArmOp key)

/-- DRILL_ARM_LAPSE (R454). -/
def execDrillArmLapse (s : State) : Answer := act s drillArmLapseOp

/-- DRILL_FIRE (R454). -/
def execDrillFire (key : BitVec 16) (s : State) : Answer := act s (drillFireOp key)

/-- DRILL_STOP (R454). -/
def execDrillStop (s : State) : Answer := act s drillStopOp

/-- DRILL_END (R455). -/
def execDrillEnd (s : State) : Answer := act s drillEndOp

end Sys2Proof.Machine
end

