-- ==== Sys2Proof/Machine/Twin.lean ====
section
/-! DEFINITION. Duotone pairs (13_duotone.md): the twin connection, mirrored operations, handover and orphans, leases,
takeover, resynchronisation, and extent commands that act on both devices. -/

namespace Sys2Proof.Machine

/-! ### The twin connection (R377 to R380) -/

/-- TWIN_CTRL.EN and SIDE. -/
def State.paired (s : State) : Bool := bit (s.reg Reg.twTwinCtrl) 0
def State.side (s : State) : Nat := b2n (bit (s.reg Reg.twTwinCtrl) 1)

/-- The ports that carry the twin connection. -/
def State.twinPorts (s : State) : List Nat := (List.range 40).filter fun p => 34 ≤ p && bit (s.reg Reg.twTwinCtrl) (8 + (p - 34))

/-- The path of a twin port: its own, or that of the lowest member of its lock group (R379). -/
def State.twinPathOf (s : State) (p : Nat) : Nat :=
  match s.groupOf p with
  | some g => (s.lgMembers g).headD p - 34
  | none => p - 34

/-- The paths of the twin connection, with the port or lowest member that carries each. -/
def State.twinPaths (s : State) : List (Nat × Nat) :=
  s.twinPorts.filterMap fun p => if s.twinPathOf p = p - 34 then some (p - 34, p) else none

/-- PARTNER_IP. -/
def State.partnerIp (s : State) : BitVec 128 := s.ip Reg.twPartnerIp

def State.onLease (s : State) (e : Nat) (f : Lease → Lease) : State :=
  s.onTwin fun t => { t with leases := t.leases.update e f }

def State.lease (s : State) (e : Nat) : Lease := s.twin.leases.getD e { }

/-- The lease entries that stand for leases this device holds (LEASES_HELD). -/
def Lease.held (x : Lease) : Bool := x.st = .hold || x.st = .giving || x.st = .solo

/-- The code of a lease state (R403). -/
def LeaseSt.code : LeaseSt → Nat
  | .none => 1
  | .hold => 2
  | .shadow => 3
  | .giving => 4
  | .lost => 5
  | .solo => 6
  | .fenced => 7
  | .conflict => 8

/-- A digest: the CRC-32C over records of EXTENT and GEN, in ascending order (R393). -/
def leaseDigest (l : List (Nat × Lease)) : Nat := crc32c (l.flatMap fun (e, x) => beBytes 4 e ++ beBytes 4 x.gen)

/-- The leases that this device holds, and those that it knows its partner to hold. -/
def State.heldLeases (s : State) : List (Nat × Lease) := s.twin.leases.filter fun e => e.2.held
def State.partnerLeases (s : State) : List (Nat × Lease) :=
  s.twin.leases.filter fun e => e.2.st != .none && !e.2.held && e.2.holder = 1 - s.side

/-- Whether some path of the twin connection is live. -/
def State.twinOpen (s : State) : Bool := (s.conn? twinConn).any fun k => k.paths.any fun q => q.2.live

/-- TWIN_STAT.PAIR. -/
def State.pairState (s : State) : Nat :=
  let any (st : LeaseSt) : Bool := s.twin.leases.any fun e => e.2.st = st
  if !s.paired then 0
  else if any .conflict then 6
  else if any .lost then 3
  else if s.twin.resync.any fun r => !r.suspended then 5
  else if any .solo then 4
  else if any .fenced then 7
  else if s.twinOpen then 2
  else 1

/-- A TWIN frame (Table 13-1). -/
def twinFrame (kind extent gen phase aux : Nat) (key : TwinKey) (status : Nat) (payload : List Byte) : Frame :=
  { ty := 0x60, hlen := 13, tenant := key.tenant, agent := key.agent, opId := key.opId, addr := key.addr,
    len := BitVec.ofNat 16 payload.length, status := BitVec.ofNat 8 status, payload := payload,
    ext := [BitVec.ofNat 32 (0x02040000 + kind), BitVec.ofNat 32 extent, BitVec.ofNat 32 gen,
            BitVec.ofNat 32 (phase * 2 ^ 24 + aux % 2 ^ 24)] }

/-- No key: the frame is about no operation. -/
def noKey : TwinKey := { tenant := 0, agent := 0, opId := 0 }

/-- The key that a TWIN frame carries. -/
def frameKey (f : Frame) : TwinKey := { tenant := f.tenant, agent := f.agent, opId := f.opId, addr := f.addr }

def State.sendTwin (s : State) (f : Frame) : State := s.sendSeq twinConn f

/-- The twin connection with fresh SEQ spaces and no live path (R378). -/
def State.twinFresh (s : State) : State :=
  if s.paired then
    let path (p : Nat) : PathSt :=
      { aip := s.partnerIp, aport := s.udpPort, dip := (s.groupOf p).elim (s.portIp p) s.lgIp, port := p,
        cwnd := bits (s.reg Reg.pgJmtCtrl) 7 0 * 4096, lastAcked := s.ran, roundAt := s.ran }
    let k : Conn := { tenant := 4096, agent := 8192, st := .openC, granted := 8,
                      paths := s.twinPaths.map fun (n, p) => (n, path p), lastHeard := s.ran, lastKeep := s.ran }
    s.onNet fun n => { n with conns := n.conns.put twinConn k }
  else s.onNet fun n => { n with conns := n.conns.del twinConn }

/-- The 28 bytes under a token (R378). -/
def tokenBytes (dev side incarn time nonce echo : Nat) : List Byte :=
  beBytes 2 dev ++ beBytes 1 side ++ beBytes 1 incarn ++ beBytes 8 time ++ beBytes 8 nonce ++ beBytes 8 echo

/-- Send a PAIR_HELLO on a path with a fresh NONCE (R378, R380, Table 13-2). -/
def State.sendPairHello (s : State) (n echo : Nat) : State :=
  match s.twin.key with
  | none => s
  | some key =>
    let (v, s) := s.draw
    let nonce := v % 2 ^ 64
    let tok := token key (tokenBytes s.device s.side s.boot.incarn.toNat s.now nonce echo)
    let body := beBytes 16 tok.toNat ++ beBytes 8 s.now ++ beBytes 8 nonce ++ beBytes 8 echo ++
      beBytes 4 (leaseDigest s.heldLeases) ++ beBytes 4 s.heldLeases.length
    let x := s.twin.paths.getD n { }
    let fresh := x.nonces.filter fun e => !s.since e.2 10000000
    let y : TwinPath := { x with nonces := (BitVec.ofNat 64 nonce, s.ran) :: fresh }
    let s := s.onTwin fun t => { t with paths := t.paths.put n y }
    s.sendUnseq twinConn n (twinFrame 0x01 0 0 0 s.pairState noKey 0 body)

/-- Open the twin connection anew (R378, R380): fresh SEQ spaces, a PAIR_HELLO with ECHO 0 on every path, the
resynchronisation suspended (R401), carried commands without their answer BUSY. -/
def State.twinReopen (s : State) : State :=
  let s := s.twinFresh
  let lost := s.twin.carried
  let running := s.twin.resync.any fun r => !r.suspended
  let s := s.onTwin fun t => { t with listed := false, listSent := false, carried := [],
                                      resync := t.resync.map fun r => { r with suspended := true } }
  let s := s.when running fun s => s.raise 11
  let s := lost.foldl (fun s c =>
    let s := s.setReg Reg.tmExtStat (Status.busy.code * 256)
    match c.wait with
    | some (k, f) => s.respond k f .ok
    | none => s) s
  s.twinPaths.foldl (fun s e => s.sendPairHello e.1 0) s

/-! ### Values and copies (R385, R386, R388) -/

/-- Write bytes to this device's copy. -/
def State.copyWrite (s : State) (a : Nat) (bs : List Byte) : State :=
  (linesOf a bs.length).foldl (fun s line =>
    let (lo, n) := partOf a bs.length line
    let s := if n = 64 && (s.entry line).st = .ash then s.leaveAsh line else s
    s.writeInLine lo ((bs.drop (lo - a)).take n)) (s.soil (extentOf a))

/-- Bytes from a on, with those of a later value in their place. -/
def overlay (a : Nat) (bs : List Byte) (b : Nat) (v : List Byte) : List Byte :=
  bs.zipIdx.map fun (x, i) => if b ≤ a + i && a + i < b + v.length then v.getD (a + i - b) 0 else x

/-- The bytes of a range as the mirrored writes ordered before have left them. -/
def State.orderedBytes (s : State) (a n : Nat) : List Byte :=
  (s.twin.holders.filter (·.phase = 1)).foldl (fun bs h => overlay a bs h.addr h.value) (s.bytes a n)

/-- Mark an extent dirty. -/
def State.markDirty (s : State) (e : Nat) : State :=
  s.onTwin fun t => { t with dirty := if t.dirty.contains e then t.dirty else t.dirty ++ [e] }

/-- What the lines of a mirrored write say: the status of the first that cannot be written. -/
def State.mirrorLines (s : State) (o : Op) (a n : Nat) : Option Status × State :=
  (linesOf a n).foldl (fun (r, s) line =>
    match r with
    | some st => (some st, s)
    | none =>
      let whole := o.f.ty = 0x02 && (partOf a n line).2 = 64
      if s.mediumFailed (line * 64) then (some .uncorrectable, s)
      else match (s.entry line).st with
        | .rhm => (some .held, s)
        | .ash => (if whole then none else some .lost, s)
        | _ =>
          if whole then (none, s)
          else
            let (ok, s) := s.readLine line
            (if ok then none else some .uncorrectable, s)) (none, s)

/-- Step 2 of Table 13-3: the new and the old value of a mirrored operation, or the status it ends with. -/
def State.mirrorFix (s : State) (o : Op) : Except Status (List Byte × List Byte) × State :=
  let a := offOf o.f.addr.toNat
  let n := o.f.len.toNat
  let (r, s) := s.mirrorLines o a n
  match r with
  | some st => (.error st, s)
  | none =>
    if o.f.ty = 0x03 then
      match s.atomicEngine a with
      | none => (.error .busy, s)
      | some d =>
        let old := s.orderedBytes a n
        let new := atomicNew (atomicOpcode o.f) n (leNat old) (atomicOperand o.f 8 n) (atomicOperand o.f (8 + n) n)
        (.ok (leBytes n new, old), s.bump (Reg.beAtomics (bulkEnginePage d)))
    else (.ok (o.f.payload, []), s)

/-! ### Ends of operations -/

/-- Data of a read, by the lines of its range. -/
def readParts (a : Nat) (bs : List Byte) : Tbl (List Byte) :=
  (linesOf a bs.length).map fun line =>
    let (lo, n) := partOf a bs.length line
    (line, List.replicate (lo - line * 64) 0 ++ (bs.drop (lo - a)).take n)

/-- The payload of a finished operation's response. -/
def Op.answer (o : Op) : List Byte :=
  if o.status != .ok then [] else if o.f.ty = 0x01 then o.bytes else if o.f.ty = 0x03 then o.got.vals.headD [] else []

/-- A mirrored operation, or a read handed over, ends with a status and the payload of its response. -/
def State.mirrorEnd (s : State) (i : Nat) (st : Status) (payload : List Byte) : State :=
  match s.op? i with
  | none => s
  | some o =>
    if st != .ok then s.endOp i st
    else
      let a := offOf o.f.addr.toNat
      let got : Tbl (List Byte) :=
        if o.f.ty = 0x01 then readParts a payload else if o.f.ty = 0x03 then [(a / 64, payload)] else []
      s.onOp i fun o => { o with left := [], finished := true, got := got }

/-- The key of an operation (R381): that of its request, and for an engine's access that of its job. -/
def State.opKey (s : State) (o : Op) : TwinKey :=
  let off := BitVec.ofNat 64 (offOf o.f.addr.toNat)
  match o.src with
  | .engine j _ =>
    match s.job? j with
    | some x => { tenant := x.f.tenant, agent := x.f.agent, opId := x.f.opId, addr := off }
    | none => { tenant := BitVec.ofNat 12 o.tenant, agent := 0, opId := 0, addr := off }
  | _ => { tenant := o.f.tenant, agent := o.f.agent, opId := o.f.opId, addr := off }

/-! ### The holder (Table 13-3, R387) -/

/-- Bytes in the mirror queue: MIRRORs not yet acknowledged. -/
def State.mirrorQueue (s : State) : Nat := (s.twin.holders.filter (·.phase = 1)).foldl (fun n h => n + h.value.length) 0

/-- Whether the mirror queue of 16 MiB has room for an operation. -/
def State.mirrorRoom (s : State) (o : Op) : Bool := s.mirrorQueue + o.f.len.toNat ≤ 2 ^ 24

/-- The answer TAKEN, for a request that the partner handed over (R389 step 3). -/
def State.sendTaken (s : State) (key : TwinKey) (e : Nat) : State :=
  s.sendTwin (twinFrame 0x11 e (s.lease e).gen 0 0 key 0 [])

/-- The answer DONE to the front. -/
def State.sendDone (s : State) (key : TwinKey) (e : Nat) (st : Status) (payload : List Byte) : State :=
  s.sendTwin (twinFrame 0x12 e (s.lease e).gen 0 0 key st.code payload)

/-- The MIRROR of an operation (step 3). -/
def State.sendMirror (s : State) (h : HolderOp) : State :=
  let body := h.value ++ h.old
  (s.bump64 Reg.twMirrorBytes body.length).sendTwin { twinFrame 0x20 h.extent (s.lease h.extent).gen 1 0 h.key 0 body with
    len := BitVec.ofNat 16 h.value.length }

/-- The chunks of a write are marked while their extent is copied (Table 13-7 step 2). -/
def State.markChunks (s : State) (a n : Nat) : State :=
  s.onTwin fun t => { t with resync := t.resync.map fun r =>
    if r.source && r.extent = extentOf a then
      let cs := (List.range ((a + n - 1) / 65536 + 1 - a / 65536)).map fun i => (a / 65536 + i) % 16384
      { r with marked := r.marked ++ cs.filter fun c => !r.marked.contains c }
    else r }

/-- Run a mirrored operation as its holder, or in SOLO on this copy alone (Table 13-3, R397 step 6). -/
def State.mirrorRun (s : State) (i : Nat) (o : Op) (solo : Bool) : State :=
  let a := offOf o.f.addr.toNat
  let key := s.opKey o
  let s := s.onOp i fun o => { o with started := true }
  let s := s.when (o.src = .twin) fun s => s.sendTaken key o.extent
  match s.mirrorFix o with
  | (.error st, s) => s.endOp i st
  | (.ok (new, old), s) =>
    let s := s.soil o.extent
    if solo then
      let s := ((s.copyWrite a new).markDirty o.extent).markChunks a new.length
      (s.bump64 Reg.twMirrorOps).mirrorEnd i .ok old
    else
      let h : HolderOp := { key := key, op := i, conn := if o.src = .agent then o.conn else 0, extent := o.extent, addr := a,
                            value := new, old := old, phase := 1, front := o.src = .twin }
      (s.onTwin fun t => { t with holders := t.holders ++ [h] }).sendMirror h

/-- Hand an operation over to the partner (R389, R390). -/
def State.handOver (s : State) (i : Nat) (o : Op) : State :=
  let key := s.opKey o
  let s := s.onOp i fun o => { o with started := true }
  let h : Handed := { key := key, op := i, extent := o.extent, f := o.f, since := s.ran, front := o.src != .twin }
  let s := (s.onTwin fun t => { t with handed := t.handed ++ [h] }).bump Reg.twHandovers
  s.sendTwin { twinFrame 0x10 o.extent (s.lease o.extent).gen 0 (o.f.ty.toNat + o.f.flags.toNat * 256) key 0 o.f.payload with
    len := o.f.len }

/-- Whether the last chunks of an extent are being copied, so that writes to it wait (Table 13-7 step 5). -/
def State.lastCopy (s : State) (e : Nat) : Bool := s.twin.resync.any fun r => r.source && r.extent = e && r.pass = 6 && !r.suspended

/-- A COMPRESS write is encoded where it is executed (R275). -/
def State.mirrorEncode (s : State) (i : Nat) (o : Op) : Op × State :=
  if o.f.ty = 0x02 && has o.f fCompress && o.ref.isNone && o.f.payload.length % 64 != 0 then
    let (f, r, s) := s.compressFrame o.f
    ({ o with f := f, ref := r }, s.onOp i fun x => { x with f := f, ref := r, left := linesOf (offOf f.addr.toNat) f.len.toNat })
  else (o, s)

/-- Whether a mirrored operation that waited at admission now begins, and so takes its pool entry (Table 13-3 step 1, R387). -/
def State.mirrorBegins (s : State) (o : Op) : Bool :=
  let read := o.f.ty = 0x01
  match (s.lease o.extent).st with
  | .shadow | .fenced => true
  | .none | .conflict => false
  | .lost | .giving => read
  | .hold => read || s.mirrorRoom o
  | .solo => read || !s.lastCopy o.extent

/-- A mirrored operation goes on, as the lease lets it (R384, R385, R387, R389, R395). -/
def State.mirrorGo (s : State) (i : Nat) : State :=
  match s.op? i with
  | none => s
  | some o =>
      let read := o.f.ty = 0x01
      let engine := o.src != .agent && o.src != .twin
      match (s.lease o.extent).st with
      | .shadow =>
        if read then (s.onOp i fun o => { o with mirrored := false }).startOp i else s.handOver i o
      | .fenced => s.handOver i o
      | .none | .conflict => s.endOp i (if engine then .busy else .held)
      | .lost => if read then (s.onOp i fun o => { o with mirrored := false }).startOp i else s.endOp i .busy
      | .giving => if read then (s.onOp i fun o => { o with mirrored := false }).startOp i else s
      | .hold =>
        if read then (s.onOp i fun o => { o with mirrored := false }).startOp i
        else if s.mirrorRoom o then
          let (o, s) := s.mirrorEncode i o
          s.mirrorRun i o false
        else s.onTwin fun t => { t with waiting := t.waiting ++ [(i, s.ran)] }
      | .solo =>
        if read then (s.onOp i fun o => { o with mirrored := false }).startOp i
        else if s.lastCopy o.extent then s
        else
          let (o, s) := s.mirrorEncode i o
          s.mirrorRun i o true

/-- Start a mirrored operation that has not started: it takes its pool entry as it begins, or is refused BUSY (R220). -/
def State.mirrorStart (s : State) (i : Nat) : State :=
  match s.op? i with
  | none => s
  | some o =>
    if !o.mirrored || o.started || o.finished || s.fenceHolds i o || s.frameHolds i o ||
        s.twin.waiting.any fun w => w.1 = i then s
    else if (o.src = .agent || o.src = .twin) && s.mirrorBegins o then
      match s.poolRefuses o.half o.tenant with
      | (true, s) => s.endOp i .busy
      | (false, s) => (s.mirrorGo i).notePool o.half
    else s.mirrorGo i

/-- MIRROR_QUEUE_ROOM: the oldest operation that waits for the queue is admitted when there is room (R387). -/
def mirrorQueueRoomOp (s : State) : State :=
  match s.twin.waiting with
  | [] => s
  | (i, t) :: rest => match s.op? i with
    | none => s.onTwin fun x => { x with waiting := rest }
    | some o =>
      if s.mirrorRoom o then
        let s := s.onTwin fun x => { x with waiting := rest }
        (s.bump64 Reg.twMirrorWaitNs (s.ran - t)).mirrorStart i
      else s

/-- Steps 5 and 6: MIRROR_ACK lets the holder apply its own copy and answer. -/
def State.takeMirrorAck (s : State) (key : TwinKey) : State :=
  match s.twin.holders.find? fun h => h.key = key && h.phase = 1 with
  | none => s
  | some h =>
    let s := s.copyWrite h.addr h.value
    let s := s.onTwin fun t => { t with holders := t.holders.map fun x => if x = h then { x with phase := 3 } else x }
    (s.bump64 Reg.twMirrorOps).mirrorEnd h.op .ok h.old

/-- Step 7: RETIRE once the response has been acknowledged. -/
def State.retireDone (s : State) : State :=
  let unacked := ((s.conn? twinConn).elim [] fun k => k.unacked.vals).filterMap fun e =>
    match twinExt e.f with
    | some (0x12, _) => some (frameKey e.f)
    | _ => none
  let ended (h : HolderOp) : Bool :=
    h.phase = 3 && (s.op? h.op).isNone &&
    (if h.front then !unacked.contains h.key
     else match s.conn? h.conn with
       | some k => k.ops.all fun o => o.opId != h.key.opId || o.acked
       | none => true)
  let due := s.twin.holders.filter ended
  let s := s.onTwin fun t => { t with holders := t.holders.filter fun h => !due.contains h }
  due.foldl (fun s h => s.sendTwin (twinFrame 0x22 h.extent (s.lease h.extent).gen 0 0 h.key 0 [])) s

/-! ### The partner's side (R385, R388) -/

/-- Acknowledge a MIRROR. -/
def State.sendMirrorAck (s : State) (key : TwinKey) (e : Nat) : State :=
  s.sendTwin (twinFrame 0x21 e (s.lease e).gen 0 0 key 0 [])

/-- Apply a shadow and acknowledge it (step 4). -/
def State.applyShadow (s : State) (x : Shadow) : State :=
  let s := s.copyWrite x.addr x.value
  let s := s.onTwin fun t => { t with shadows := t.shadows.map fun y => if y.key = x.key then { y with phase := 2 } else y }
  s.sendMirrorAck x.key x.extent

/-- Whether a pool entry may go to a shadow: outside POOL_TENANT_MAX, never the host's reserve (R388). -/
def State.shadowRoom (s : State) (a : Nat) : Bool :=
  s.poolUsed (homeDie a) + s.reg Reg.rpPoolHostReserve < poolCap

/-- MIRROR: a shadow, once it has its entry, applied and acknowledged; one that is here already is acknowledged again. -/
def State.takeMirror (s : State) (f : Frame) (e : Nat) : State :=
  let key := frameKey f
  match s.twin.shadows.find? fun x => x.key = key with
  | some x => if x.phase = 2 then s.sendMirrorAck key e else s
  | none =>
    let a := offOf f.addr.toNat
    let atomic := f.payload.length != f.len.toNat
    let n := if atomic then f.payload.length / 2 else f.payload.length
    let x : Shadow := { key := key, extent := e, addr := a, value := f.payload.take n, old := f.payload.drop n,
                        phase := if s.shadowRoom a then 1 else 0 }
    let s := (s.onTwin fun t => { t with shadows := t.shadows ++ [x] }).notePool (homeDie a)
    if x.phase = 1 then s.applyShadow x else s

/-- Shadows that waited for an entry take it (R388). -/
def State.shadowsWaiting (s : State) : State :=
  (s.twin.shadows.filter (·.phase = 0)).foldl (fun s x => if s.shadowRoom x.addr then (s.applyShadow x).notePool (homeDie x.addr) else s) s

/-- RETIRE frees the shadow. -/
def State.takeRetire (s : State) (key : TwinKey) : State :=
  s.onTwin fun t => { t with shadows := t.shadows.filter fun x => x.key != key }

/-! ### Handover (R389 to R391) -/

/-- The request that a HANDOVER or an ORPHAN_STATE carries: its TYPE and FLAGS stand in AUX. -/
def handedRequest (s : State) (f : Frame) (aux : Nat) : Frame :=
  { ty := BitVec.ofNat 8 (bits aux 7 0), flags := BitVec.ofNat 12 (bits aux 19 8), tenant := f.tenant, agent := f.agent,
    opId := f.opId, addr := BitVec.ofNat 64 (s.device * 2 ^ 48 + offOf f.addr.toNat), len := f.len, payload := f.payload }

/-- Whether an operation of a key is under way here for the partner. -/
def State.twinKnown (s : State) (key : TwinKey) : Bool :=
  (s.jobs.ops.any fun e => e.2.src = .twin && s.opKey e.2 = key) || s.twin.holders.any fun h => h.key = key

/-- The result of a key that a shadow, a finished write or a record of this device shows (R391, R398). -/
def State.keyResult (s : State) (key : TwinKey) : Option (Status × List Byte) :=
  match s.twin.shadows.find? fun x => x.key = key && 2 ≤ x.phase with
  | some x => some (.ok, x.old)
  | none => match s.twin.holders.find? fun h => h.key = key && 2 ≤ h.phase with
    | some h => some (.ok, h.old)
    | none => (s.twin.recorded.find? fun r => r.key = key).map fun r => (r.status, r.payload)

/-- Enter a request of the partner as an operation of this holder, once it has its pool entry (R389 step 3). -/
def State.enterTwin (s : State) (key : TwinKey) (e : Nat) (req : Frame) : State :=
  let a := offOf req.addr.toNat
  let t := req.tenant.toNat
  match s.poolRefuses (homeDie a) t with
  | (true, s) => s
  | (false, s) =>
    let (tag, s) := s.stampTag t (costOf req) (s.weightOf t 0)
    let write := req.ty != 0x01
    let (i, s) := s.addOp { src := .twin, conn := 0, f := req, tenant := t, extent := e, half := homeDie a, at_ := s.ran,
                            tag := tag, left := linesOf a (spanOf req), mirrored := write }
    if write then s.mirrorStart i else (s.sendTaken key e).startOp i

/-- This device's own request of a key, handed over before, is its own to run now; one with a result already ends with it and
is not executed again (R391). -/
def State.takeBack (s : State) (h : Handed) : State :=
  let known := s.keyResult h.key
  let s := s.onTwin fun t => { t with handed := t.handed.filter fun x => x != h }
  match known with
  | some (st, payload) => s.mirrorEnd h.op st payload
  | none => (s.onOp h.op fun o => { o with started := false }).mirrorStart h.op

/-- A request handed over, at the holder of its extent (R389, R390); one with a result already is answered with it. -/
def State.holdRequest (s : State) (f : Frame) (e aux : Nat) : State :=
  let key := frameKey f
  match s.twin.handed.find? fun h => h.key = key && h.front with
  | some h => (s.sendTaken key e).takeBack h
  | none => match s.keyResult key with
    | some (st, payload) => (s.sendTaken key e).sendDone key e st payload
    | none => if s.twinKnown key then s.sendTaken key e else s.enterTwin key e (handedRequest s f aux)

/-- Whether this device holds an extent in its own view; a holder whose GIVE has gone out does not (Table 13-4). -/
def State.holds (s : State) (e : Nat) : Bool := (s.lease e).held && !((s.lease e).st = .giving && (s.lease e).given)

/-- HANDOVER: taken by the holder, or sent back with a copy kept (R389, R390). -/
def State.takeHandover (s : State) (f : Frame) (e aux : Nat) : State :=
  if s.holds e then s.holdRequest f e aux
  else
    let key := frameKey f
    let h : Handed := { key := key, op := 0, extent := e, f := handedRequest s f aux, since := s.ran, front := false }
    let s := s.onTwin fun t => { t with handed := (t.handed.filter fun x => x.key != key || x.front) ++ [h] }
    (s.bump Reg.twHandovers).sendTwin { twinFrame 0x10 e (s.lease e).gen 0 aux key 0 f.payload with len := f.len }

/-- A copy of a request that no requester here waits for is let go, with the operation that stands for it. -/
def State.dropCopy (s : State) (h : Handed) : State :=
  let s := s.onTwin fun t => { t with handed := t.handed.filter fun x => x != h }
  if h.op = 0 then s else s.onJobs fun j => { j with ops := j.ops.del h.op }

/-- TAKEN: the sender of a HANDOVER drops its copy; a front waits for DONE (R389, R390). -/
def State.takeTaken (s : State) (key : TwinKey) : State :=
  match s.twin.handed.find? fun h => h.key = key with
  | none => s
  | some h =>
    let s := s.when h.orphan fun s => s.bump Reg.twOrphansDiscarded
    if h.front then
      s.onTwin fun t => { t with handed := t.handed.map fun x => if x = h then { x with taken := true, orphan := false } else x }
    else s.dropCopy h

/-- DONE: the front answers its requester and frees the front entry (R389 step 4). -/
def State.takeDone (s : State) (key : TwinKey) (st : Status) (payload : List Byte) : State :=
  match s.twin.handed.find? fun h => h.key = key && h.front with
  | none => s
  | some h => (s.onTwin fun t => { t with handed := t.handed.filter fun x => x != h }).mirrorEnd h.op st payload

/-- Whether a key names an entry: the ADDR of an engine's write counts where the name carries one (R381, Table 13-2). -/
def keyNames (k x : TwinKey) : Bool :=
  k.tenant = x.tenant && k.agent = x.agent && k.opId = x.opId && (k.addr = 0 || k.addr = x.addr)

/-- ORPHAN_TIMEOUT: 200 us without TAKEN (R390). -/
def orphanTimeoutOp (key : TwinKey) (s : State) : State :=
  let late (h : Handed) : Handed :=
    if keyNames key h.key && !h.taken && s.since h.since 200000 then { h with orphan := true } else h
  s.onTwin fun t => { t with handed := t.handed.map late }

/-- An orphan has been adopted (R391, R404). -/
def State.adopted (s : State) : State := (s.bump Reg.twOrphansAdopted).raiseQuiet 13

/-- The order of keys (R391). -/
def keyLe (a b : TwinKey) : Bool :=
  let n (k : TwinKey) : Nat := ((k.tenant.toNat * 2 ^ 13 + k.agent.toNat) * 2 ^ 32 + k.opId.toNat) * 2 ^ 64 + k.addr.toNat
  n a ≤ n b

/-- What the keys of a RENEW do to the orphans here (R391). -/
def State.settleOrphans (s : State) (partner : List TwinKey) : State :=
  let mine := (s.twin.handed.filter (·.orphan)).mergeSort fun a b => keyLe a.key b.key
  mine.foldl (fun s h =>
    if s.holds h.extent then
      let s := s.adopted
      if h.front then s.takeBack h
      else
        let s := s.dropCopy h
        match s.keyResult h.key with
        | some (st, payload) => (s.sendTaken h.key h.extent).sendDone h.key h.extent st payload
        | none => if s.twinKnown h.key then s else s.enterTwin h.key h.extent h.f
    else if partner.any fun k => keyNames k h.key then
      let s := s.bump Reg.twOrphansDiscarded
      if h.front then
        s.onTwin fun t => { t with handed := t.handed.map fun x => if x = h then { x with taken := true, orphan := false } else x }
      else s.dropCopy h
    else
      s.sendTwin { twinFrame 0x30 h.extent (s.lease h.extent).gen 0 (h.f.ty.toNat + h.f.flags.toNat * 256) h.key 0
                    h.f.payload with len := h.f.len }) s

/-- ORPHAN_STATE at the adopting holder (R391). -/
def State.takeOrphanState (s : State) (f : Frame) (e aux : Nat) : State :=
  if s.holds e then s.adopted.holdRequest f e aux else s

/-! ### Leases (R392 to R395, Table 13-5) -/

/-- An extent enters CONFLICT (CONFLICTS). -/
def State.enterConflict (s : State) (e : Nat) : State :=
  (s.onLease e fun x => { x with st := .conflict }).bump Reg.twConflicts

/-- LEASE_LIST frames for every mirrored extent. -/
def State.sendLeaseList (s : State) : State :=
  let rec go : Nat → List (Nat × Lease) → State → State
    | 0, _, s => s
    | _, [], s => s
    | n + 1, l, s =>
      let part := l.take 512
      let body := part.flatMap fun (e, x) => beBytes 4 (x.st.code * 2 ^ 28 + e) ++ beBytes 4 x.gen
      go n (l.drop 512) (s.sendTwin (twinFrame 0x04 0 0 0 part.length noKey 0 body))
  if s.twin.leases.isEmpty then s.sendTwin (twinFrame 0x04 0 0 0 0 noKey 0 [])
  else go (s.twin.leases.length / 512 + 1) s.twin.leases s

/-- RENEW_TIMER: every 1 ms (R391, R393). -/
def renewTimerOp (s : State) : State :=
  if s.twinOpen && s.since s.twin.lastRenew 1000000 then
    let orphans := (s.twin.handed.filter (·.orphan)).mergeSort fun a b => keyLe a.key b.key
    let body := beBytes 4 (leaseDigest s.heldLeases) ++ beBytes 4 s.heldLeases.length ++ orphans.flatMap fun h =>
      beBytes 4 (identOf h.key.tenant.toNat h.key.agent.toNat) ++ beBytes 4 h.key.opId.toNat ++ beBytes 4 h.extent
    let s := s.onTwin fun t => { t with lastRenew := s.ran }
    s.sendTwin (twinFrame 0x03 0 0 0 orphans.length noKey 0 body)
  else s

/-- RENEW: the digest compared, the orphans settled (R391, R393). -/
def State.takeRenew (s : State) (f : Frame) (aux : Nat) : State :=
  let same := beField f.payload 0 4 = leaseDigest s.partnerLeases && beField f.payload 4 4 = s.partnerLeases.length
  let s := s.when (!same) fun s =>
    (if s.twin.listSent then s else s.sendLeaseList).onTwin fun t => { t with listSent := true }
  let keys : List TwinKey := (List.range aux).map fun i =>
    let w := beField f.payload (8 + 12 * i) 4
    { tenant := BitVec.ofNat 12 (bits w 31 20), agent := BitVec.ofNat 13 (bits w 19 7),
      opId := BitVec.ofNat 32 (beField f.payload (12 + 12 * i) 4) }
  s.settleOrphans keys

/-- One entry of a LEASE_LIST: the higher GEN holds; claims of equal GEN in SOLO, or in SOLO and HOLD, conflict (R393,
Table 13-5). A partner in SOLO has the current copy, so this one's is fenced (R400). -/
def State.settleLease (s : State) (e code gen : Nat) : State :=
  let x := s.lease e
  let s := s.onLease e fun x => { x with partner := code }
  let holds := code = 2 || code = 4
  let solo := code = 6
  if code = 7 && x.st = .conflict then
    (s.onLease e fun x => { x with st := .solo, holder := s.side }).markDirty e
  else if x.gen < gen && (holds || solo) then
    let st : LeaseSt := match x.st with
      | .none | .hold | .shadow => if solo then .fenced else .shadow
      | .giving => .shadow
      | .solo | .fenced => .fenced
      | .lost => .lost
      | .conflict => .conflict
    if x.st = .lost || x.st = .conflict then s
    else s.onLease e fun x => { x with st := st, gen := gen, holder := 1 - s.side, given := false }
  else if x.gen = gen && ((x.st = .solo && (solo || code = 2)) || (x.st = .hold && solo)) then s.enterConflict e
  else s

/-- Carry a mirrored extent's grant entry to a partner that has lost it (R400). -/
def State.carryEntry (s : State) (e : Nat) : State :=
  let x := s.extent e
  let arg := x.tenant + b2n x.read * 2 ^ 12 + b2n x.write * 2 ^ 13 + b2n x.atomic * 2 ^ 14 + b2n x.cache * 2 ^ 15 +
    b2n x.mirrored * 2 ^ 18 + b2n x.drillOk * 2 ^ 19 + x.policy * 2 ^ 20
  (s.markDirty e).sendTwin (twinFrame 0x50 e (s.lease e).gen 0 0 noKey 0 (beBytes 1 1 ++ [0#8, 0#8, 0#8] ++ beBytes 4 arg))

/-- LEASE_LIST (R393): this device's own list goes out if it has not; every entry is settled. An extent that the partner
claims in SOLO and that this device has no entry of is fenced until its grant entry is carried (R400); one that this device
carries in SOLO and the partner does not list has its entry carried there. -/
def State.takeLeaseList (s : State) (f : Frame) (aux : Nat) : State :=
  let s := if s.twin.listSent then s else s.sendLeaseList
  let s := s.onTwin fun t => { t with listSent := false, listed := true }
  let recs := (List.range aux).map fun i =>
    (beField f.payload (8 * i) 4 % 2 ^ 17, beField f.payload (8 * i) 4 / 2 ^ 28, beField f.payload (8 * i + 4) 4)
  let s := recs.foldl (fun s (e, code, gen) =>
    if (s.twin.leases.get? e).isNone && code = 6 then
      let x : Lease := { st := .fenced, gen := gen, holder := 1 - s.side, partner := code }
      s.onTwin fun t => { t with leases := t.leases.put e x }
    else s.settleLease e code gen) s
  if aux < 512 then
    let gone := (s.twin.leases.filter fun x => x.2.st = .solo && !recs.any fun r => r.1 = x.1).map (·.1)
    gone.foldl (fun s e => s.carryEntry e) s
  else s

/-- LEASE_CMD MOVE for the extent of LEASE_SEL (Table 13-5): HOLD becomes GIVING. -/
def leaseMoveOp (s : State) : State :=
  s.onLease (s.reg Reg.twLeaseSel % 2 ^ 17) fun x => if x.st = .hold then { x with st := .giving, given := false } else x

/-- LEASE_GIVE: every admitted operation of a GIVING extent is at PHASE 2, and GIVE goes out with GEN + 1. -/
def leaseGiveOp (e : Nat) (s : State) : State :=
  let x := s.lease e
  if x.st = .giving && !x.given && !s.twin.holders.any (fun h => h.extent = e && h.phase < 2) && s.twinOpen then
    (s.onLease e fun x => { x with given := true }).sendTwin (twinFrame 0x05 e (x.gen + 1) 0 0 noKey 0 [])
  else s

/-- GIVE received in SHADOW: this device holds the lease, and answers TAKE. -/
def State.takeGive (s : State) (e gen : Nat) : State :=
  if (s.lease e).st = .shadow then
    (s.onLease e fun x => { x with st := .hold, gen := gen, holder := s.side }).sendTwin (twinFrame 0x06 e gen 0 0 noKey 0 [])
  else s

/-- TAKE received in GIVING: SHADOW; the requests that waited are handed over. -/
def State.takeTake (s : State) (e gen : Nat) : State :=
  if (s.lease e).st = .giving then
    let s := s.onLease e fun x => { x with st := .shadow, gen := gen, holder := 1 - s.side, given := false }
    ((s.jobs.ops.filter fun o => o.2.extent = e && o.2.mirrored && !o.2.started).map (·.1)).foldl (fun s i => s.mirrorStart i) s
  else s

/-- BEAT_TIMER: every 100 us on every live path (R395). -/
def beatTimerOp (s : State) : State :=
  if s.twinOpen && s.since s.twin.lastBeat 100000 then
    let live := ((s.conn? twinConn).elim [] fun k => k.paths.filter fun q => q.2.live).map (·.1)
    let s := s.onTwin fun t => { t with lastBeat := s.ran }
    live.foldl (fun s n => s.sendUnseq twinConn n
      ((s.conn? twinConn).elim (twinFrame 0x02 0 0 0 0 noKey 0 []) fun k => k.withAck (twinFrame 0x02 0 0 0 0 noKey 0 []))) s
  else s

/-- PAIR_HELLO_TIMER: every 10 ms on each path that is not live (R380). -/
def pairHelloTimerOp (s : State) : State :=
  if !s.paired || s.boot.service = .greyscale then s
  else s.twinPaths.foldl (fun s (n, _) =>
    let live := (s.conn? twinConn).any fun k => (k.paths.getD n { }).live
    let due := (s.twin.paths.getD n { }).lastHello.all fun t => s.since t 10000000
    if live || !due then s
    else
      let x : TwinPath := { s.twin.paths.getD n { } with lastHello := some s.ran }
      (s.onTwin fun t => { t with paths := t.paths.put n x }).sendPairHello n 0) s

/-- A frame from the partner has arrived (R395): extents that went LOST return to the state they left when the partner's
incarnation is the same. -/
def State.twinHeard (s : State) (f : Frame) : State :=
  let s := s.onTwin fun t => { t with lastHeard := s.ran }
  if s.twin.partnerIncarn = some f.incarn then
    s.onTwin fun t => { t with leases := t.leases.map fun (e, x) =>
      (e, if x.st = .lost then { x with st := x.before, before := .none } else x) }
  else s

/-- TWIN_SILENCE_TIMEOUT: 2 ms without a frame on any twin port (R395); source 8 is a level. -/
def twinSilenceOp (s : State) : State :=
  if s.paired && s.boot.service != .greyscale && s.since s.twin.lastHeard 2000000 then
    s.onTwin fun t => { t with leases := t.leases.map fun (e, x) =>
      (e, if x.st = .hold || x.st = .shadow || x.st = .giving then { x with st := .lost, before := x.st } else x) }
  else s

/-! ### Takeover (R397, R398) -/

/-- A result whose connection has not survived is recorded in the takeover table (R397 step 5). -/
def State.recordFront (s : State) (h : Handed) : State :=
  match s.op? h.op with
  | none => s
  | some o =>
    s.when (o.finished && o.src = .agent && !(s.conn? o.conn).any fun k => k.active) fun s => s.onTwin fun t =>
      let r : Recorded := { key := h.key, status := o.status, payload := o.answer }
      { t with recorded := (t.recorded ++ [r]).take 65536 }

/-- Take over every extent whose lease meets a test: it enters SOLO with GEN + 1. -/
def State.takeover (s : State) (p : Lease → Bool) : State :=
  let es := (s.twin.leases.filter fun e => p e.2).map (·.1)
  if es.isEmpty then s
  else
    let mine (e : Nat) : Bool := es.contains e
    let s := es.foldl (fun s e => s.onLease e fun x =>
      { x with st := .solo, gen := x.gen + 1, holder := s.side, before := .none, given := false }) s
    let shadows := s.twin.shadows.filter fun x => mine x.extent
    let s := shadows.foldl (fun s x => (if x.phase < 2 then s.copyWrite x.addr x.value else s).markDirty x.extent) s
    let holders := s.twin.holders.filter fun h => mine h.extent
    let s := holders.foldl (fun s h =>
      if h.phase = 1 then
        let s := ((s.copyWrite h.addr h.value).markDirty h.extent).bump64 Reg.twMirrorOps
        if h.front then s.onJobs fun j => { j with ops := j.ops.del h.op } else s.mirrorEnd h.op .ok h.old
      else s) s
    let fronts := s.twin.handed.filter fun h => mine h.extent && h.front
    let gone (h : HolderOp) : Bool := h.front || !(s.conn? h.conn).any fun k => k.active
    let records : List Recorded :=
      ((shadows.filter fun x => !fronts.any fun h => h.key = x.key).map fun x => { key := x.key, status := .ok, payload := x.old }) ++
      ((holders.filter gone).map fun h => { key := h.key, status := .ok, payload := h.old })
    let s := s.onTwin fun t =>
      { t with shadows := t.shadows.filter fun x => !mine x.extent, holders := t.holders.filter fun h => !mine h.extent,
               handed := t.handed.filter fun h => !mine h.extent,
               recorded := (t.recorded ++ records).take 65536, recordedAt := s.ran, listed := false, listSent := false }
    let s := fronts.foldl (fun s h => State.recordFront (match shadows.find? fun x => x.key = h.key with
      | some x => s.mirrorEnd h.op .ok x.old
      | none => (s.onOp h.op fun o => { o with started := false, mirrored := true }).mirrorStart h.op) h) s
    let (v, s) := s.draw
    ((s.bump Reg.twTakeovers).setReg Reg.twTakeoverNs (v % 20000001)).raise 9

/-- The extents that a dead or departing partner leaves to this device (Table 13-5). -/
def State.partnerGone (s : State) : State :=
  s.takeover fun x => x.st = .hold || x.st = .shadow || x.st = .giving || x.st = .lost

/-- TAKEOVER_HOLD_EXPIRY (R398). -/
def takeoverHoldExpiryOp (s : State) : State :=
  if s.since s.twin.recordedAt (bits (s.reg Reg.twTakeoverHold) 13 0 * 1000000) then s.onTwin fun t => { t with recorded := [] } else s

/-- The status of a witness act, which WITNESS_RESULT takes (R394). -/
def State.witnessResult (s : State) (st : Status) : State := s.setReg Reg.twWitnessResult st.code

/-- FORM (R394). -/
def witnessFormOp (s : State) : State :=
  let silent := !s.twinOpen || s.since s.twin.lastHeard 2000000
  let fit (x : Lease) : Bool := x.st = .none || (x.st = .fenced && (silent || x.partner = 1))
  if s.twin.leases.any fun e => fit e.2 then
    (s.onTwin fun t => { t with leases := t.leases.map fun (e, x) =>
      (e, if fit x then { x with st := .hold, gen := x.gen + 1, holder := s.side } else x) }).witnessResult .ok
  else s.witnessResult .unsupported

/-- CONFIRM (R394). -/
def witnessConfirmOp (incarn : BitVec 8) (s : State) : State :=
  if (s.twin.leases.any fun e => e.2.st = .lost) && s.twin.partnerIncarn = some incarn then
    (s.takeover fun x => x.st = .lost).witnessResult .ok
  else s.witnessResult .unsupported

/-- FENCE (R394). -/
def witnessFenceOp (s : State) : State :=
  (s.onTwin fun t => { t with leases := t.leases.map fun (e, x) => (e, { x with st := .fenced, given := false }) }).witnessResult .ok

/-- RESET_NOTICE (R399). -/
def State.takeResetNotice (s : State) : State := s.partnerGone

/-! ### PAIR_HELLO (R378, R380) -/

/-- The partner is at a new incarnation: the connection is opened anew, and this device takes over (R378, Table 13-5). -/
def State.partnerNew (s : State) (incarn : BitVec 8) : State :=
  match s.twin.partnerIncarn with
  | none => s.onTwin fun t => { t with partnerIncarn := some incarn }
  | some _ => ((s.onTwin fun t => { t with partnerIncarn := some incarn }).twinReopen).partnerGone

/-- The MIRRORs that a reopening has left without an answer go out again; applying them is idempotent (R388). -/
def State.mirrorsAgain (s : State) : State := (s.twin.holders.filter (·.phase = 1)).foldl (fun s h => s.sendMirror h) s

/-- A PAIR_HELLO arrives on a twin port (R378, R380). -/
def State.takePairHello (s : State) (rx : Rx) : State :=
  let denied : State := s.bump Reg.twPairDenied
  let f := rx.f
  let n := s.twinPathOf rx.port
  match s.twin.key with
  | none => denied
  | some key =>
    let time := beField f.payload 16 8
    let nonce := beField f.payload 24 8
    let echo := beField f.payload 32 8
    let tok := token key (tokenBytes (s.reg Reg.twPartnerDev % 65536) (1 - s.side) f.incarn.toNat time nonce echo)
    if rx.src != s.partnerIp || tok != BitVec.ofNat 128 (beField f.payload 0 16) then denied
    else
      let x := s.twin.paths.getD n { }
      let mine := x.nonces.any fun e => e.1.toNat = echo && !s.since e.2 10000001
      if echo = 0 || !mine then
        if x.lastAnswer.any fun t => !s.since t 1000000 then denied
        else
          let y : TwinPath := { x with lastAnswer := some s.ran }
          (s.onTwin fun t => { t with paths := t.paths.put n y }).sendPairHello n nonce
      else
        let s := if s.twin.partnerIncarn = some f.incarn then s else s.partnerNew f.incarn
        let s := s.twinHeard f
        let live := (s.conn? twinConn).any fun k => (k.paths.getD n { }).live
        if live then s
        else
          let first := !s.twinOpen
          let s := s.onPath twinConn n fun q => { q with live := true, opened := true, lost := 0, probeAt := none,
                                                         droppedAt := none, lastAcked := s.ran }
          let s := s.when first fun s =>
            (s.onTwin fun t => { t with resync := t.resync.map fun r =>
              { r with suspended := false, pos := r.ckpt * 2 ^ 26, pass := 1, todo := [] } }).mirrorsAgain
          s.sendPairHello n nonce

/-- PAIR_KEY_INSTALL (R377). -/
def pairKeyInstallOp (s : State) : State :=
  let k := s.key256 Reg.twPairKey
  s.onTwin fun t => { t with key := some k }

/-- PAIR_KEY_ERASE (R377). -/
def pairKeyEraseOp (s : State) : State := s.onTwin fun t => { t with key := none }

/-! ### Resynchronisation (R400, R401, Table 13-7) -/

/-- A resynchronisation begins when the pair is open, the lists have been exchanged and this device carries extents in SOLO:
those whose dirty bit is clear are in HOLD at once, then the lowest dirty one is copied. -/
def State.resyncBegin (s : State) : State :=
  if !s.twinOpen || !s.twin.listed || s.boot.service = .greyscale || s.twin.resync.isSome then s
  else
    let s := s.onTwin fun t => { t with leases := t.leases.map fun (e, x) =>
      (e, if x.st = .solo && !t.dirty.contains e then { x with st := .hold } else x) }
    match s.twin.leases.find? fun e => e.2.st = .solo with
    | some (e, _) => s.onTwin fun t => { t with resync := some { extent := e } }
    | none => s

/-- Send the COPY frame of 4,096 bytes from an offset on. -/
def State.sendCopy (s : State) (e a : Nat) : State :=
  let key : TwinKey := { noKey with addr := BitVec.ofNat 64 a }
  (s.bump64 Reg.twResyncBytes 4096).sendTwin (twinFrame 0x40 e (s.lease e).gen 0 0 key 0 (s.bytes a 4096))

/-- The source copies on: one COPY frame, or the end of a pass (Table 13-7 steps 2, 4 and 5). -/
def State.resyncStep (s : State) : State :=
  match s.twin.resync with
  | none => s
  | some r =>
    let base := r.extent * 2 ^ 30
    let put (s : State) (r : Resync) : State := s.onTwin fun t => { t with resync := some r }
    if r.suspended || !r.source || !s.twinOpen then s
    else if r.pass = 1 && r.pos < 2 ^ 30 then put (s.sendCopy r.extent (base + r.pos)) { r with pos := r.pos + 4096 }
    else match (if r.pass = 1 then [] else r.todo) with
      | c :: rest =>
        let s := s.sendCopy r.extent (base + c * 65536 + r.pos)
        if r.pos + 4096 = 65536 then put s { r with todo := rest, pos := 0 } else put s { r with pos := r.pos + 4096 }
      | [] =>
        if r.pass = 6 then s
        else put s { r with todo := r.marked.mergeSort (fun a b => decide (a ≤ b)), marked := [], pos := 0,
                            pass := if r.marked.isEmpty then 6 else r.pass + 1 }

/-- COPY frames not yet acknowledged. -/
def State.copiesOut (s : State) : Nat :=
  ((s.conn? twinConn).elim [] fun k => k.unacked.vals).countP fun e => (twinExt e.f).any fun x => x.1 = 0x40

/-- A checkpoint after each further 64 MiB acknowledged (Table 13-7 step 3). -/
def State.resyncCheckpoint (s : State) : State :=
  match s.twin.resync with
  | none => s
  | some r =>
    let done := if r.pass = 1 then (r.pos - 4096 * s.copiesOut) / 2 ^ 26 else if s.copiesOut = 0 then 16 else r.ckpt
    if r.source && !r.suspended && r.ckpt < done then
      let r2 : Resync := { r with ckpt := r.ckpt + 1 }
      (s.onTwin fun t => { t with resync := some r2 }).sendTwin
        (twinFrame 0x41 r.extent (s.lease r.extent).gen 0 (r.ckpt + 1) noKey 0 [])
    else s

/-- COPY at the partner: 4,096 bytes of a fenced extent. -/
def State.takeCopy (s : State) (f : Frame) (e : Nat) : State :=
  let a := offOf f.addr.toNat
  if (s.lease e).st = .fenced && extentOf a = e then s.copyWrite a (slice f.payload 0 4096) else s

/-- CHECKPOINT at the partner (R401). -/
def State.takeCheckpoint (s : State) (e aux : Nat) : State :=
  if (s.lease e).st = .fenced then
    s.onTwin fun t => { t with resync := some { extent := e, source := false, ckpt := aux } }
  else s

/-- RESYNC_EXTENT_DONE: the last marked chunks are copied; HOLD at the source and SHADOW at the partner (step 6). -/
def resyncExtentDoneOp (e : Nat) (s : State) : State :=
  let x := s.lease e
  if x.st = .solo then
    match s.twin.resync with
    | some r =>
      if r.source && r.extent = e && r.pass = 6 && r.todo.isEmpty && r.marked.isEmpty && !r.suspended && s.copiesOut = 0 then
        let s := s.onLease e fun x => { x with st := .hold }
        let s := (s.onTwin fun t => { t with resync := none, dirty := t.dirty.filter (· != e) }).bump Reg.twResyncDone
        let s := s.when s.twin.dirty.isEmpty fun s => s.raise 11
        s.resyncBegin
      else s
    | none => s
  else if x.st = .fenced && (x.partner = 6 || x.partner = 2) && x.holder = 1 - s.side then
    let s := s.onLease e fun x => { x with st := .shadow }
    s.onTwin fun t => { t with resync := t.resync.filter fun r => r.extent != e }
  else s

/-! ### Extent commands (R382, R383) -/

/-- The lease entry of an extent follows its grant entry (R392). -/
def State.leaseSync (s : State) (e : Nat) : State :=
  let x := s.extent e
  if x.st != .free && x.mirrored then
    match s.twin.leases.get? e with
    | some _ => s
    | none => s.onTwin fun t => { t with leases := t.leases.put e { holder := s.side } }
  else s.onTwin fun t => { t with leases := t.leases.del e, dirty := t.dirty.filter (· != e) }

/-- Apply an extent command on this device. -/
def State.extApply (s : State) (cmd e arg : Nat) : Status × State :=
  let (st, s) := s.extLocal cmd e arg
  (st, if st = .ok then s.leaseSync e else s)

/-- An extent command (R114, R383): whether its outcome is recorded at once, and the state. -/
def State.extCommand (s : State) (cmd e arg : Nat) (wait : Option (Nat × Frame)) : Bool × State :=
  let x := s.extent e
  let mirrored := (x.mirrored && x.st != .free) || (cmd = 1 && bit arg 18)
  let (dry, after) := s.extLocal cmd e arg
  if !mirrored || dry != .ok then (true, ((if dry = .ok then after.leaseSync e else after)).extResult dry)
  else match ((s.twin.leases.get? e).map fun x => x.st : Option LeaseSt) with
    | some .lost => (true, s.extResult .busy)
    | some .solo =>
      let (st, s) := s.extApply cmd e arg
      (true, (s.when (s.twin.leases.get? e).isSome fun s => s.markDirty e).extResult st)
    | _ =>
      if !s.twinOpen then (true, s.extResult .busy)
      else
        let c : Carried := { extent := e, cmd := cmd, arg := arg, wait := wait }
        let s := s.onTwin fun t => { t with carried := t.carried ++ [c] }
        (false, s.sendTwin (twinFrame 0x50 e (s.lease e).gen 0 0 noKey 0
          (beBytes 1 cmd ++ [0#8, 0#8, 0#8] ++ beBytes 4 arg)))

/-- EXT_CMD from the partner: applied here and answered EXT_DONE (R383); a grant entry of an extent that is fenced here is
carried with no zero fill (R400). -/
def State.takeExtCmd (s : State) (f : Frame) (e : Nat) : State :=
  let cmd := beField f.payload 0 1
  let arg := beField f.payload 4 4
  let (st, s) :=
    if cmd = 1 && (s.lease e).st = .fenced && (s.extent e).st = .free then
      (Status.ok, s.onExtent e fun x => argExtent arg x)
    else s.extApply cmd e arg
  s.sendTwin (twinFrame 0x51 e (s.lease e).gen 0 0 noKey st.code [])

/-- EXT_DONE settles a carried command: it is applied here when the partner has applied it, and RESULT takes the outcome. -/
def State.takeExtDone (s : State) (e : Nat) (st : Nat) : State :=
  match s.twin.carried.find? fun c => c.extent = e with
  | none => s
  | some c =>
    let s := s.onTwin fun t => { t with carried := t.carried.erase c }
    let s := if st = 0 then
        let (r, s) := s.extApply c.cmd e c.arg
        s.extResult r
      else s.setReg Reg.tmExtStat (st * 256)
    match c.wait with
    | some (k, g) => s.respond k g .ok
    | none => s

/-! ### Requests of agents (R384, R385, R398) -/

/-- Take an access to a mirrored extent that has passed its checks: a recorded result answers it; reads in NONE and CONFLICT
are HELD; the others take their pool entry and start as the lease lets them. -/
def State.takeMirrored (s : State) (c tenant : Nat) (f : Frame) : State :=
  let e := extentOf (offOf f.addr.toNat)
  let key : TwinKey := { tenant := f.tenant, agent := f.agent, opId := f.opId, addr := BitVec.ofNat 64 (offOf f.addr.toNat) }
  match s.twin.recorded.find? fun r => r.key = key with
  | some r => (s.bump Reg.twHoldHits).respond c f r.status r.payload
  | none =>
    if s.mirrorHeld e then s.respond c f .held
    else
      let away := f.ty != 0x01 || s.mirrorAway e
      match s.enterPlain .agent c tenant f away with
      | (none, s) => s.respond c f .busy
      | (some i, s) => if away then s.mirrorStart i else s

/-- A READ, WRITE, ATOMIC or coherence request of an agent (Table 3-7 step 11). -/
def State.takeAccess (s : State) (c : Nat) (f : Frame) : State :=
  match s.conn? c with
  | none => s
  | some k =>
    let compress := f.ty = 0x02 && has f fCompress
    let (bad, s) := if compress then s.compressCheck k.tenant f else s.plainCheck k.tenant f
    match bad with
    | some st => s.respond c f st
    | none =>
      let e := extentOf (offOf f.addr.toNat)
      if (s.extent e).mirrored && !isCoh f.ty.toNat then s.takeMirrored c k.tenant f
      else if compress then
        let (refused, t) := s.poolRefuses (homeDie (offOf f.addr.toNat)) k.tenant
        if refused then t.respond c f .busy
        else
          let (g, r, s) := s.compressFrame f
          match s.enterPlain .agent c k.tenant g false with
          | (none, s) => s.respond c f .busy
          | (some i, s) => s.onOp i fun o => { o with ref := r }
      else match s.enterPlain .agent c k.tenant f false with
        | (none, s) => s.respond c f .busy
        | (some _, s) => s

/-- An operation for the partner is finished: DONE goes to the front (Table 13-3 step 6). -/
def State.finishTwin (s : State) (i : Nat) : State :=
  match s.op? i with
  | none => s
  | some o =>
    let key := s.opKey o
    (s.onJobs fun j => { j with ops := j.ops.del i }).sendDone key o.extent o.status o.answer

/-! ### Every command ends with these -/

/-- The twin unit goes on: waiting shadows and operations, retirements, checkpoints, a resynchronisation, the PAIR source. -/
def State.twinHook (s : State) : State :=
  let s := s.shadowsWaiting
  let waiting := (s.jobs.ops.filter fun o => o.2.mirrored && !o.2.started && !o.2.finished).map (·.1)
  let s := waiting.foldl (fun s i => s.mirrorStart i) s
  let s := (s.retireDone.resyncCheckpoint).resyncBegin
  let code := s.pairState
  if code = s.twin.pairCode then s
  else (s.onTwin fun t => { t with pairCode := code }).raise 10

/-- A sequenced TWIN frame, or a BEAT, is taken (Table 13-2). -/
def State.takeTwin (s : State) (f : Frame) : State :=
  match twinExt f with
  | some (kind, [w1, w2, w3]) =>
    let e := w1.toNat % 2 ^ 17
    let gen := w2.toNat
    let aux := w3.toNat % 2 ^ 24
    let key := frameKey f
    match kind with
    | 0x03 => s.takeRenew f aux
    | 0x04 => s.takeLeaseList f aux
    | 0x05 => s.takeGive e gen
    | 0x06 => s.takeTake e gen
    | 0x10 => s.takeHandover f e aux
    | 0x11 => s.takeTaken key
    | 0x12 => s.takeDone key (statusOf f.status.toNat) f.payload
    | 0x20 => s.takeMirror f e
    | 0x21 => s.takeMirrorAck key
    | 0x22 => s.takeRetire key
    | 0x30 => s.takeOrphanState f e aux
    | 0x40 => s.takeCopy f e
    | 0x41 => s.takeCheckpoint e aux
    | 0x50 => s.takeExtCmd f e
    | 0x51 => s.takeExtDone e f.status.toNat
    | 0x60 => s.takeResetNotice
    | _ => s
  | _ => s

/-- The KINDs of Table 13-2. -/
def twinKinds : List Nat :=
  [0x01, 0x02, 0x03, 0x04, 0x05, 0x06, 0x10, 0x11, 0x12, 0x20, 0x21, 0x22, 0x30, 0x40, 0x41, 0x50, 0x51, 0x60]

end Sys2Proof.Machine
end

