-- ==== Sys2Proof/Machine/Staging.lean ====
section
/-! DEFINITION. Staged registers (R59, R60, R63): shadows, written marks, the staged set and its check value, and the
committed set (R426). -/

namespace Sys2Proof.Machine

/-- The staged words of a page: offset and writable bits, ascending. -/
def stagedWords (page : Nat) : List (Nat × Nat) :=
  (ownRegs page).flatMap fun r => if r.staged then (List.range r.n).map fun i => (r.off + 4 * i, r.mask) else []

/-- The present pages that hold staged registers, ascending. -/
def State.stagedPages (s : State) : List Nat := allPages.filter fun p => s.present p && !(stagedWords p).isEmpty

def State.flagsOf (s : State) (page : Nat) : CfgFlags := s.ctl.flags.getD page { }

def State.onFlags (s : State) (page : Nat) (f : CfgFlags → CfgFlags) : State :=
  s.onCtl fun c => { c with flags := c.flags.put page (f (c.flags.getD page { })) }

/-- A write of a staged register: its shadow, its mark, STAGED of its unit (R59). -/
def stagedWriteOp (page off : Nat) (v : Nat) (s : State) : State :=
  if !s.present page then s
  else match (stagedWords page).find? (·.1 = off) with
    | none => s
    | some (_, mask) =>
      let a := page * 4096 + off
      let s := s.onCtl fun c => { c with shadow := c.shadow.put a (BitVec.ofNat 64 (v &&& mask)),
                                         written := if c.written.contains a then c.written else c.written ++ [a] }
      s.onFlags page fun g => { g with staged := true }

/-- The 12-byte records of a list of pages, with the values of v (R60). -/
def recordsOf (pages : List Nat) (v : Nat → Nat) : List Byte :=
  pages.flatMap fun p => (stagedWords p).flatMap fun w =>
    leBytes 4 p ++ leBytes 4 w.1 ++ leBytes 4 (v (p * 4096 + w.1) &&& w.2)

/-- The pages of the staged set: those whose own flag reads STAGED (R60; port group 0 too, log entry 71). -/
def State.stagedSet (s : State) : List Nat := s.stagedPages.filter fun p => (s.flagsOf p).staged

/-- CFG_CRC: the check value of the staged set; 0 when it is empty (R60). -/
def State.cfgCrc (s : State) : Nat :=
  let set := s.stagedSet
  if set.isEmpty then 0 else crc32c (recordsOf set s.shadowReg)

/-- The shadows that differ from the committed values when every shadow holds its running value: the carve registers, whose
running value is the RUN of their part while a committed carve waits (R36). -/
def State.runningShadows (s : State) : Tbl DWord :=
  (List.range 6).foldl (fun t i =>
    let a := Reg.rootCarveDir + 4 * i
    let run := s.boot.carve.getD i 0
    if s.reg a % 64 = run then t else t.put a (BitVec.ofNat 64 run)) []

/-- DISCARD: every shadow returns to its running value and STAGED clears everywhere (R63). -/
def cfgDiscardOp (s : State) : State :=
  s.onCtl fun c => { c with shadow := s.runningShadows, written := [], flags := c.flags.map fun (p, g) => (p, { g with staged := false }) }

/-- The running values of every staged register: the committed set (R426). -/
def State.committedValues (s : State) : Tbl DWord :=
  s.stagedPages.foldl (fun t p => (stagedWords p).foldl (fun t w =>
    t.put (p * 4096 + w.1) (BitVec.ofNat 64 (s.reg (p * 4096 + w.1) &&& w.2))) t) []

/-- The copy of the committed set in use: the one with the higher sequence number (R426). -/
def State.committedCopy (s : State) : Option CfgCopy :=
  s.ctl.copies.foldl (fun b c => match b with
    | none => some c
    | some d => if d.seq < c.seq then some c else some d) none

end Sys2Proof.Machine
end

