-- ==== Sys2Proof/Machine/Time.lean ====
section
/-! DEFINITION. The time base (R24 to R30). -/

namespace Sys2Proof.Machine

/-- TIME_CTRL.SOURCE = 1. -/
def State.ptpOn (s : State) : Bool := bit (s.reg Reg.rootTimeCtrl) 0

/-- TIME_CTRL.PTP_PORT. -/
def State.ptpPort (s : State) : Nat := bits (s.reg Reg.rootTimeCtrl) 13 8

/-- Whether PTP disciplines TIME now: SOURCE = 1, and in Greyscale service the port is offered (R28, R30). -/
def State.disciplined (s : State) : Bool :=
  s.ptpOn && (s.boot.service != .greyscale || !(s.portSt s.ptpPort).serviceDown)

/-- The correction that a cycle makes while an offset is slewed out: what is left of it, at most 200 ppm of the cycle
(R28). -/
def TimeBase.part (t : TimeBase) : Int :=
  if 0 ≤ t.slew then min t.slew Config.slewStep else max t.slew (-(Config.slewStep : Int))

/-- One cycle of the reference clock: 6.4 ns, with the correction of the offset being slewed out; in holdover with the last
correction (R29); with SOURCE = 0 or a port not offered TIME free-runs, and what was left of an offset is dropped
(R24, R27, R28, R30; log entry 66). -/
def tick (s : State) : State :=
  if s.clocked then
    s.onTime fun t =>
      let t := if s.disciplined then t else { t with slew := 0, rate := 0, holdover := t.holdover && s.ptpOn }
      let part : Int := if t.holdover then t.rate else t.part
      let t := if t.holdover then t else { t with rate := part, slew := t.slew - part }
      let sum := t.frac + ((Config.tickStep : Int) + part).toNat
      let own := t.ranFrac + Config.tickStep
      { t with now := t.now + sum / 2 ^ 32, frac := sum % 2 ^ 32, ran := t.ran + own / 2 ^ 32,
               ranFrac := own % 2 ^ 32 }
  else s

/-- A write of TIME_SET_LO: stored, or with SOURCE = 1 refused (R27). -/
def timeSetLoOp (lo : BitVec 32) (s : State) : State :=
  if s.ptpOn then s.onTime fun t => { t with setRefused := true } else s.setReg Reg.rootTimeSetLo lo.toNat

/-- TIME_SET_HI: the set of R27, or its refusal. The manual does not say what the 32-bit fraction of TIME holds after a set:
the model clears it (log entry 67). -/
def timeSetOp (hi : BitVec 32) (s : State) : State :=
  let v := hi.toNat * 2 ^ 32 + s.reg Reg.rootTimeSetLo
  if s.ptpOn || v < s.now then s.onTime fun t => { t with setRefused := true }
  else s.onTime fun t => { t with now := v, frac := 0, setRefused := false }

/-- PTP_SYNC: a measured offset, positive when TIME is behind the master (R28, R29). -/
def ptpSyncOp (port : Nat) (offset : Int) (s : State) : State :=
  if s.disciplined && port = s.ptpPort && (s.portSt port).up then
    let s := s.onTime fun t => { t with offset := offset, lastSync := some t.ran, holdover := false,
                                        locked := decide (-1000 ≤ offset ∧ offset ≤ 1000) }
    if 1000000 < offset && bit (s.reg Reg.rootTimeCtrl) 16 then
      s.onTime fun t => { t with now := t.now + offset.toNat, slew := 0 }
    else
      let s := s.onTime fun t => { t with slew := offset * 2 ^ 32 }
      if offset < -1000000 then s.raise 3 else s
  else s

/-- Entry to holdover (R29): the correction of the last cycle stays, and the offset being slewed out is given up. -/
def State.enterHoldover (s : State) : State :=
  if s.time.holdover then s
  else (s.onTime fun t => { t with holdover := true, locked := false, slew := 0 }).raise 3

/-- HOLDOVER_TIMEOUT: 3 s without a Sync message, or the selected port has gone down (R29). -/
def holdoverOp (s : State) : State :=
  if s.disciplined && (s.since (s.time.lastSync.getD 0) 3000000000 || !(s.portSt s.ptpPort).up) then s.enterHoldover else s

/-! ### Rows -/

/-- TIME_SET_HI (R27). -/
def execTimeSetHi (hi : BitVec 32) (s : State) : Answer := act s (timeSetOp hi)

/-- PTP_SYNC (R28). -/
def execPtpSync (port : Nat) (offset : Int) (s : State) : Answer := act s (ptpSyncOp port offset)

/-- HOLDOVER_TIMEOUT (R29). -/
def execHoldoverTimeout (s : State) : Answer := act s holdoverOp

end Sys2Proof.Machine
end

