-- ==== Sys2Proof/Machine/Commit.lean ====
section
/-! DEFINITION. The commit (R61, R62, R407, R423 to R426, R430): its checks with their reason codes, and what an accepted
and a rejected one do. -/

namespace Sys2Proof.Machine

/-! ### Checks (Tables 14-6, 14-7) -/

/-- The candidate that a commit checks, given as the value of each staged register. -/
abbrev Candidate := Nat → Nat

/-- Reason codes of a page whose condition holds. -/
def when' (c : Bool) (page code : Nat) : List (Nat × Nat) := if c then [(page, code)] else []

/-- Whether a value lies outside a range. -/
def outside (x lo hi : Nat) : Bool := x < lo || hi < x

/-- The ports of the device. -/
def State.allPorts (s : State) : List Nat := (List.range 40).filter s.hasPort

/-- Completeness after a cold reset (R424), by the written marks. -/
def State.incomplete (s : State) : List (Nat × Nat) :=
  let w (a : Nat) : Bool := s.ctl.written.contains a
  let ip (a : Nat) : Bool := w a && w (a + 4) && w (a + 8) && w (a + 12)
  if s.reg Reg.rootCfgSeq != 0 then []
  else
    when' (!w Reg.rootDeviceNum) 0 3 ++
    (s.allPorts.flatMap fun p => when' (!(w (Reg.portPortCtrl (portPage p)) && ip (Reg.portPortIp (portPage p)))) (portPage p) 3) ++
    when' (!(w Reg.tmNearPlaced && w Reg.tmBulkPlaced)) (tmPage 0) 3 ++
    when' (!w Reg.twTwinCtrl) 8 3

/-- Staging groups written in part (R424). -/
def State.partials (s : State) (v : Candidate) : List (Nat × Nat) :=
  let w (a : Nat) : Bool := s.ctl.written.contains a
  let half (l : List Nat) : Bool := l.any w && !l.all w
  let four (a : Nat) : List Nat := [a, a + 4, a + 8, a + 12]
  (s.allPorts.flatMap fun p =>
    let pg := portPage p
    when' (half (four (Reg.portPortIp pg)) || half [Reg.portMacsecCtrl pg, Reg.portMacsecReplay pg]) pg 4) ++
  ((List.range 20).flatMap fun n =>
    let pg := 0x2100 + n
    when' (half ([Reg.lgLgCtrl pg, Reg.lgLgMembersLo pg, Reg.lgLgMembersHi pg] ++ four (Reg.lgLgIp pg))) pg 4) ++
  when' (bit (v Reg.twTwinCtrl) 0 && half ([Reg.twTwinCtrl, Reg.twPartnerDev] ++ four Reg.twPartnerIp)) 8 4

/-- The carve and the other root checks (R30, R35, Table 14-7 code 0x15). -/
def State.rootChecks (s : State) (v : Candidate) : List (Nat × Nat) :=
  let parts := [Reg.rootCarveDir, Reg.rootCarveReq, Reg.rootCarveStage, Reg.rootCarveMerge, Reg.rootCarveXlat,
    Reg.rootCarveTables].map v
  let bad := (parts.zip [(2, 16), (2, 4), (4, 20), (1, 8), (1, 1), (3, 8)]).any fun (x, lo, hi) => outside x lo hi
  let busy := s.store.extents.any (fun e => e.2.st != .free) || s.net.conns.any fun c => c.1 != twinConn && c.2.tenant != 0
  when' (32 < parts.foldl (· + ·) 0) 0 5 ++ when' bad 0 6 ++
  when' (!s.hasPort (bits (v Reg.rootTimeCtrl) 13 8)) 0 0xD ++
  when' (v Reg.rootDeviceNum != s.reg Reg.rootDeviceNum && busy) 0 0x15

/-- Tier manager 0 (R105, R122, Table 4-8). -/
def State.tierChecks (s : State) (v : Candidate) : List (Nat × Nat) :=
  let pg := tmPage 0
  let near := v Reg.tmNearPlaced
  let bulk := v Reg.tmBulkPlaced
  let tables := min (s.boot.carve.getD 5 3) (v Reg.rootCarveTables) * 2 ^ 27
  when' ((!bit near 31 && s.nearExtents < bits near 9 0) || (!bit bulk 31 && s.bulkExtents < bits bulk 12 0)) pg 7 ++
  when' (tables < fixedClaims (v Reg.tmBlendedMax) + s.openClaims) pg 8 ++
  when' (outside (v Reg.tmRevokeTimeout) 1 100) pg 0xE ++
  when' (8192 < v Reg.tmBlendedMax || outside (v Reg.tmWindow) 1 1000 || bits (v Reg.tmMigrateCtrl) 27 24 = 0 ||
    bits (v Reg.tmScrubCtrl) 15 8 = 0) pg 0x16

/-- Ports (Tables 3-1, 3-13). -/
def State.portChecks (s : State) (v : Candidate) : List (Nat × Nat) :=
  let paired := bit (v Reg.twTwinCtrl) 0
  s.allPorts.flatMap fun p =>
    let pg := portPage p
    let c := v (Reg.portPortCtrl pg)
    let role := c % 4
    let allowed := if p < 2 then role = 0 else if p < 34 then role = 1 else role = 2 || (role = 1 && !paired)
    when' (bits c 5 4 = 3) pg 0xB ++ when' (!allowed) pg 0xC ++ when' (bits (v (Reg.portLldpCtrl pg)) 15 8 = 0) pg 0x16

/-- The members that a candidate gives a lock group in use; none for one not in use (R72). -/
def candidateMembers (v : Candidate) (n : Nat) : List Nat :=
  let pg := 0x2100 + n
  let m := v (Reg.lgLgMembersLo pg) + v (Reg.lgLgMembersHi pg) * 2 ^ 32
  if v (Reg.lgLgCtrl pg) = 0 then [] else (List.range 40).filter fun p => bit m p

/-- Lock groups (R72). -/
def State.groupChecks (s : State) (v : Candidate) : List (Nat × Nat) :=
  (List.range 20).flatMap fun n =>
    let size := v (Reg.lgLgCtrl (0x2100 + n))
    let ms := candidateMembers v n
    let ctrl (p : Nat) : Nat := v (Reg.portPortCtrl (portPage p))
    let key (p : Nat) : Nat × Nat := (ctrl p % 4, bits (ctrl p) 5 4)
    let shared := ms.any fun p => (List.range 20).any fun k => k != n && (candidateMembers v k).contains p
    let bad := ms.length != 2 ^ size || (ms.any fun p => !s.hasPort p || p < 2 || ctrl p % 4 = 0) || shared ||
      (match ms with
        | [] => false
        | p :: ps => ps.any fun q => key q != key p)
    when' (size != 0 && bad) (0x2100 + n) 9

/-- Equal addresses (R67): the higher page of each equal pair. -/
def State.addressChecks (s : State) (v : Candidate) : List (Nat × Nat) :=
  let ip (a : Nat) : List Nat := [v a, v (a + 4), v (a + 8), v (a + 12)]
  let used := (s.allPorts.map fun p => (portPage p, ip (Reg.portPortIp (portPage p)))) ++
    ((List.range 20).filterMap fun n =>
      if v (Reg.lgLgCtrl (0x2100 + n)) = 0 then none else some (0x2100 + n, ip (Reg.lgLgIp (0x2100 + n))))
  used.flatMap fun (pg, x) => when' (used.any fun (qg, y) => qg < pg && y = x) pg 0xA

/-- Ranges of single units' registers (Tables 3-16, 5-11, 6-8, 7-8, 11-8, 12-9, 16-6). -/
def State.rangeChecks (s : State) (v : Candidate) : List (Nat × Nat) :=
  let coh := v Reg.dsCohCtrl
  let xl := v Reg.xlFaultCtrl
  let emb := bits (v Reg.geEmbCtrl) 9 0
  let vt := v Reg.ppVcoreTarget
  let th := v Reg.ppThermCtrl
  let out (x lo hi : Nat) := outside x lo hi
  let l :=
    when' (out (v Reg.pgJmtCtrl) 2 255 || out (v Reg.pgOpsMax) 1 65536) 3 0x16 ++
    when' (out (bits coh 7 0) 2 100 || out (bits coh 23 16) 1 255) 0x1000 0xF ++
    when' (out (bits xl 7 0) 1 255 || out (bits xl 14 8) 1 64 || out (bits xl 27 16) 1 4095) 0x3000 0x10 ++
    when' (out (v Reg.rpPoolTenantMax) 256 32768) (poolPage 0) 0x11 ++
    when' (4096 < v Reg.rpPoolHostReserve) (poolPage 0) 0x16 ++
    when' (out emb 1 1000) (gatherPage 0) 0x12 ++
    when' (v Reg.geHotThresh = 0 || out (v Reg.geFilterMax) 4096 8388608 || out (v Reg.geMergeMax) 4096 8388608)
      (gatherPage 0) 0x16 ++
    when' (out (bits (v Reg.seSearchCtrl) 23 0) 4096 16777215) (corePage 0 0x70) 0x13 ++
    when' (out vt 550 850 || vt % 5 != 0 || out (bits th 7 0) 70 100 || out (bits th 15 8) 1 20 ||
      out (v Reg.ppPowerLimit) 300 1500) 0xB 0x16
  l.filter fun e => s.present e.1

/-- The twin unit (R377). -/
def State.twinChecks (s : State) (v : Candidate) : List (Nat × Nat) :=
  let c := v Reg.twTwinCtrl
  let named := (List.range 6).filter fun n => bit c (8 + n)
  let mirrored := s.store.extents.any fun e => e.2.mirrored && e.2.st != .free
  let bad := (bit c 0 && named.isEmpty) || (named.any fun n => v (Reg.portPortCtrl (portPage (34 + n))) % 4 != 2) ||
    v Reg.twPartnerDev = v Reg.rootDeviceNum || (!bit c 0 && mirrored) || outside (v Reg.twTakeoverHold) 10 10000
  when' bad 8 0x14

/-- Every page that offends under the checks of steps 4 and 5, and of step 3 for a host commit (R423). -/
def State.offences (s : State) (v : Candidate) (host : Bool) : List (Nat × Nat) :=
  (if host then s.incomplete ++ s.partials v else []) ++ s.rootChecks v ++ s.tierChecks v ++ s.portChecks v ++
    s.groupChecks v ++ s.addressChecks v ++ s.rangeChecks v ++ s.twinChecks v

/-- The reason of a page: its first fault in the order of Table 14-7; 0 when it does not offend. -/
def reasonOf (l : List (Nat × Nat)) (page : Nat) : Nat :=
  match (l.filter (·.1 = page)).map (·.2) with
  | [] => 0
  | x :: xs => xs.foldl min x

/-! ### Dark hold (R196, R402, R421) -/

/-- Entry to Dark hold from another service state. -/
def State.enterDarkHold (s : State) : State :=
  if s.boot.service = .darkHold then s
  else
    let waiting := s.boot.waiting
    let s := s.drillEnds .ok
    let s := s.onBoot fun b => { b with service := .darkHold, carveWait := false, waiting := [], retrain := [], retraining := none }
    let s := waiting.foldl (fun s w => s.refuseWaiting w .held) s
    let s := (s.jobs.jobs.filter fun j => j.2.ty != 0).foldl (fun s j => s.stopJob j.1 .held) s
    let s := s.dropAll
    let s := s.onTwin fun t => { t with leases := t.leases.map fun (e, x) =>
      (e, if x.st = .hold then { x with st := .giving, given := false } else x) }
    s.allPorts.foldl (fun s p =>
      if (s.portSt p).up then s
      else (s.endDown p).onPort p fun q => { q with serviceDown := true, retraining := false }) s

/-- A commit is rejected: Dark hold, and the reasons (R62). -/
def State.rejectCommit (s : State) (l : List (Nat × Nat)) : State :=
  let s := s.enterDarkHold
  let pages := s.stagedPages
  let s := pages.foldl (fun s p =>
    let r := reasonOf l p
    s.onFlags p fun g => { g with rejected := r != 0, reason := BitVec.ofNat 8 r }) s
  let first := (pages.find? fun p => reasonOf l p != 0).getD 0
  let s := (s.setReg Reg.rootCfgReason (first * 4096 + reasonOf l first)).setReg Reg.rootCfgStatus 3
  s.raise 2

/-! ### Full service (R408) -/

/-- Whether a port runs at its configured rate on the lanes that rate uses. -/
def State.atRate (s : State) (p : Nat) : Bool :=
  let q := s.portSt p
  q.up && q.rate = s.rateOf p && widest q.lanes q.rate = some (q.rate, q.lanes)

/-- A link that is up but off its configured rate, and whose training would now give another rate or other lanes. -/
def State.offRate (s : State) (p : Nat) : Bool :=
  (s.portSt p).up && !s.atRate p && s.trainRate p != some ((s.portSt p).rate, (s.portSt p).lanes)

/-- Entry to full service; the carve change comes first when it is the first entry since the last reset (R408, R409). Every
other configured port trains at its configured rate (R408 step 3). -/
def State.enterFull (s : State) : State :=
  let s := s.onBoot fun b => { b with service := .full, carveWait := !b.entered, retraining := none,
                                      retrain := [2, 3, 4, 5, 0, 1] }
  let s := s.onTwin fun t => { t with lastHeard := s.ran }
  let s := s.allPorts.foldl (fun s p => s.onPort p fun q =>
    if q.up then { q with serviceDown := false } else { q with serviceDown := false, training := true, tried := false }) s
  let s := (s.allPorts.filter (6 ≤ ·)).foldl (fun s p => s.when (s.offRate p) fun s => s.retrain p true) s
  let s := s.when (s.paired && (s.conn? twinConn).isNone) State.twinReopen
  s.sendUnsent

/-- The retraining of ports 2 to 5 and then 0 and 1, one at a time, after the other client ports have trained or failed
(R408 steps 4 and 5); a command port waits while the other one is down. -/
def State.retrainNext (s : State) : Nat → State
  | 0 => s
  | n + 1 =>
    let settled (p : Nat) : Bool :=
      let q := s.portSt p
      q.up || q.tried || (s.trainRate p).isNone || !s.enabled (portPage p)
    let others := s.allPorts.filter fun p => 6 ≤ p && s.role p = 1
    if s.boot.service != .full || s.boot.carveWait || !others.all settled then s
    else match s.boot.retraining with
      | some p => if settled p then State.retrainNext (s.onBoot fun b => { b with retraining := none }) n else s
      | none => match s.boot.retrain with
        | [] => s
        | p :: ps =>
          let drop (s : State) : State := s.onBoot fun b => { b with retrain := ps }
          if !s.hasPort p || !(s.portSt p).up || s.atRate p then State.retrainNext (drop s) n
          else if p < 2 && !(s.portSt (1 - p)).up then s
          else ((drop s).onBoot fun b => { b with retraining := some p }).retrain p true

/-- What a newly running configuration changes at once: ports whose control changed retrain, lock groups whose
registers changed begin anew, and the pairing begins again when its registers changed. -/
def State.applyConfig (s : State) (old : Nat → Nat) : State :=
  let changed (a : Nat) : Bool := old a != s.reg a
  let s := (List.range 20).foldl (fun s n =>
    let pg := 0x2100 + n
    if [Reg.lgLgCtrl pg, Reg.lgLgMembersLo pg, Reg.lgLgMembersHi pg].any changed then
      (s.onGroup n fun _ => { }).restartRotation n
    else s) s
  let pair := [Reg.twTwinCtrl, Reg.twPartnerDev, Reg.twPartnerIp, Reg.twPartnerIp + 4, Reg.twPartnerIp + 8,
    Reg.twPartnerIp + 12].any changed
  let s := s.when pair State.twinReopen
  s.when (!s.ptpOn) fun s => s.onTime fun t => { t with slew := 0, rate := 0, holdover := false, locked := false }

/-- In full service a port whose PORT_CTRL a commit carries returns to its configured rate (R71). -/
def State.retrainCommitted (s : State) (written : List Nat) : State :=
  s.allPorts.foldl (fun s p =>
    if written.contains (Reg.portPortCtrl (portPage p)) && s.offRate p then
      if p < 6 then s.onBoot fun b => { b with retrain := b.retrain ++ [p] } else s.retrain p false
    else s) s

/-- The staged set becomes the running configuration (R62, R426). -/
def State.acceptCommit (s : State) (set : List Nat) (v : Candidate) (seq : Nat) : State :=
  let old := s.reg
  let written := s.ctl.written
  let wasFull := s.boot.service = .full
  let s := set.foldl (fun s p => (stagedWords p).foldl (fun s w =>
    let a := p * 4096 + w.1
    s.setReg a (v a &&& w.2)) s) s
  let s := s.onCtl fun c => { c with flags := c.flags.map fun (p, g) => (p, { g with rejected := false, reason := 0 }) }
  let s := set.foldl (fun s p => s.onFlags p fun g => { g with committed := true }) s
  let s := s.applyConfig old
  let s := if wasFull then s.retrainCommitted written else s.enterFull
  (((s.setReg Reg.rootCfgSeq seq).setReg Reg.rootCfgStatus 2).setReg Reg.rootCfgReason 0).raise 2

/-- A host's commit with a sequence number (R61, R407, R415): BUSY before the bulk tier has trained and during a restart
of the Adith controller. -/
def cfgCommitOp (seq : Nat) (s : State) : Status × State :=
  if s.boot.step != .bulk || s.boot.restarting then (.busy, s)
  else if s.reg Reg.rootCfgCommitLo != s.cfgCrc then (.ok, s.rejectCommit [(0, 1)])
  else if seq ≤ s.reg Reg.rootCfgSeq then (.ok, s.rejectCommit [(0, 2)])
  else
    let l := s.offences s.shadowReg true
    if l.isEmpty then
      let set := s.stagedSet
      let s := s.acceptCommit set s.shadowReg seq
      let s := s.onCtl fun c =>
        { c with shadow := [], written := [], flags := c.flags.map fun (p, g) => (p, { g with staged := false }) }
      let copy : CfgCopy := { seq := seq, values := s.committedValues }
      (.ok, s.onCtl fun c => { c with copies := copy :: c.copies.take 1 })
    else (.ok, s.rejectCommit l)

/-- The committed set is applied again after a warm reset (R430): the checks from step 3, without the marks that only a
host's writes leave. -/
def State.reapply (s : State) : State :=
  match s.committedCopy with
  | none => s
  | some copy =>
    let v (a : Nat) : Nat := match copy.values.get? a with
      | some x => x.toNat
      | none => s.reg a
    let l := s.offences v false
    if l.isEmpty then s.acceptCommit s.stagedPages v copy.seq else s.rejectCommit l

/-! ### Rows -/

/-- CFG_COMMIT (R61): the write of CFG_COMMIT_HI. -/
def execCfgCommit (seq : BitVec 32) (s : State) : Answer := act s fun s => (cfgCommitOp seq.toNat s).2

/-- CFG_DISCARD (R63). -/
def execCfgDiscard (s : State) : Answer := act s cfgDiscardOp

/-- STAGED_WRITE (R59). -/
def execStagedWrite (page off : Nat) (value : BitVec 64) (s : State) : Answer := act s (stagedWriteOp page off value.toNat)

end Sys2Proof.Machine
end

