-- ==== Sys2Proof/Machine/Progress.lean ====
section
/-! DEFINITION. progress: what goes on by itself after a command that the device has work to do for: finished operations
answer, operations that waited start, work units that wait for nothing run, jobs whose turn has come begin. -/

namespace Sys2Proof.Machine

/-! ### Operations -/

/-- A finished operation answers whoever it serves; a walk takes its own reads (WALK_READ_DONE). -/
def State.finishOne (s : State) (i : Nat) : State :=
  match s.op? i with
  | none => s
  | some o =>
    if !o.finished then s
    else match o.src with
      | .agent => s.finishOp i
      | .twin => s.finishTwin i
      | .engine _ _ => s.engineOpDone i
      | .walk n => if (s.walk? n).any fun w => w.reading = some i then s else s.onJobs fun j => { j with ops := j.ops.del i }

/-- The numbers of the operations that meet a test. -/
def State.opsThat (s : State) (p : Op → Bool) : List Nat := (s.jobs.ops.filter fun e => p e.2).map (·.1)

def State.finishAll (s : State) : State := (s.opsThat (·.finished)).foldl (fun s i => s.finishOne i) s

/-- Operations that wait behind a fence, a frame or a tile start when they may, in the order of an arbiter (R222). -/
def State.startAll (s : State) : State :=
  let l := (s.jobs.ops.filter fun e => !e.2.started && !e.2.finished && !e.2.mirrored).map fun e => (e.1, e.2.tag, e.2.tenant)
  (fairOrder l.length l).foldl (fun s i => s.startOp i) s

/-- A table read of a walk: it is issued, and once its data has come the walk takes it (R181). -/
def walkReadDoneOp (n : Nat) (s : State) : State :=
  match s.walk? n with
  | none => s
  | some w => match w.reading with
    | none => s.walkRead n
    | some i => match s.op? i with
      | none => (s.onWalk n fun w => { w with reading := none }).walkRead n
      | some o => if o.finished then (s.onJobs fun j => { j with ops := j.ops.del i }).walkTake n o else s

/-! ### Jobs -/

/-- The units of a job that waited on engines of their own, and wait no more, run again. -/
def State.rerun (s : State) (i : Nat) (body : Ctx → Eng Unit) : State :=
  match s.job? i with
  | none => s
  | some j =>
    (j.blocked.filter fun b => b.misses.isEmpty).foldl (fun s b =>
      let c : Ctx := { job := i, unit := b.unit, engine := b.engine, array := b.array }
      s.runUnit c (failKey b.unit 0) (body c)) s

/-- A job of one unit runs it. -/
def State.runOnce (s : State) (i : Nat) (body : Ctx → Eng Unit) : State :=
  match s.job? i with
  | none => s
  | some j =>
    if j.stopped.isSome then s
    else if j.next = 0 && j.units != 0 then
      let c : Ctx := { job := i, unit := 0, engine := j.engine }
      (s.onJob i fun j => { j with next := 1 }).runUnit c (failKey 0 0) (body c)
    else s.rerun i body

/-- A merge that has failed before its switch has no more units (R371). -/
def State.mergeFailed (s : State) (i : Nat) : State :=
  match s.job? i with
  | none => s
  | some j => if j.units = 3 && j.firstFail.isSome && j.blocked.isEmpty then s.onJob i fun j => { j with finished := j.units } else s

/-- Work that an engine does of itself. -/
def State.ownRun (s : State) (i : Nat) (j : Job) : State :=
  match j.bind with
  | [0, _, _] => (s.rerun i hotUnit).hotEnd i
  | [kind, k] => (s.rerun i fun c => mergeOwn kind c k).mergeOwnEnd i
  | _ => s

/-- A running job whose kind of unit has no member left that takes work completes BUSY (R55, R249, R306). -/
def State.starved (s : State) (i : Nat) (j : Job) : State :=
  s.when (j.nextUnit.isSome && !s.kindsServe j) fun s => s.stopJob i .busy

/-- One job goes on as far as it can. -/
def State.jobStep (s : State) (i : Nat) : State :=
  match s.job? i with
  | none => s
  | some j =>
    if j.ty = 0 then s.when (s.boot.service = .full) fun s => s.ownRun i j
    else if j.stopped.isSome && j.phase != .done then s
    else match j.phase with
      | .ingress => s.ingressRun i
      | .done => s.targetRun i
      | .waiting =>
        if 0x310 ≤ j.ty && j.ty ≤ 0x311 then s.when (!s.kindsServe j) fun s => s.stopJob i .busy
        else (s.sessionGo i).searchGo i
      | .running =>
        match j.ty with
        | 1 | 2 | 3 | 4 => if s.bulkHolds j then s else s.runSeq (bulkUnit j.ty) Job.bulkKey i (j.units + j.blocked.length + 2)
        | 0x10 => s.runOnce i tierPolicyUnit
        | 0x11 => s.runSeq recodeUnit (fun _ u => failKey u 0) i (j.units + j.blocked.length + 2)
        | 0x100 | 0x101 => (s.starved i j).rerun i (matrixUnit j.ty)
        | 0x202 => s.runSeq (sessionWork j.ty) (fun _ u => failKey u 0) i (j.units + j.blocked.length + 2)
        | 0x203 => (s.starved i j).rerun i (sessionWork j.ty)
        | 0x204 | 0x205 => (s.runOnce i (sessionWork j.ty)).sleepAgain i
        | 0x310 | 0x311 => s.rerun i (embUnit j.ty)
        | 0x404 => (s.starved i j).rerun i (searchWork j)
        | 0x400 | 0x402 | 0x403 => s.runOnce i (searchWork j)
        | 0x405 | 0x406 => (s.runOnce i (searchWork j)).mergeFailed i
        | _ => s

/-- The jobs go on, in the order in which an engine's arbiter takes their accesses (R222). -/
def State.jobsGo (s : State) : State :=
  let l := s.jobs.jobs.map fun e => (e.1, e.2.tag, e.2.tenant)
  (fairOrder l.length l).foldl (fun s i => s.jobStep i) s

/-! ### Everything -/

/-- One pass. -/
def State.goOn (s : State) : State :=
  let s := ((s.finishAll.startAll).finishAll.jobsGo).finishAll
  ((s.retrainNext 8).drillProgress.evictResets).mergesAgain.twinHook

/-- What follows a command: a few passes, since an end may let another thing begin; what is left then goes on with the next
command. -/
def State.progress (s : State) : State := s.goOn.goOn.goOn

/-- The answer of a command whose effect is f and which may let work go on. -/
def work (s : State) (f : State → State) : Answer := act s fun s => (f s).progress

end Sys2Proof.Machine
end

