-- ==== Sys2Proof/Machine/Boot.lean ====
section
/-! DEFINITION. Bring-up (R405 to R413): the image check of the boot ROM, the training of the near and the bulk tier. -/

namespace Sys2Proof.Machine

/-! ### The boot flash (R411, R464, Table 14-2; log entry 6) -/

/-- Bytes of an image slot, and the place of the slot choice behind both slots. -/
def slotBytes : Nat := 16777216
def choiceAddr : Nat := 33554432

/-- One byte of the boot flash; an erased byte reads 0xFF. -/
def Boot.flashByte (b : Boot) (a : Nat) : Byte := ~~~ memGet b.flash a

/-- n bytes of a slot from an offset on. -/
def Boot.slotRead (b : Boot) (slot : Nat) : Nat → Nat → List Byte
  | _, 0 => []
  | off, n + 1 => b.flashByte (slot * slotBytes + off) :: b.slotRead slot (off + 1) n

/-- A field of an image header, least significant byte first. -/
def Boot.field (b : Boot) (slot off n : Nat) : Nat := leNat (b.slotRead slot off n)

/-- The slot choice. -/
def Boot.choice (b : Boot) : Nat := (b.flashByte choiceAddr).toNat % 2

/-- Write bytes to the boot flash. -/
def Boot.flashWrite (b : Boot) (a : Nat) (bs : List Byte) : Boot := { b with flash := memWrite b.flash a (bs.map (~~~ ·)) }

/-! ### RSASSA-PSS (RFC 8017, with SHA-256, MGF1 and a 32-byte salt) -/

/-- b to the power e modulo m, for exponents of n bits. -/
def powMod (m : Nat) : Nat → Nat → Nat → Nat
  | 0, _, _ => 1 % m
  | n + 1, b, e =>
    let h := powMod m n (b * b % m) (e / 2)
    if e % 2 = 1 then h * b % m else h

/-- MGF1 with SHA-256: n bytes. -/
def mgf1 (seed : List Byte) (n : Nat) : List Byte :=
  ((List.range (ceilDiv n 32)).flatMap fun i => sha256 (seed ++ beBytes 4 i)).take n

/-- Whether an encoded message of 384 bytes encodes a message. -/
def pssOk (m em : List Byte) : Bool :=
  let masked := em.take 351
  let h := slice em 351 32
  let db := (masked.zip (mgf1 h 351)).map fun (a, b) => a ^^^ b
  let db := match db with
    | [] => []
    | x :: xs => (x &&& 0x7F#8) :: xs
  let salt := db.drop 319
  (em.getD 0 0).toNat < 128 && em.getD 383 0 = 0xBC#8 && (db.take 318).all (· = 0#8) && db.getD 318 0 = 1#8 &&
    h = sha256 (List.replicate 8 0#8 ++ sha256 m ++ salt)

/-- Whether a signature verifies over a message under a public key. -/
def rsaVerifies (modulus exponent : Nat) (sig m : List Byte) : Bool :=
  let x := beNat sig
  x < modulus && pssOk m (beBytes 384 (powMod modulus 32 x exponent))

/-! ### The image check (R411) -/

/-- MAGIC and FORMAT, and a LENGTH that the slot can hold. -/
def Boot.headerOk (b : Boot) (slot : Nat) : Bool :=
  b.field slot 0 4 = 0x41444954 && b.field slot 4 4 = 1 && 1 ≤ b.field slot 20 4 && b.field slot 20 4 ≤ 16773120

/-- The error code of a slot: 0 when it is accepted (Table 14-12 ERR_A). -/
def Boot.check (b : Boot) (slot : Nat) : Nat :=
  if !b.headerOk slot then 1
  else if sha256 (b.slotRead slot 56 388) != Config.keyHash then 2
  else if !rsaVerifies (beNat (b.slotRead slot 56 384)) (b.field slot 440 4) (b.slotRead slot 512 384) (b.slotRead slot 0 512) then 3
  else if sha256 (b.slotRead slot 4096 (b.field slot 20 4)) != b.slotRead slot 24 32 then 4
  else if b.field slot 16 4 < b.fuseSvn then 5
  else 0

/-- The image that a slot holds. -/
def Boot.image (b : Boot) (slot : Nat) : Image :=
  { svn := b.field slot 16 4, digest := sha256 (b.slotRead slot 0 (4096 + b.field slot 20 4)) }

/-- A slot's error code in BOOT_STAT. -/
def Boot.setErr (b : Boot) (slot e : Nat) : Boot := if slot = 0 then { b with errA := e } else { b with errB := e }

/-- Ports that come up now. -/
def State.comeUp (s : State) (ports : List Nat) : State :=
  (ports.filter s.hasPort).foldl (fun s p =>
    s.onPort p fun q => { q with serviceDown := false, training := !q.up, tried := false }) s

/-- BOOT_IMAGE_VERIFIED: the slot of the slot choice, then the other; boot recovery when both fail (R411, R413). -/
def bootImageVerifiedOp (s : State) : State :=
  if s.boot.step != .rom then s
  else
    let first := s.boot.choice
    let start (s : State) (slot : Nat) : State := s.onBoot fun b =>
      { b with step := .command, recovery := false, slot := slot, fallback := slot != first, running := some (b.image slot) }
    let e1 := s.boot.check first
    let s := s.onBoot fun b => ({ b with errA := 0, errB := 0 } : Boot).setErr first e1
    if e1 = 0 then (start s first).comeUp [0, 1]
    else
      let other := 1 - first
      let e2 := s.boot.check other
      let s := s.onBoot fun b => b.setErr other e2
      if e2 = 0 then ((start s other).raise 5).comeUp [0, 1]
      else (s.onBoot fun b => { b with step := .recovery, recovery := true }).comeUp [0, 1]

/-! ### The near tier (R107) -/

/-- Whether the last reset was a cold one. -/
def State.coldBoot (s : State) : Bool := s.boot.lastKind ≤ 3

/-- A channel goes FAILED: its source is raised (R132). -/
def State.channelFails (s : State) (page : Nat) : State :=
  (s.onCtl fun c => { c with failed := if c.failed.contains page then c.failed else c.failed ++ [page] }).raise
    (channelSource page) { arg0 := 2 ^ 64 - 1 }

/-- NEAR_TIER_TRAINED: failed stacks are left out of N after a cold reset, N is kept after a warm one; ports 2 to 5 come
up and Greyscale service is offered in full. -/
def nearTierTrainedOp (failed : List Nat) (s : State) : State :=
  if s.boot.step != .command then s
  else
    let all := (List.range 8).filter fun n => s.present (nearPage n)
    let good := all.filter fun n => !failed.contains n
    let s := all.foldl (fun s n =>
      let s := s.onStore fun st => { st with near := st.near.put n { st.near.getD n { } with trained := good.contains n } }
      if good.contains n then s else s.channelFails (nearPage n)) s
    let keep := !s.coldBoot && !s.store.nearList.isEmpty
    let s := s.when (!keep) fun s => s.onStore fun st => { st with nearList := good }
    (s.onBoot fun b => { b with step := .near }).comeUp [2, 3, 4, 5]

/-! ### The bulk tier (R108, R109) -/

/-- The kinds of module on a channel: RDIMM or 3DS RDIMM, and MRDIMM. -/
def holdsRdimm (l : List Dimm) : Bool := l.any fun d => d.kind = .rdimm || d.kind = .rdimm3ds
def holdsMrdimm (l : List Dimm) : Bool := l.any fun d => d.kind = .mrdimm

/-- A population outside the supported column of Table 4-2, on the channel alone. -/
def badPopulation (l : List Dimm) : Bool :=
  l.isEmpty || 2 < l.length || (holdsRdimm l && holdsMrdimm l) ||
  l.any fun d => d.kind = .udimm || d.kind = .sodimm || !d.ecc || (d.width != 4 && d.width != 8) ||
    256000000000 < d.capacity || d.capacity < 16000000000

/-- The kind that is refused because fewer channels hold it: true for MRDIMM, which also loses a tie. -/
def losingKind (pops : List ChannelPop) : Option Bool :=
  let r := pops.countP fun p => holdsRdimm p.dimms
  let m := pops.countP fun p => holdsMrdimm p.dimms
  if r = 0 || m = 0 then none else some (m ≤ r)

/-- Whether a channel's population is refused. -/
def popRefused (pops : List ChannelPop) (l : List Dimm) : Bool :=
  badPopulation l || (match losingKind pops with
    | none => false
    | some true => holdsMrdimm l
    | some false => holdsRdimm l)

/-- The highest speed bin that the SPDs, the margins and SPEED_CAP allow, in 100 MT/s. -/
def speedBin (l : List Dimm) (margin cap : Nat) : Option Nat :=
  let top := l.foldl (fun m d => min m d.speed) (min margin cap)
  (if holdsMrdimm l then [88, 80] else [64, 56, 48]).find? (· ≤ top)

/-- The speed that a channel reaches alone; none when it fails. -/
def State.channelSpeed (s : State) (pops : List ChannelPop) (c : Nat) : Option Nat :=
  match pops.find? (·.channel = c) with
  | none => none
  | some p =>
    if p.trains && !popRefused pops p.dimms then speedBin p.dimms p.margin (s.reg (Reg.chSpeedCap (bulkPage c)) % 256) else none

/-- BULK_TIER_TRAINED: the channels that trained run at the lowest speed that any of them reached; after a cold reset they
form BULK_MAP, after a warm one the map is kept, and a channel of it that fails is lost until the next cold reset; a committed set is then applied again (R430). -/
def bulkTierTrainedOp (pops : List ChannelPop) (s : State) : State :=
  if s.boot.step != .near then s
  else
    let all := (List.range 16).filter fun c => s.present (bulkPage c)
    let good := all.filter fun c => (s.channelSpeed pops c).isSome
    let speed := match good.filterMap (s.channelSpeed pops) with
      | [] => 0
      | x :: xs => xs.foldl min x
    let keep := !s.coldBoot && !s.store.bulkMap.isEmpty
    let s := all.foldl (fun s c =>
      let dimms := match pops.find? (·.channel = c) with
        | some p => p.dimms
        | none => []
      let ok := good.contains c
      let old := s.store.bulk.getD c { }
      let cap := if keep && s.store.bulkMap.contains c then old.capacity else if ok then dimms.foldl (fun n d => n + d.capacity) 0 else 0
      let x : Channel := { old with trained := ok, lost := keep && (old.lost || (s.store.bulkMap.contains c && !ok)), refused := popRefused pops dimms, dimms := dimms,
                                    speed := if ok then speed else 0, capacity := cap }
      let s := s.onStore fun st => { st with bulk := st.bulk.put c x }
      if ok then s else s.channelFails (bulkPage c)) s
    let s := s.when (!keep) fun s => s.onStore fun st => { st with bulkMap := good }
    let s := s.onBoot fun b => { b with step := .bulk }
    s.when (s.reg Reg.rootCfgSeq != 0) State.reapply

/-! ### The reference clock (R465) -/

/-- REFCLK_LOST: a stop of more than 10 us stops every clocked island and is remembered. -/
def refclkLostOp (stoppedNs : Nat) (s : State) : State :=
  if stoppedNs ≤ 10000 then s
  else (s.setReg Reg.ppPpSticky (s.reg Reg.ppPpSticky ||| 1)).onBoot fun b => { b with refclk := false }

/-! ### Rows -/

/-- BOOT_IMAGE_VERIFIED (R411). -/
def execBootImageVerified (s : State) : Answer := act s bootImageVerifiedOp

/-- NEAR_TIER_TRAINED (R107). -/
def execNearTierTrained (failed : List Nat) (s : State) : Answer := work s (nearTierTrainedOp failed)

/-- BULK_TIER_TRAINED (R108). -/
def execBulkTierTrained (pops : List ChannelPop) (s : State) : Answer := work s (bulkTierTrainedOp pops)

/-- REFCLK_LOST (R465). -/
def execRefclkLost (stoppedNs : Nat) (s : State) : Answer := act s (refclkLostOp stoppedNs)

end Sys2Proof.Machine
end

