-- ==== Sys2Proof/Machine/Events.lean ====
section
/-! DEFINITION. The event controller (15_events_monitors_drills.md): records, the ring, beacons, masks, pending and
outstanding bits, counts. -/

namespace Sys2Proof.Machine

/-! ### Beacons (R444) -/

/-- Form and send the frame. -/
def State.sendBeacon (s : State) (n : Nat) : State :=
  let f : Frame := { ty := 0x40, flags := BitVec.twoPow 12 fUnseq, conn := 0xFFFFFF, len := 16,
                     payload := beBytes 4 (s.reg Reg.ecEvTail) ++ beBytes 4 (s.reg Reg.ecEvOverflow) ++ beBytes 8 s.now }
  let p := if (s.portSt 0).up then 0 else 1
  let ip := s.ip (if n = 0 then Reg.ecBeaconIp0 else Reg.ecBeaconIp1)
  let s := s.onEv fun e => { e with lastBeacon := e.lastBeacon.put n s.ran, lastAny := s.ran,
                                    beaconDue := e.beaconDue.filter (· != n) }
  (s.bump Reg.ecBeaconsSent).emit p ip (Config.sourcePort 0 0) f

/-- Send a beacon to target n, or keep it to the end of the 1 us spacing. In boot recovery none is sent (R459), nor by a
controller that reads OFF (R44). -/
def State.beaconTo (s : State) (n : Nat) : State :=
  if s.ownState 6 = .off || s.boot.step = .rom || s.boot.step = .recovery || !bit (s.reg Reg.ecBeaconCtrl) n then s
  else match s.ev.lastBeacon.get? n with
    | some t =>
      if s.since t 1000 then s.sendBeacon n
      else s.onEv fun e => { e with beaconDue := if e.beaconDue.contains n then e.beaconDue else e.beaconDue ++ [n] }
    | none => s.sendBeacon n
/-- A beacon to every enabled target. -/
def State.beacon (s : State) : State := (s.beaconTo 0).beaconTo 1

/-! ### Records (R439 to R443) -/

/-- Whether records can be written: the near tier is trained (R442, R459). -/
def State.canRecord (s : State) : Bool := s.boot.step = .near || s.boot.step = .bulk

/-- The lowest source that is pending, unmasked and not outstanding (R442). -/
def State.nextSource (s : State) : Option Nat :=
  (List.range 596).find? fun i => s.ev.pend.getLsbD i && !s.ev.masked i && !s.ev.out.getLsbD i

/-- The bytes of a record (Tables 15-3, 15-4). -/
def recordBytes (src seq : Nat) (a : RaiseArgs) (lost : Bool) : List Byte :=
  let flags := b2n (isLevel src) + 2 * b2n a.drill + 4 * b2n a.soft + 8 * b2n lost + 16 * b2n (src < 2)
  leBytes 2 src ++ leBytes 1 flags ++ leBytes 1 a.status ++ leBytes 4 seq ++ leBytes 8 a.time ++ leBytes 8 a.arg0 ++
    leBytes 4 a.arg1 ++ leBytes 2 a.count ++ leBytes 2 0

/-- EVENT_RECORD: the record of the lowest waiting source is written at EV_TAIL, or is lost to a full or disabled ring
(R442, R443). A controller that is asked to stop takes up no new record: raised sources wait (R44). -/
def eventRecordOp (s : State) : State :=
  if !s.canRecord || s.stopping 6 then s
  else match s.nextSource with
    | none => s
    | some src =>
      let a := s.ev.args.getD src { }
      let n := s.ringPlaces
      let tail := s.reg Reg.ecEvTail
      let s := s.onEv fun e => { e with out := setBit e.out src, args := e.args.del src }
      if !bit (s.reg Reg.ecEvRingCtrl) 0 || (tail + 1) % n = s.reg Reg.ecEvHead then
        (s.bump Reg.ecEvOverflow).onEv fun e => { e with lostBefore := true, ringRaised := true }
      else
        let wasEmpty := tail = s.reg Reg.ecEvHead
        let s := s.poke (s.reg Reg.ecEvRingBase + 32 * tail) (recordBytes src s.ev.seq a s.ev.lostBefore)
        let s := s.setReg Reg.ecEvTail ((tail + 1) % n)
        let s := s.onEv fun e => { e with seq := (e.seq + 1) % 2 ^ 32, lostBefore := false }
        if wasEmpty then s.beacon else s

/-- BEACON_REPEAT: the ring has stayed non-empty for REPEAT_MS since the last beacon (R444). -/
def beaconRepeatOp (s : State) : State :=
  if s.ringUsed != 0 && s.since s.ev.lastAny (bits (s.reg Reg.ecBeaconCtrl) 15 8 * 1000000) then s.beacon else s

/-- BEACON_DEFERRED: the beacons kept back whose spacing has passed (R444). -/
def beaconDeferredOp (s : State) : State :=
  s.ev.beaconDue.foldl (fun s n =>
    if s.since (s.ev.lastBeacon.getD n 0) 1000 then s.beaconTo n else s) s

/-! ### Host writes (R440, R441, R446, R447, R460) -/

/-- EV_DONE. -/
def evDoneOp (src : Nat) (s : State) : State :=
  let s :=
    if s.ev.out.getLsbD src then
      s.onEv fun e => { e with out := clearBit e.out src, pend := clearBit e.pend src, args := e.args.del src }
    else s.bump Reg.ecEvDoneIdle
  let s := s.when (src = 595) fun s => s.onEv fun e => { e with ringRaised := false }
  s.resample src

/-- EV_COUNT_CLR. -/
def evCountClrOp (src : Nat) (s : State) : State := s.onEv fun e => { e with counts := e.counts.put src 0 }

/-- The 32 sources of a word. -/
def wordSources (w : Nat) : List Nat := (List.range 32).map (32 * w + ·)

/-- The bits of a word that belong to sources which exist; the rest read 0 in every event register (R436). -/
def State.validWord (s : State) (w : Nat) (v : BitVec 32) : BitVec 32 :=
  (List.range 32).foldl (fun x i => if s.sourceValid (32 * w + i) then x else x &&& ~~~ BitVec.twoPow 32 i) v

/-- One 32-bit word of a vector of sources. -/
def wordOf (v : BitVec 1024) (w : Nat) : BitVec 32 := v.extractLsb' (32 * w) 32

/-- Replace one 32-bit word of a vector of sources. -/
def putWord (v : BitVec 1024) (w : Nat) (x : BitVec 32) : BitVec 1024 :=
  (v &&& ~~~ ((BitVec.allOnes 32).setWidth 1024 <<< (32 * w))) ||| (x.setWidth 1024 <<< (32 * w))

/-- Every level source of a word is sampled again (R447). -/
def State.resampleWord (s : State) (w : Nat) : State := (wordSources w).foldl (fun s src => s.resample src) s

/-- EV_MASK: the word is stored. -/
def evMaskOp (w : Nat) (v : BitVec 32) (s : State) : State :=
  if 32 ≤ w then s
  else
    let v := s.validWord w v
    (s.onEv fun e => { e with mask := putWord e.mask w v }).resampleWord w

/-- EV_PEND: a 0 clears pending and outstanding, a 1 where 0 was is a soft raise (R447). -/
def evPendOp (w : Nat) (v : BitVec 32) (s : State) : State :=
  if 32 ≤ w then s
  else
    let v := s.validWord w v
    let old := wordOf s.ev.pend w
    let gone := (List.range 32).filter fun i => !v.getLsbD i
    let new := (List.range 32).filter fun i => v.getLsbD i && !old.getLsbD i
    let s := s.onEv fun e =>
      { e with pend := putWord e.pend w v, out := putWord e.out w (wordOf e.out w &&& v),
               args := gone.foldl (fun a i => a.del (32 * w + i)) e.args }
    let s := new.foldl (fun s i => s.onEv fun e =>
      let a : RaiseArgs := { time := s.now, soft := true, count := e.counts.getD (32 * w + i) 0 }
      { e with args := e.args.put (32 * w + i) a }) s
    s.resampleWord w

/-- EV_HEAD: ring places are freed; a value outside EV_HEAD to EV_TAIL is refused (R441, R444). -/
def evHeadOp (v : BitVec 32) (s : State) : State :=
  let h := v.toNat % 2 ^ 19
  let n := s.ringPlaces
  let head := s.reg Reg.ecEvHead
  if n ≤ h || s.ringUsed < (h + n - head) % n then s.refuse
  else
    let s := s.setReg Reg.ecEvHead h
    if s.ringUsed != 0 then s.beacon else s

/-- EV_RING_CTRL: checked, and the ring begins anew (R440). -/
def evRingCtrlOp (v : BitVec 32) (s : State) : State :=
  let size := bits v.toNat 4 1
  let bytes := 4096 * 2 ^ size
  let base := s.reg Reg.ecEvRingBase
  let ok := size ≤ 12 && base % bytes = 0 && base + bytes ≤ s.nearPlaced * 2 ^ 30 &&
    extentOf base = extentOf (base + bytes - 1)
  if ok then
    let s := s.setReg Reg.ecEvRingCtrl (v.toNat % 32)
    let s := (s.setReg Reg.ecEvHead 0).setReg Reg.ecEvTail 0
    s.onEv fun e => { e with ringBad := false, ringOk := bit v.toNat 0 }
  else s.onEv fun e => { e with ringBad := true }

/-! ### Rows -/

/-- EVENT_RECORD (R442). -/
def execEventRecord (s : State) : Answer := act s eventRecordOp

/-- BEACON_REPEAT (R444). -/
def execBeaconRepeat (s : State) : Answer := act s beaconRepeatOp

/-- BEACON_DEFERRED (R444). -/
def execBeaconDeferred (s : State) : Answer := act s beaconDeferredOp

/-- EV_DONE (R446). -/
def execEvDone (source : Nat) (s : State) : Answer := act s (evDoneOp (source % 1024))

/-- EV_COUNT_CLR (R460). -/
def execEvCountClr (source : Nat) (s : State) : Answer := act s (evCountClrOp (source % 1024))

/-- EV_MASK (R447). -/
def execEvMask (word : Nat) (value : BitVec 32) (s : State) : Answer := act s (evMaskOp word value)

/-- EV_PEND (R447). -/
def execEvPend (word : Nat) (value : BitVec 32) (s : State) : Answer := act s (evPendOp word value)

/-- EV_HEAD (R441). -/
def execEvHead (value : BitVec 32) (s : State) : Answer := act s (evHeadOp value)

/-- EV_RING_CTRL (R440). -/
def execEvRingCtrl (value : BitVec 32) (s : State) : Answer := act s (evRingCtrlOp value)

end Sys2Proof.Machine
end

