-- ==== Sys2Proof/Machine/Reset.lean ====
section
/-! DEFINITION. Resets of the device (R427 to R434): what a requested reset completes first, what each kind keeps, and the
commands that start one. -/

namespace Sys2Proof.Machine

/-! ### What a requested reset completes first (Table 14-9 steps 1 and 2; R211, R399) -/

/-- Every admitted request is answered: jobs, bulk operations and what still waits complete RESET; mirrored operations
are left to the partner. -/
def State.answerAll (s : State) : State :=
  let jobs := s.jobs.jobs.filter fun e => e.2.ty != 0
  let s := jobs.foldl (fun s e => s.sendJobDone e.1 e.2 .reset (e.2.record .reset false s.now 0 e.2.resetDetail)) s
  let ops := s.jobs.ops.filter fun e => e.2.src = .agent && !e.2.mirrored
  let s := ops.foldl (fun s e =>
    (s.onJobs fun j => { j with ops := j.ops.del e.1 }).respond e.2.conn e.2.f .reset) s
  let s := s.xlat.invals.vals.foldl (fun s v => s.respond v.conn v.f .reset) s
  let s := s.boot.waiting.foldl (fun s w => s.refuseWaiting w .reset) s
  let waits := s.twin.carried.filterMap (·.wait) ++ s.jobs.peers.vals.filterMap (·.wait)
  waits.foldl (fun s w => s.respond w.1 w.2 .reset) s

/-- RESET_NOTICE to the partner: 1 before a warm reset, 2 before a cold one (R399, Table 13-2). -/
def State.sendNotice (s : State) (aux : Nat) : State :=
  s.when s.twinOpen fun s => s.sendTwin (twinFrame 0x60 0 0 0 aux noKey 0 [])

/-! ### Side records that no epoch has committed (R358) -/

/-- Set or clear one bit of a bitmap of a collection. -/
def State.undoBit (s : State) (t va id : Nat) (set : Bool) : State :=
  match s.peekRanges t va 1 with
  | (pa, _) :: _ =>
    let m := BitVec.twoPow 8 (id % 8)
    let b := s.byte (offOf pa)
    s.poke (offOf pa) [if set then b ||| m else b &&& ~~~m]
  | [] => s

/-- Undo the records of epoch + 1 that follow the committed ones. -/
def undoSide (x : Collection) : Nat → Nat → State → State
  | 0, _, s => s
  | n + 1, k, s =>
    let bs := (s.peekRanges x.tenant (x.sideAt k) 16).flatMap fun (pa, len) => s.bytes (offOf pa) len
    if k < x.sideMax && leField bs 0 8 = x.epoch + 1 then
      let id := leField bs 8 4
      let s :=
        if leField bs 12 1 = 1 then s.undoBit x.tenant (x.liveAt id) id false
        else (s.undoBit x.tenant (x.liveAt id) id true).undoBit x.tenant (x.quarAt id) id false
      undoSide x n (k + 1) s
    else s

/-- Every collection returns to its last epoch. -/
def State.undoAll (s : State) : State :=
  s.srch.colls.vals.foldl (fun s x => if x.opened then undoSide x 65536 x.sideUsed s else s) s

/-! ### What a warm reset keeps (Table 14-10) -/

/-- Registers whose value a warm reset keeps: RWS ones, the Ash log's, EV_TAIL, and PP_STICKY (R159, R459). -/
def warmReg (a : Nat) : Bool :=
  a = Reg.dsAshLogHead || a = Reg.dsAshLogLost || a = Reg.ecEvTail || a = Reg.ppPpSticky ||
    (findReg (a / 4096) (a % 4096)).any fun r => r.1.acc = .rws

/-- The control space: the kept registers and the copies of the committed set. -/
def Control.warm (c : Control) : Control := { regs := c.regs.filter (fun r => warmReg r.1), copies := c.copies }

/-- Boot state of every reset: the boot ROM is about to run; fuses, flash and standby logic are kept. -/
def Boot.again (b : Boot) (kind : Nat) (saved : Bool) (incarn : BitVec 8) : Boot :=
  { incarn := incarn, standby := some incarn, order := b.order, stepping := b.stepping, fuseSvn := b.fuseSvn, flash := b.flash,
    slot := b.slot, verified := b.verified, lastKind := kind, saved := saved }

/-- TIME is kept; its disciplining begins anew. -/
def TimeBase.again (t : TimeBase) : TimeBase := { now := t.now, frac := t.frac, ran := t.ran, ranFrac := t.ranFrac }

/-- A port after a reset: the health of its lanes alone is kept. -/
def PortSt.again (q : PortSt) : PortSt := { lanesGood := q.lanesGood }

/-- Every connection is IDLE, its number free (R97); associations and join keys are kept. -/
def Net.warm (n : Net) (now : Nat) : Net :=
  { ports := n.ports.map fun (p, q) => (p, q.again), sas := n.sas, joinKeys := n.joinKeys, nextConn := n.nextConn,
    freed := (n.conns.map (·.1)).foldl (fun t c => if c = twinConn then t else t.put c now) n.freed, sent := n.sent }

/-- The store is kept; a move not yet switched is made again, an unmute is begun again by the next access (R434). -/
def Store.warm (st : Store) (now : Nat) : Store :=
  let gone := (st.moves.filter fun m => m.2.cause = .unmute).map (·.1)
  { st with
    corrected := []
    revs := st.revs.map fun (e, r) => (e, { r with tO := none, due := [] })
    tiles := st.tiles.map fun (t, x) => (t, if gone.contains t then { x with moving := false } else x)
    moves := (st.moves.filter fun m => m.2.cause != .unmute).map fun (t, m) =>
      (t, { m with pass := 1, marked := [], waiting := [] })
    freeing := []
    near := st.near.map fun (c, x) => (c, { x with trained := false })
    bulk := st.bulk.map fun (c, x) => (c, { x with trained := false })
    windowAt := [now, now] }

/-- The rehome list of a requested warm reset (R170). -/
def rehomeList (dir : Tbl DirEntry) : Tbl DirEntry :=
  dir.filterMap fun (l, e) => match e.st with
    | .m | .o | .rhm => some (l, { st := .rhm, owner := e.owner })
    | .ash => some (l, { st := .ash })
    | _ => none

/-- The ASH entries that a forced warm reset restores from the Ash log (R171). -/
def State.loggedAsh (s : State) : Tbl DirEntry :=
  s.coh.log.foldl (fun t (i, a) => if s.logLive i && !a.cleared then t.put a.line { st := .ash } else t) []

/-- Coherence after a warm reset. -/
def State.warmCoh (s : State) (forced : Bool) : Coherence :=
  { dir := if forced then s.loggedAsh else rehomeList s.coh.dir, nextMsg := s.coh.nextMsg,
    log := s.coh.log, rehomeSt := .awaiting, rehomeSaved := !forced, forcedHold := forced || s.coh.forcedHold,
    clock := s.coh.clock }

/-- Contexts are kept, every cache, walk and batch is gone (R197). -/
def Xlat.warm (x : Xlat) : Xlat := { ctx := x.ctx, pendCtrl := x.pendCtrl, pendRoot := x.pendRoot }

/-- Credits, weights and finish tags are kept (R223). -/
def Jobs.warm (j : Jobs) : Jobs := { nextOp := j.nextOp, nextJob := j.nextJob, tenants := j.tenants }

/-- The palette table is kept; builds and histogram units begin anew (R287). -/
def Palettes.warm (p : Palettes) : Palettes := { slots := p.slots.map fun (n, x) => (n, { x with build := none }) }

/-- Only the current version of a table, without hot rows and counts (R343); a table whose TABLE_CLOSE has been admitted, and
so written through, is closed (R341). -/
def Table.warm (t : Table) : Table :=
  if t.closing.isSome then { gen := t.gen }
  else
  { gen := t.gen, opened := t.opened, tenant := t.tenant, rowsTotal := t.rowsTotal, e := t.e, fmt := t.fmt, tflags := t.tflags,
    versions := (t.current.toList).map fun v => { v with bound := 0, tracker := [], hotSlots := [], windows := 0, due := [] } }

/-- A running merge is PENDING, a switched one drains on; hints are gone (R371, R373). -/
def Collection.warm (x : Collection) : Collection :=
  { x with closing := none, hints := [], merge := x.merge.stop }

/-- Leases, the dirty bitmap and the pair key are kept, and the resynchronisation goes on from its last checkpoint once the
pair is open (R401, R402). -/
def Twin.warm (t : Twin) (now : Nat) : Twin :=
  { key := t.key, leases := t.leases.map fun (e, x) => (e, { x with given := false, partner := 0 }), dirty := t.dirty,
    resync := t.resync.map fun r => { r with suspended := true, todo := [], pass := 1 }, lastHeard := now, lastRenew := now,
    lastBeat := now }

/-- The ring's state and the SEQ count are kept (R459). -/
def Events.warm (e : Events) : Events := { seq := e.seq, ringOk := e.ringOk, ringBad := e.ringBad }

/-- A monitor slot begins anew with its configuration (R459). -/
def State.monAgain (s : State) (m : Nat) : State :=
  if (s.slot m).run then
    let s := s.onSlot m fun x => { run := true, badProbe := x.badProbe }
    let s := s.when (bit (s.reg (Reg.moMonCtrl (monPage m))) 1) fun s => s.histAsk (m % 2) (.monitor m)
    let w := s.monW m
    let win := s.newWin m true
    s.onSlot m fun x => { x with now := win, nextClose := if w = 0 then 0 else (s.now / w + 1) * w }
  else s.onSlot m fun x => { badProbe := x.badProbe }

/-- Builds under way ask for their histogram units again, then running monitor slots do. -/
def State.histAgain (s : State) (slots : List Nat) : State :=
  let s := slots.foldl (fun s n => s.buildAsk n) s
  (s.mon.map (·.1)).foldl (fun s m => s.monAgain m) s

/-- A warm reset of a kind (Table 14-8); a forced one saves no rehome list (R429). -/
def State.warmReset (s : State) (kind : Nat) (forced : Bool) : State :=
  let s := (s.drillEnds .ok).undoAll
  let builds := (s.pal.slots.filter fun e => e.2.build.isSome).map (·.1)
  let now := s.ran
  let s : State :=
    { s with
      ctl := s.ctl.warm
      boot := s.boot.again kind (!forced) (s.boot.incarn + 1)
      time := s.time.again
      net := s.net.warm now
      store := s.store.warm now
      coh := s.warmCoh forced
      xlat := s.xlat.warm
      jobs := s.jobs.warm
      pal := s.pal.warm
      emb := { tables := s.emb.tables.map fun (n, t) => (n, t.warm), windowAt := now }
      srch := { colls := s.srch.colls.map fun (n, x) => (n, x.warm) }
      twin := s.twin.warm now
      ev := s.ev.warm
      drill := { }
      pwr := { s.pwr with paceLow := false }
      quiet := { } }
  (s.histAgain builds).bump Reg.mgResetCount

/-- A warm reset that was requested: Table 14-9. -/
def State.requestedWarm (s : State) : State := ((s.answerAll).sendNotice 1).warmReset 4 false

/-! ### Cold resets -/

/-- A cold reset of a kind: everything but TIME, standby logic, fuses and the boot flash returns to its reset value. -/
def State.coldReset (s : State) (kind : Nat) (incarn : BitVec 8) : State :=
  let sticky := s.reg Reg.ppPpSticky
  let s : State :=
    { pending := s.pending, free := s.free, boot := s.boot.again kind false incarn, time := s.time.again,
      net := { ports := s.net.ports.map fun (p, q) => (p, q.again), joinKeys := [(0, Config.fusedJoinKey)],
               nextConn := s.net.nextConn, sent := s.net.sent,
               freed := (s.net.conns.map (·.1)).foldl (fun t c => if c = twinConn then t else t.put c s.ran) s.net.freed }
      pwr := { s.pwr with thermal := 850, power := 850, req := 750, limit := 0, unacked := false, above := false, paceLow := false } }
  if sticky = 0 then s else s.setReg Reg.ppPpSticky sticky

/-- A cold reset adds 1 to the incarnation that standby logic holds (R431). -/
def State.nextIncarn (s : State) : BitVec 8 := (s.boot.standby.getD s.boot.incarn) + 1

/-- A cold reset that was requested. -/
def State.requestedCold (s : State) : State :=
  let s := (s.answerAll).sendNotice 2
  s.coldReset 2 s.nextIncarn

/-- COLD_RESET_N held low: it works without a running clock, and recovers from its loss (R465). -/
def coldBallOp (heldNs : Nat) (s : State) : State :=
  if s.boot.powered && 1000 ≤ heldNs then s.coldReset 3 s.nextIncarn else s

/-- WARM_RESET_N held low: a requested warm reset. -/
def warmBallOp (heldNs : Nat) (s : State) : State := if 1000 ≤ heldNs then s.requestedWarm else s

/-- POWER_GOOD rises: bring-up begins with TIME at 0; the incarnation is random unless standby logic held it (R431). -/
def powerGoodOp (s : State) : State :=
  if s.boot.powered then s
  else match s.boot.standby with
    | some v =>
      let s := s.coldReset 1 (v + 1)
      { s with time := { }, net := { s.net with freed := [] } }
    | none =>
      let (v, s) := s.draw
      let s := s.coldReset 1 (BitVec.ofNat 8 v)
      { s with time := { }, net := { s.net with freed := [] } }

/-- POWER_DOWN: the store contents are lost, and with VSTBY what standby logic holds (R470, R471). -/
def powerDownOp (loss : PowerLoss) (s : State) : State :=
  if !s.boot.powered then s
  else
    let s := { s with store := { }, boot := { s.boot with powered := false } }
    if loss.vstby then s
    else
      let s := s.onCtl fun c => { c with regs := c.regs.del Reg.ppPpSticky }
      s.onBoot fun b => { b with standby := none }

/-! ### Forced resets (R415, R429, R438) -/

/-- The Adith controller runs: an image has been started. -/
def State.adithRuns (s : State) : Bool := s.boot.step != .rom && s.boot.step != .recovery

/-- The Adith controller restarts (R414, R415): counted, source 4; UNIT_RESET of the management unit reads 1 until it
has. -/
def State.adithRestart (s : State) : State :=
  let s := (s.bump Reg.mgAdithRestarts).onBoot fun b => { b with restarting := true }
  let s := s.onCtl fun c => { c with resetting := if c.resetting.contains 9 then c.resetting else c.resetting ++ [9] }
  s.raise 4

/-- WATCHDOG_EXPIRY: a restart from the running image; a further expiry within 10 s of it forces a warm reset. -/
def watchdogExpiryOp (s : State) : State :=
  if !s.adithRuns then s
  else
    let again := s.boot.lastRestart.any fun t => !s.since t 10000000000
    let s := s.bump Reg.mgWdExpiries
    if again then s.warmReset 5 true
    else (s.onBoot fun b => { b with lastRestart := some s.ran }).adithRestart

/-- DEVICE_FATAL: the source and the TIME of the raise are kept, the record is written where it can be, and a forced warm
reset of kind 6 begins (R438). -/
def deviceFatalOp (cause : Nat) (s : State) : State :=
  if 2 ≤ cause then s
  else
    let s := (s.setReg Reg.ecFatalLast (2 ^ 31 + cause)).setReg Reg.ecFatalTime s.now
    let s := s.raise cause
    let empty := s.ringUsed = 0
    let s := eventRecordOp s
    let s := s.when (!empty && s.canRecord) State.beacon
    s.warmReset 6 true

/-! ### Rows -/

/-- POWER_GOOD (R405). -/
def execPowerGood (s : State) : Answer := .next (powerGoodOp s)

/-- COLD_RESET_N (R427). -/
def execColdResetN (heldNs : Nat) (s : State) : Answer := .next (coldBallOp heldNs s)

/-- WARM_RESET_N (R427). -/
def execWarmResetN (heldNs : Nat) (s : State) : Answer := act s (warmBallOp heldNs)

/-- RESET_CMD_WARM (R428). -/
def execResetCmdWarm (s : State) : Answer := act s State.requestedWarm

/-- RESET_CMD_COLD (R428). -/
def execResetCmdCold (s : State) : Answer := act s State.requestedCold

/-- RESET_CMD_BAD_KEY (R427). -/
def execResetCmdBadKey (key : BitVec 16) (s : State) : Answer := act s fun s => if key = 0x7E57 then s else s.refuse

/-- WATCHDOG_EXPIRY (R415). -/
def execWatchdogExpiry (s : State) : Answer := act s watchdogExpiryOp

/-- DEVICE_FATAL (R438). -/
def execDeviceFatal (cause : Nat) (s : State) : Answer := act s (deviceFatalOp cause)

/-- POWER_DOWN (R470): an overvoltage is outside what R471 speaks of. -/
def execPowerDown (loss : PowerLoss) (s : State) : Answer :=
  if loss.overvolt && s.boot.powered then .fault .railOvervoltage else .next (powerDownOp loss s)

end Sys2Proof.Machine
end

