-- ==== Sys2Proof/Machine/Attest.lean ====
section
/-! DEFINITION. The SPDM 1.2 responder (R416 to R418, Tables 14-3 and 14-4). The layouts of the messages are those of DMTF
DSP0274 1.2, which spec/ names and does not print. -/

namespace Sys2Proof.Machine

/-! ### Requests and responses -/

/-- Request codes of Table 14-3. -/
def spdmCodes : List Nat := [0x84, 0xE1, 0xE3, 0x81, 0x82, 0x83, 0xE0]

/-- An ERROR response. -/
def spdmError (code data : Nat) : List Byte := [0x12#8, 0x7F#8, BitVec.ofNat 8 code, BitVec.ofNat 8 data]

/-- The opening of a response: version 1.2, code and two parameters. -/
def spdmHead (code p1 p2 : Nat) : List Byte := [0x12#8, BitVec.ofNat 8 code, BitVec.ofNat 8 p1, BitVec.ofNat 8 p2]

/-- The bytes of the request in SPDM_BUF. -/
def State.spdmRequest (s : State) : List Byte :=
  ((List.range 256).flatMap fun i => leBytes 4 (s.reg (Reg.mgSpdmBuf + 4 * i))).take (s.reg Reg.mgSpdmLen % 2048)

/-- The response stands in SPDM_BUF, its length in SPDM_STAT.RSP_LEN. -/
def State.spdmPut (s : State) (r : List Byte) : State :=
  let s := (List.range (ceilDiv r.length 4)).foldl (fun s i => s.setReg (Reg.mgSpdmBuf + 4 * i) (leField r (4 * i) 4)) s
  s.setReg Reg.mgSpdmStat (r.length * 65536)

/-- The digest of the certificate chain of slot 0. -/
def chainDigest : List Byte := sha256 Config.certChain

/-! ### Measurements (Table 14-4) -/

/-- The committed set's digest: over its records in the form of R60, zeros when there is none. -/
def State.committedDigest (s : State) : List Byte :=
  match s.committedCopy with
  | none => List.replicate 32 0#8
  | some c => sha256 (recordsOf s.stagedPages fun a => match c.values.get? a with
    | some x => x.toNat
    | none => s.reg a)

/-- The ordering code as ORDER_CODE.CODE reads it. -/
def OrderCode.code : OrderCode → Nat
  | .a => 0
  | .b => 1
  | .c => 2

/-- The value type and the value of a measurement index. -/
def State.measurement (s : State) (i : Nat) : Nat × List Byte :=
  let run : Image := s.boot.running.getD { svn := 0, digest := List.replicate 32 0#8 }
  match i with
  | 1 => (0x00, slice Config.bootRomDigest 0 32)
  | 2 => (0x01, run.digest)
  | 3 => (0x87, leBytes 4 run.svn ++ leBytes 4 s.boot.fuseSvn)
  | 4 => (0x03, s.committedDigest)
  | _ => (0x82, leBytes 4 s.boot.order.code)

/-- A measurement block. -/
def State.measBlock (s : State) (i : Nat) : List Byte :=
  let (ty, v) := s.measurement i
  [BitVec.ofNat 8 i, 1#8] ++ leBytes 2 (v.length + 3) ++ [BitVec.ofNat 8 ty] ++ leBytes 2 v.length ++ v

/-- Every measurement block. -/
def State.measAll (s : State) : List Byte := ([1, 2, 3, 4, 5] : List Nat).flatMap s.measBlock

/-! ### Signatures -/

/-- The 100 bytes that SPDM 1.2 puts before the hash of a signed transcript. -/
def signContext (context : List Byte) : List Byte :=
  let one : List Byte := "dmtf-spdm-v1.2.*".toUTF8.toList.map fun b => BitVec.ofNat 8 b.toNat
  one ++ one ++ one ++ one ++ List.replicate (36 - context.length) 0#8 ++ context

/-- Bytes of a text. -/
def textBytes (t : String) : List Byte := t.toUTF8.toList.map fun b => BitVec.ofNat 8 b.toNat

/-- 32 fresh random bytes. -/
def State.nonce32 (s : State) : List Byte × State :=
  let (v, s) := s.draw
  (leBytes 32 v, s)

/-- The identity key's signature over a transcript. -/
def State.signed (s : State) (context transcript : List Byte) : List Byte × State :=
  let (v, s) := s.draw
  (slice (Config.identitySign v (signContext context ++ sha256 transcript)) 0 384, s)

/-! ### The requests of Table 14-3 -/

def State.onSpdm (s : State) (f : Spdm → Spdm) : State := s.onBoot fun b => { b with spdm := f b.spdm }

/-- GET_VERSION: the exchange begins anew. -/
def spdmVersion (req : List Byte) (s : State) : List Byte × State :=
  let r : List Byte := [0x10#8, 0x04#8, 0#8, 0#8, 0#8, 1#8, 0x00#8, 0x12#8]
  (r, s.onSpdm fun _ => { phase := 1, vca := req ++ r })

/-- GET_CAPABILITIES. -/
def spdmCapabilities (req : List Byte) (s : State) : List Byte × State :=
  let r := spdmHead 0x61 0 0 ++ [0#8, 20#8, 0#8, 0#8] ++ leBytes 4 0x16 ++ leBytes 4 1024 ++ leBytes 4 1024
  (r, s.onSpdm fun x => { x with phase := 2, vca := x.vca ++ req ++ r })

/-- NEGOTIATE_ALGORITHMS: RSASSA-PSS 3072 and SHA-256 where offered; a request that offers neither is an ERROR. -/
def spdmAlgorithms (req : List Byte) (s : State) : List Byte × State :=
  let asym := leField req 8 4 &&& 8
  let hash := leField req 12 4 &&& 1
  if asym = 0 && hash = 0 then (spdmError 0x01 0, s)
  else
    let r := spdmHead 0x63 0 0 ++ leBytes 2 36 ++ [1#8, 0#8] ++ leBytes 4 2 ++ leBytes 4 asym ++ leBytes 4 hash ++
      List.replicate 16 0#8
    (r, s.onSpdm fun x => { x with phase := 3, vca := x.vca ++ req ++ r })

/-- GET_DIGESTS. -/
def spdmDigests (req : List Byte) (s : State) : List Byte × State :=
  let r := spdmHead 0x01 0 1 ++ chainDigest
  (r, s.onSpdm fun x => { x with certs := x.certs ++ req ++ r })

/-- GET_CERTIFICATE: a portion of at most 1,016 bytes of slot 0. -/
def spdmCertificate (req : List Byte) (s : State) : List Byte × State :=
  let off := leField req 4 2
  let all := Config.certChain.length
  if leField req 2 1 % 16 != 0 || all ≤ off then (spdmError 0x01 0, s)
  else
    let n := min (min (leField req 6 2) 1016) (all - off)
    let r := spdmHead 0x02 0 0 ++ leBytes 2 n ++ leBytes 2 (all - off - n) ++ slice Config.certChain off n
    (r, s.onSpdm fun x => { x with certs := x.certs ++ req ++ r })

/-- CHALLENGE over slot 0, with a summary hash of type none or all. -/
def spdmChallenge (req : List Byte) (s : State) : List Byte × State :=
  let kind := leField req 3 1
  if leField req 2 1 != 0 || (kind != 0 && kind != 0xFF) then (spdmError 0x01 0, s)
  else
    let (nonce, s) := s.nonce32
    let sum := if kind = 0 then [] else sha256 s.measAll
    let r := spdmHead 0x03 0 1 ++ chainDigest ++ nonce ++ sum ++ leBytes 2 0
    let x := s.boot.spdm
    let (sig, s) := s.signed (textBytes "responder-challenge_auth signing") (x.vca ++ x.certs ++ req ++ r)
    (r ++ sig, s.onSpdm fun x => { x with certs := [] })

/-- GET_MEASUREMENTS: the number of indices, one of them, or all; signed when requested. -/
def spdmMeasurements (req : List Byte) (s : State) : List Byte × State :=
  let sign := bit (leField req 2 1) 0
  let i := leField req 3 1
  if (5 < i && i != 0xFF) || (sign && req.length < 37) then (spdmError 0x01 0, s)
  else
    let (nonce, s) := s.nonce32
    let blocks := if i = 0 then [] else if i = 0xFF then s.measAll else s.measBlock i
    let count := if i = 0 then 0 else if i = 0xFF then 5 else 1
    let r := spdmHead 0x60 (if i = 0 then 5 else 0) 0 ++ leBytes 1 count ++ leBytes 3 blocks.length ++ blocks ++ nonce ++ leBytes 2 0
    if sign then
      let x := s.boot.spdm
      let (sig, s) := s.signed (textBytes "responder-measurements signing") (x.vca ++ x.meas ++ req ++ r)
      (r ++ sig, s.onSpdm fun x => { x with meas := [] })
    else (r, s.onSpdm fun x => { x with meas := x.meas ++ req ++ r })

/-- Bytes that a request of a code has at least. -/
def spdmMin (code : Nat) : Nat :=
  match code with
  | 0xE1 => 20
  | 0xE3 => 32
  | 0x82 => 8
  | 0x83 => 36
  | _ => 4

/-- The response to a request of a code, the order of SPDM 1.2 first (R418). -/
def spdmAnswer (code : Nat) (req : List Byte) (s : State) : List Byte × State :=
  let phase := s.boot.spdm.phase
  let wants := if code = 0xE1 then 1 else if code = 0xE3 then 2 else 3
  if !spdmCodes.contains code then (spdmError 0x07 code, s)
  else if req.length < spdmMin code then (spdmError 0x01 0, s)
  else if code = 0x84 then spdmVersion req s
  else if phase != wants then (spdmError 0x04 0, s)
  else if leField req 0 1 != 0x12 then (spdmError 0x41 0, s)
  else match code with
    | 0xE1 => spdmCapabilities req s
    | 0xE3 => spdmAlgorithms req s
    | 0x81 => spdmDigests req s
    | 0x82 => spdmCertificate req s
    | 0x83 => spdmChallenge req s
    | _ => spdmMeasurements req s

/-- SPDM_CMD.GO (R417): BUSY during a restart of the Adith controller (R415). -/
def spdmGoOp (s : State) : Status × State :=
  if s.boot.restarting then (.busy, s)
  else
    let req := s.spdmRequest
    let (r, s) := spdmAnswer (leField req 1 1) req s
    (.ok, s.spdmPut r)

/-- GO with a request of the given code in SPDM_BUF: a row fixes the code. -/
def spdmRow (code : Nat) (s : State) : State :=
  if s.boot.restarting then s
  else
    let req := s.spdmRequest
    let (r, s) := spdmAnswer code (req.set 1 (BitVec.ofNat 8 code)) s
    s.spdmPut r

/-- GO with a request outside Table 14-3. -/
def spdmUnsupportedOp (s : State) : State :=
  if s.boot.restarting then s else s.spdmPut (spdmError 0x07 (leField s.spdmRequest 1 1))

/-! ### Rows -/

/-- GET_VERSION (R418). -/
def execGetVersion (s : State) : Answer := act s (spdmRow 0x84)

/-- GET_CAPABILITIES (R418). -/
def execGetCapabilities (s : State) : Answer := act s (spdmRow 0xE1)

/-- NEGOTIATE_ALGORITHMS (R418). -/
def execNegotiateAlgorithms (s : State) : Answer := act s (spdmRow 0xE3)

/-- GET_DIGESTS (R418). -/
def execGetDigests (s : State) : Answer := act s (spdmRow 0x81)

/-- GET_CERTIFICATE (R418). -/
def execGetCertificate (s : State) : Answer := act s (spdmRow 0x82)

/-- CHALLENGE (R418). -/
def execChallenge (s : State) : Answer := act s (spdmRow 0x83)

/-- GET_MEASUREMENTS (R418). -/
def execGetMeasurements (s : State) : Answer := act s (spdmRow 0xE0)

/-- SPDM_UNSUPPORTED_REQUEST (R418). -/
def execSpdmUnsupportedRequest (s : State) : Answer := act s spdmUnsupportedOp

end Sys2Proof.Machine
end

