-- ==== Sys2Proof/Machine/Firmware.lean ====
section
/-! DEFINITION. Firmware updates and the fuse counter (R412, R414). -/

namespace Sys2Proof.Machine

/-- Commands of FW_CMD (Table 14-12). -/
inductive FwCmd where
  | erase | write | verify | activate
  deriving DecidableEq, Repr

/-- The slot that FW_SLOT_SEL selects. -/
def State.fwSlot (s : State) : Nat := s.reg Reg.mgFwSlotSel % 2

/-- The 1 KiB of FW_WINDOW. -/
def State.fwWindow (s : State) : List Byte := (List.range 256).flatMap fun i => leBytes 4 (s.reg (Reg.mgFwWindow + 4 * i))

/-- The effect of a firmware command on a slot that is not running: its status and error code. -/
def State.fwRun (s : State) (cmd : FwCmd) (slot : Nat) : Status × Nat × State :=
  let soiled (b : Boot) : Boot := { b with verified := if b.verified = some slot then none else b.verified }
  match cmd with
  | .erase =>
    (.ok, 0, s.onBoot fun b => soiled { b with flash := memClear b.flash (slot * slotBytes) ((slot + 1) * slotBytes) })
  | .write =>
    let off := s.reg Reg.mgFwOffset % 2 ^ 24
    if off % 1024 != 0 then (.unsupported, 0, s)
    else (.ok, 0, s.onBoot fun b => soiled (b.flashWrite (slot * slotBytes + off) s.fwWindow))
  | .verify =>
    let e := s.boot.check slot
    if e = 0 then (.ok, 0, s.onBoot fun b => { b with verified := some slot }) else (.check, e, s.onBoot soiled)
  | .activate =>
    if s.boot.verified = some slot then (.ok, 0, s.onBoot fun b => b.flashWrite choiceAddr [BitVec.ofNat 8 slot])
    else (.check, 0, s)

/-- A write of FW_CMD: BUSY during a restart of the Adith controller (R415); the outcome stands in FW_RESULT, and one that
is not OK raises source 5 (Table 15-2). -/
def fwCmdOp (cmd : Option FwCmd) (s : State) : Status × State :=
  if s.boot.restarting then (.busy, s)
  else
    let slot := s.fwSlot
    let running := s.boot.running.isSome && s.boot.slot = slot
    let r : Status × Nat × State := match cmd with
      | some c => if running then (.unsupported, 0, s) else s.fwRun c slot
      | none => (.unsupported, 0, s)
    let (st, e, s) := r
    let s := s.setReg Reg.mgFwResult (st.code + e * 256)
    (.ok, s.when (st != .ok) fun s => s.raise 5)

/-- SVN_BURN: fuses are burned up to the SVN of the running image (R412). -/
def svnBurnOp (target : Nat) (s : State) : State :=
  let t := target % 128
  let top := match s.boot.running with
    | some i => i.svn
    | none => 0
  if s.boot.fuseSvn < t && t ≤ top then s.onBoot fun b => { b with fuseSvn := t } else s.refuse

/-! ### Rows -/

/-- FW_ERASE (R414). -/
def execFwErase (s : State) : Answer := act s fun s => (fwCmdOp (some .erase) s).2

/-- FW_WRITE (R414). -/
def execFwWrite (s : State) : Answer := act s fun s => (fwCmdOp (some .write) s).2

/-- FW_VERIFY (R414). -/
def execFwVerify (s : State) : Answer := act s fun s => (fwCmdOp (some .verify) s).2

/-- FW_ACTIVATE (R414). -/
def execFwActivate (s : State) : Answer := act s fun s => (fwCmdOp (some .activate) s).2

/-- SVN_BURN (R412). -/
def execSvnBurn (target : Nat) (s : State) : Answer := act s (svnBurnOp target)

end Sys2Proof.Machine
end

