-- ==== Sys2Proof/Machine/Power.lean ====
section
/-! DEFINITION. The power and pace unit (16_package_power.md): pace readings, the VCORE request, throttling, PMBus. -/

namespace Sys2Proof.Machine

/-! ### Pace (R21, R473, R474) -/

/-- Table 16-4 by VCORE (0.55 to 0.85 V) and junction (40, 60, 85, 105 degrees). -/
def paceGrid (v t : Nat) : Nat :=
  ((([[960, 935, 900, 870], [1390, 1360, 1320, 1280], [1890, 1850, 1800, 1750], [2160, 2100, 2050, 2000]] :
    List (List Nat)).getD v []).getD t 0)

/-- The grid value that pace must reach at a VCORE in mV and a junction in 0.125 degrees: the lower neighbour (R474). -/
def paceFloor (mV : Nat) (tj : Int) : Nat :=
  let v := if 850 ≤ mV then 3 else if 750 ≤ mV then 2 else if 650 ≤ mV then 1 else 0
  let t := if tj ≤ 320 then 0 else if tj ≤ 480 then 1 else if tj ≤ 680 then 2 else 3
  paceGrid v t

/-- PACE_WINDOW: the handshake counts of units over a window of 1,024 ns, by page (R21), scaled to handshakes per us;
a reading more than 1 % below the grid sets PACE_LOW (R474). -/
def paceWindowOp (counts : List (Nat × Nat)) (s : State) : State :=
  let low := paceFloor s.pwr.req s.pwr.tj
  counts.foldl (fun s c =>
    if s.present c.1 && !isGroup c.1 then
      let pace := c.2 * 1000 / 1024
      (s.setReg (Reg.unitPace c.1) (pace % 2 ^ 32)).when (pace * 100 < low * 99)
        fun s => s.onPwr fun p => { p with paceLow := true }
    else s) s

/-! ### Throttling and the request (R472, R475, R476) -/

/-- THERM_CTRL.THROTTLE_C, and THROTTLE_C - HYST, in 0.125 degrees. -/
def State.throttleAt (s : State) : Int := (bits (s.reg Reg.ppThermCtrl) 7 0 : Int) * 8
def State.throttleEnd (s : State) : Int := s.throttleAt - (bits (s.reg Reg.ppThermCtrl) 15 8 : Int) * 8

/-- POWER_MEAS: the sum of the rails' output power (R476). -/
def State.powerMeas (s : State) : Nat := s.pwr.rails.vals.foldl (fun n r => n + r.watts) 0

/-- limit[grey]: 550 mV in Greyscale service; Dark hold keeps the limit that held before it (R472, R473). -/
def State.greyLimit (s : State) : Nat :=
  match s.boot.service with
  | .greyscale => 550
  | .darkHold => if s.boot.entered then 850 else 550
  | .full => 850

/-- The thermal limit after a tick (R475). -/
def thermalLimit (throttle low : Int) (p : Power) (tj : Int) : Nat :=
  if throttle < tj then (if p.above then max 550 (p.thermal - 10) else max 550 (p.req - 10))
  else if tj < low then min 850 (p.thermal + 5)
  else p.thermal

/-- The power limit after a tick (R476). -/
def powerLimit (limit meas : Nat) (p : Power) : Nat :=
  if limit < meas then max 550 (p.req - 10)
  else if meas + 20 ≤ limit then min 850 (p.power + 5)
  else p.power

/-- TJ_MAX at 115 degrees asserts THERMTRIP_N and sets the sticky bit (R477). -/
def State.trip (s : State) (tj : Int) : State :=
  if 920 ≤ tj then
    (s.onBoot fun b => { b with thermtrip := true }).setReg Reg.ppPpSticky (s.reg Reg.ppPpSticky ||| 2)
  else s

/-- VCORE_TICK (R472). -/
def vcoreTickOp (r : VcoreReading) (s : State) : State :=
  let p := s.pwr
  if s.since p.lastTick 1000000 then
    let tj := match r.sensors with
      | [] => p.tj
      | x :: xs => xs.foldl max x
    let throttle := s.throttleAt
    let thermal := thermalLimit throttle s.throttleEnd p tj
    let power := powerLimit (s.reg Reg.ppPowerLimit) s.powerMeas p
    let grey := s.greyLimit
    let target := s.reg Reg.ppVcoreTarget
    let want := min (min grey thermal) (min power target)
    let limit := if want = grey then 1 else if want = thermal then 2 else if want = power then 3 else 0
    let req := if want < p.req then max want (p.req - 25) else if p.req < want then min want (p.req + 10) else p.req
    let s := s.when (2 ≤ p.limit) fun s => s.bump64 Reg.ppThrottleNs (s.ran - p.lastTick)
    let s := s.when p.unacked fun s => s.bump Reg.ppAvsRetries
    let s := s.onPwr fun p => { p with thermal := thermal, power := power, req := req, limit := limit, tj := tj,
                                       unacked := !r.acked, above := decide (throttle < tj),
                                       thermOver := decide (throttle < tj), sensors := r.sensors, lastTick := s.ran }
    (s.onNet fun n => { n with sent := n.sent ++ [.avs req] }).trip tj
  else s

/-- PMBUS_POLL: what every regulator answers, once per ms (R467). -/
def pmbusPollOp (rails : List RailReading) (s : State) : State :=
  if s.since s.pwr.lastPoll 1000000 then
    let s := s.onPwr fun p => { p with lastPoll := s.ran }
    rails.foldl (fun s r =>
      if 8 < r.index then s
      else if r.acked then
        s.onPwr fun p => { p with rails := p.rails.put r.index { mV := r.mV, amps := r.amps, watts := r.watts, status := r.status } }
      else s.bump Reg.ppPmbusErr) s
  else s

/-- TJ_MAX has moved: source 6 follows it (R475). -/
def State.setTj (s : State) (tj : Int) : State :=
  s.onPwr fun p => { p with tj := tj, thermOver := decide (s.throttleAt < tj) }

/-- THERMTRIP: TJ_MAX has reached the trip point (R477). -/
def thermtripOp (tj : Int) (s : State) : State := (s.setTj tj).trip tj

/-- THROTTLE_CROSSING: TJ_MAX has crossed THROTTLE_C (R475). -/
def throttleCrossingOp (tj : Int) (s : State) : State := (s.setTj tj).trip tj

/-! ### Rows -/

/-- PACE_WINDOW (R21). -/
def execPaceWindow (counts : List (Nat × Nat)) (s : State) : Answer := act s (paceWindowOp counts)

/-- VCORE_TICK (R472). -/
def execVcoreTick (reading : VcoreReading) (s : State) : Answer := act s (vcoreTickOp reading)

/-- PMBUS_POLL (R467). -/
def execPmbusPoll (rails : List RailReading) (s : State) : Answer := act s (pmbusPollOp rails)

/-- THERMTRIP (R477). -/
def execThermtrip (tj : Int) (s : State) : Answer := act s (thermtripOp tj)

/-- THROTTLE_CROSSING (R475). -/
def execThrottleCrossing (tj : Int) (s : State) : Answer := act s (throttleCrossingOp tj)

end Sys2Proof.Machine
end

