-- ==== Sys2Proof/Machine/Units.lean ====
section
/-! DEFINITION. UNIT_CTRL (R44, R45, R53, R54, R433): quiescing, stopping and resetting units, alone and by groups, and what a
unit reset of each type does to the unit's work. -/

namespace Sys2Proof.Machine

/-! ### Work that a unit holds (UNIT_STAT.BUSY) -/

/-- Moves of the tiles that meet a test. -/
def State.movesOf (s : State) (p : Nat → Move → Bool) : List (Nat × Move) := s.store.moves.filter fun m => p m.1 m.2

/-- Moves that codec g codes or decodes. -/
def State.codecMoves (s : State) (g : Nat) : List (Nat × Move) := s.movesOf fun _ m => m.codec = some g

/-- COMPRESS writes that codec g has encoded and that have not completed. -/
def State.codecOps (s : State) (g : Nat) : List Nat :=
  (s.jobs.ops.filter fun e => has e.2.f fCompress && e.2.f.ty = 0x02 && !e.2.finished && homeDie (offOf e.2.f.addr.toNat) = g).map (·.1)

/-- The jobs that meet a test. -/
def State.jobsThat (s : State) (p : Job → Bool) : List Nat :=
  (s.jobs.jobs.filter fun e => e.2.ty != 0 && p e.2).map (·.1)

/-- Whether a job is at work on its engine, the write of its result included (R210, R211). -/
def Job.atWork (j : Job) : Bool := j.phase = .running || j.phase = .done

/-- Jobs that run on an engine of their own (Table 6-3). -/
def State.onEngine (s : State) (e : Nat) : List Nat :=
  s.jobsThat fun j => j.atWork && j.engine = e && (e != 0 || j.ty = 0)

/-- TIER_POLICY jobs of a tier manager. -/
def State.policyJobs (s : State) (g : Nat) : List Nat := s.jobsThat fun j => j.ty = 0x10 && j.atWork && j.die = g

/-- Jobs with a tile or piece on an array. -/
def State.onArray (s : State) (a : Nat) : List Nat :=
  s.jobsThat fun j => j.blocked.any fun b => b.array = some a || ((j.ty = 0x100 || j.ty = 0x101 || j.ty = 0x203) && b.engine = a)

/-- Whether a leaf unit holds admitted work. -/
def State.leafBusy (s : State) (page : Nat) : Bool :=
  match unitOf page with
  | none => false
  | some u => match u.ty with
    | .directorySlice => s.coh.dir.any fun e =>
        linePage e.1 = page && (e.2.txn.isSome || !e.2.queue.isEmpty || !e.2.puts.isEmpty)
    | .requestPool => s.poolUsed u.inst != 0
    | .jobIngress => !(s.jobsThat fun j => j.phase = .ingress && j.die = u.inst).isEmpty
    | .translation => s.xlat.walks.any fun w => w.2.half = u.inst
    | .matrixArray => s.arrayHeld u.inst
    | .expander => s.jobs.jobs.any fun e => e.2.refs.any fun r => r.page = page
    | .tierCodec => !(s.codecMoves u.inst).isEmpty || !(s.codecOps u.inst).isEmpty ||
        !(s.jobsThat fun j => j.ty = 0x11 && j.atWork && j.die = u.inst).isEmpty
    | .sessionAttention => !(s.onEngine (8 + u.inst)).isEmpty ||
        !(s.jobsThat fun j => j.ty = 0x203 && j.blocked.any fun b => b.engine / 4 = u.inst).isEmpty
    | .gather => !(s.onEngine (10 + u.inst)).isEmpty
    | .search => !(s.onEngine (14 + u.inst)).isEmpty ||
        !(s.jobsThat fun j => j.ty = 0x404 && j.blocked.any fun b => b.engine = 14 + u.inst).isEmpty
    | .bulkEngine => !(s.onEngine (16 + u.inst)).isEmpty
    | .tierManager => !(s.movesOf fun t _ => tileDie t = u.inst).isEmpty || !(s.policyJobs u.inst).isEmpty
    | .nearChannel | .bulkChannel => s.jobs.ops.any fun e =>
        e.2.started && e.2.left.any fun l => (s.channelsOf (l * 64)).contains page
    | .twin => !s.twin.holders.isEmpty
    | _ => false

/-- BUSY of a page: a group's is the OR over the leaves below it (R50). -/
def State.unitBusy (s : State) (page : Nat) : Bool :=
  if isGroup page then (s.leavesBelow page).any s.leafBusy
  else if (unitOf page).any fun u => u.ty = .lockGroup then (s.presentChildren page).any s.leafBusy
  else s.leafBusy page

/-! ### ENABLE and QUIESCE (R44, R45, R54) -/

/-- DRAIN_DONE: a unit asked to stop that holds no work reads QUIESCED or OFF. -/
def drainDoneOp (page : Nat) (s : State) : State :=
  if s.present page && s.stopping page && !s.leafBusy page && !s.ctl.drained.contains page then
    s.onCtl fun c => { c with drained := c.drained ++ [page] }
  else s

/-- Whether a write of ENABLE and QUIESCE to a page is refused: to the root or the management unit, or to a command port
whose fellow does not read RUN or GREYSCALE (R54). -/
def State.ctrlRefused (s : State) (page v : Nat) : Bool :=
  let stops := !bit v 0 || bit v 1
  if page = 0 || page = 9 then stops
  else if page = 0x2000 || page = 0x2001 then
    let other := s.leafState (0x4001 - page)
    stops && other != .run && other != .greyscale
  else false

/-- ENABLE and QUIESCE of one unit. -/
def State.storeCtrl (s : State) (page v : Nat) : State :=
  let s := s.setReg (Reg.unitCtrl page) (v % 4)
  let s := if s.stopping page then s else s.onCtl fun c => { c with drained := c.drained.filter (· != page) }
  if isGroup page then s else drainDoneOp page s

/-! ### Unit resets (R433) -/

/-- Registers that a unit reset keeps although only the device writes them: results of commands, and what lies in the near
reserve. -/
def resultRegs : List Nat :=
  [Reg.dsAshLogHead, Reg.dsAshLogLost, Reg.ecEvTail, Reg.dsAshClrStat, Reg.tmExtStat, Reg.tcPalResult, Reg.twWitnessResult,
   Reg.twTakeoverNs, Reg.xlXlatResult, Reg.xlFaultResumeStat, Reg.mgFwResult, Reg.mgSpdmStat]

/-- Whether a register is a counter or UNIT_ERR, which a reset of its unit returns to its reset value. -/
def counterReg (page a : Nat) : Bool :=
  a / 4096 = page && !resultRegs.contains a && a != Reg.unitPace page &&
    (match findReg page (a % 4096) with
      | some (r, _) => r.acc = .ro || (r.acc = .w1c && a = Reg.unitErr page)
      | none => false)

/-- Stop jobs with RESET. -/
def State.resetJobs (s : State) (l : List Nat) : State := l.foldl (fun s i => s.stopJob i .reset) s

/-- End moves where they stand (R33). -/
def State.dropMoves (s : State) (l : List (Nat × Move)) : State := l.foldl (fun s m => s.endMove m.1 m.2 .failed) s

/-- Translation half g: its cache, its die's TLBs and its walks begin anew (R197). -/
def State.resetXlat (s : State) (g : Nat) : State :=
  s.onXlat fun x =>
    { x with l2 := x.l2.del g, ptrs := x.ptrs.del g, tlbs := x.tlbs.filter (fun e => engineDie e.1 != g),
             tlbHits := x.tlbHits.filter (fun e => engineDie e.1 != g),
             tlbMisses := x.tlbMisses.filter (fun e => engineDie e.1 != g),
             spoilt := x.spoilt.filter (fun e => e.1 != g),
             walks := x.walks.map fun (n, w) => (n, if w.half = g then { w with started := false, level := 1, table := 0, reading := none } else w) }

/-- Builds of codec g start again with no blocks counted (R287). -/
def State.resetBuilds (s : State) (g : Nat) : State :=
  let again (b : Build) : Build := { st := if b.st = .waiting then .waiting else .collecting }
  s.onPal fun p => { p with slots := p.slots.map fun (n, x) =>
    (n, if n % 2 = g then { x with build := x.build.map again } else x) }

/-- The event controller: pending and outstanding bits and counts are cleared, levels are sampled again (R459). -/
def State.resetEvents (s : State) : State :=
  s.onEv fun e => { e with pend := 0, out := 0, counts := [], args := [], level := 0, beaconDue := [] }

/-- The twin unit: the connection is opened anew, transfers without an answer become orphans (R402). -/
def State.resetTwin (s : State) : State :=
  let s := s.twinReopen
  s.onTwin fun t => { t with handed := t.handed.map fun h => if h.taken then h else { h with orphan := true } }

/-- What a unit reset does to the work and the state of a leaf of each type. -/
def State.resetWork (s : State) (page : Nat) : State :=
  match unitOf page with
  | none => s
  | some u =>
    let g := u.inst
    match u.ty with
    | .tierManager => (s.dropMoves (s.movesOf fun t _ => tileDie t = g)).resetJobs (s.policyJobs g)
    | .requestPool =>
      let ops := (s.jobs.ops.filter fun e => e.2.half = g && e.2.src = .agent && !e.2.finished && e.2.pooled).map (·.1)
      (ops.foldl (fun s i => s.endOp i .reset) s).resetJobs (s.jobsThat fun j => j.pooled && j.die = g)
    | .jobIngress => s.resetJobs (s.jobsThat fun j => j.phase = .ingress && j.die = g)
    | .tierCodec =>
      let s := (s.codecOps g).foldl (fun s i => s.endOp i .reset) s
      let s := s.resetJobs (s.jobsThat fun j => j.ty = 0x11 && j.atWork && j.die = g)
      (s.dropMoves (s.codecMoves g)).resetBuilds g
    | .translation => s.resetXlat g
    | .matrixArray => s.resetJobs (s.onArray g)
    | .expander =>
      s.resetJobs (s.jobsThat fun j => (j.refs.any fun r => r.page = page) ||
        (j.needsExpander && j.blocked.any fun b => b.engine = g))
    | .sessionAttention =>
      (s.resetJobs (s.onEngine (8 + g))).resetJobs (s.jobsThat fun j => j.ty = 0x203 && j.blocked.any fun b => b.engine / 4 = g)
    | .gather => s.resetJobs (s.onEngine (10 + g))
    | .search =>
      let held := (s.srch.colls.filter fun e => e.1 % 2 = g && e.2.merge.st = .running && e.2.merge.job.isNone).map (·.1)
      ((held.foldl State.mergePend s).resetJobs (s.onEngine (14 + g))).resetJobs (s.jobsThat fun j => j.ty = 0x404 && j.blocked.any fun b => b.engine = 14 + g)
    | .bulkEngine => s.resetJobs (s.onEngine (16 + g))
    | .port => s.retrain g false
    | .twin => s.resetTwin
    | .eventController => s.resetEvents
    | .monitor => (s.histDrop (g % 2) (.monitor g)).monAgain g
    | _ => s

/-- The counters of a unit return to their reset values. -/
def State.clearCounters (s : State) (page : Nat) : State :=
  s.onCtl fun c => { c with regs := c.regs.filter fun r => !counterReg page r.1 }

/-- A unit reset of a leaf begins: its work, its counters; a drill of it ends (R433, R458). A directory slice first drains and
evicts its entries; its logic and counters are reset with the end of that (R173). -/
def State.leafReset (s : State) (page : Nat) : State :=
  let s := if s.drill.page = page || page = 0xA then s.drillEnds .ok else s
  let s := s.onCtl fun c =>
    { c with resetting := if c.resetting.contains page then c.resetting else c.resetting ++ [page] }
  let s := if isSlice page then s else s.clearCounters page
  s.resetWork page

/-- The restart of the Adith controller that UNIT_RESET of the management unit asks for: from the chosen slot, or from the
running image when that slot fails (R414); no controller runs before the boot ROM has ended. -/
def State.manageReset (s : State) : State :=
  if !s.adithRuns then s
  else
    let slot := s.boot.choice
    let e := s.boot.check slot
    let s := s.onBoot fun b => b.setErr slot e
    let s :=
      if e = 0 then s.onBoot fun b => { b with slot := slot, running := some (b.image slot), fallback := false }
      else s.setReg Reg.mgFwResult (Status.check.code + e * 256)
    s.adithRestart

/-- UNIT_RESET written 1 to one unit; the root's requests a warm reset of the device, which the caller makes. -/
def State.oneReset (s : State) (page : Nat) : State :=
  if isGroup page || (unitOf page).any (fun u => u.ty = .lockGroup) then s
  else if page = 9 then s.manageReset
  else s.leafReset page

/-- UNIT_RESET_DONE: the unit reads a working state again. A directory slice first finishes its evictions, and a channel whose
population is refused fails again (R45, R108, R173). -/
def unitResetDoneOp (page : Nat) (s : State) : State :=
  if !s.ctl.resetting.contains page then s
  else
    let ty := (unitOf page).map UnitRef.ty
    if isSlice page && (s.leafBusy page || !(s.evictable page).isEmpty) then s
    else
      let s := if isSlice page then s.clearCounters page else s
      let s := s.onCtl fun c => { c with resetting := c.resetting.filter (· != page),
                                         groupResets := c.groupResets.map fun (g, l) => (g, l.filter (· != page)) }
      if page = 9 then s.onBoot fun b => { b with restarting := false }
      else
        let s := if ty = some .bulkChannel && (s.channel page).refused then s.channelFails page
          else
            let s := s.onCtl fun c => { c with failed := c.failed.filter (· != page) }
            if isChannel page then s.onChannel page fun c => { c with trained := true } else s
        if s.stopping page then drainDoneOp page s else s

/-! ### Writes of UNIT_CTRL (R53, R54) -/

/-- The pages that a write to a page's UNIT_CTRL reaches besides it: present children, recursively. -/
def State.fanout (s : State) (page : Nat) : List Nat :=
  let kids (ps : List Nat) : List Nat := ps.flatMap s.presentChildren
  let a := kids [page]
  let b := kids a
  let c := kids b
  (a ++ b ++ c ++ kids c).eraseDups

/-- A write of UNIT_CTRL reaches one unit; whether it was skipped or refused there. -/
def State.ctrlOne (s : State) (page v : Nat) : Bool × State :=
  let refused := s.ctrlRefused page v
  let failed := s.failed page
  let s := s.when refused State.refuse
  let s := if refused || failed || page = 0 || page = 9 then s else s.storeCtrl page v
  let s := s.when (bit v 2) fun s => s.oneReset page
  (refused || failed, s)

/-- A group whose UNIT_RESET is written 1 shows it until every unit reset below it has completed (Table 2-3, R53). -/
def State.noteGroupReset (s : State) (page : Nat) : State :=
  s.onCtl fun c => { c with groupResets := c.groupResets.put page ((s.fanout page).filter c.resetting.contains) }

/-- A write of UNIT_CTRL to a present page: whether a warm reset of the device has been requested, and the state. -/
def State.writeUnitCtrl (s : State) (page v : Nat) : Bool × State :=
  if !s.present page then (false, s)
  else if page = 0 then (bit v 2, (s.ctrlOne 0 v).2)
  else
    let (_, s) := s.ctrlOne page v
    let (skipped, s) := (s.fanout page).foldl (fun (k, s) p =>
      let (k2, s) := s.ctrlOne p v
      (k || k2, s)) (false, s)
    let s := s.when (bit v 2) fun s =>
      ((page :: s.fanout page).filter fun p => !(s.fanout p).isEmpty).foldl (fun s p => s.noteGroupReset p) s
    let a := Reg.unitErr page
    (false, s.when skipped fun s => s.setReg a (s.reg a ||| 2))

/-- A row's write of UNIT_CTRL. -/
def State.unitCtrlRow (s : State) (page v : Nat) : State :=
  match s.writeUnitCtrl page v with
  | (true, s) => s.requestedWarm
  | (false, s) => s

/-! ### Rows -/

/-- QUIESCE (R44): QUIESCE written 1 with ENABLE as given. -/
def execQuiesce (page : Nat) (enable : Bool) (s : State) : Answer := work s fun s => s.unitCtrlRow page (2 + b2n enable)

/-- ENABLE (R44): ENABLE written as given with QUIESCE 0. -/
def execEnable (page : Nat) (on : Bool) (s : State) : Answer := work s fun s => s.unitCtrlRow page (b2n on)

/-- UNIT_RESET (R433): written 1 with ENABLE and QUIESCE as they stand. -/
def execUnitReset (page : Nat) (s : State) : Answer := work s fun s => s.unitCtrlRow page (4 + s.reg (Reg.unitCtrl page) % 4)

/-- DRAIN_DONE (R44). -/
def execDrainDone (page : Nat) (s : State) : Answer := work s (drainDoneOp page)

/-- UNIT_RESET_DONE (R433). -/
def execUnitResetDone (page : Nat) (s : State) : Answer := work s (unitResetDoneOp page)

end Sys2Proof.Machine
end

