-- ==== Sys2Proof/Machine/Readings.lean ====
section
/-! DEFINITION. What the registers read (the register tables of every chapter): the header of a page (Tables 2-1 to 2-5, R47 to
R52, R57), and the registers whose value follows from the state of their unit. Every other register reads what it holds. -/

namespace Sys2Proof.Machine

/-! ### The page header (R43 to R52) -/

/-- First source and number of sources of a page: its first unbroken run (log entry 4). -/
def State.evBase (s : State) (page : Nat) : Nat × Nat :=
  let mine := (List.range 596).filter fun i => sourcePage i = some page && s.present page
  match mine with
  | [] => (0, 0)
  | b :: l => (b, l.foldl (fun n i => if i = b + n then n + 1 else n) 1)

/-- UNIT_ERR as a group's SUMMARY sees it: some unmasked bit (R51), for a page and the three levels below it. -/
def State.errSummary (s : State) : Nat → Nat → Bool
  | 0, _ => false
  | n + 1, page => (s.presentChildren page).any fun c =>
      s.reg (Reg.unitErr c) % 2 ^ 32 &&& (2 ^ 32 - 1 - s.reg (Reg.unitErrMask c) % 2 ^ 32) != 0 || s.errSummary n c

/-- Whether a page is that of a group, the root, or a lock group. -/
def anyGroup (page : Nat) : Bool := (unitOf page).any fun u => u.ty = .group || u.ty = .root || u.ty = .lockGroup

/-- UNIT_PACE of the members of a group (R22): the present leaves below it, a lock group standing for its member ports, on
whichever die they lie. A lock group without members has no pace to show and is left out (log entry 65). -/
def State.paces (s : State) (page : Nat) : List Nat :=
  let isLock (p : Nat) : Bool := (unitOf p).any fun u => u.ty = .lockGroup
  let leaves := (s.leavesBelow page).flatMap fun p => if isLock p then s.presentChildren p else [p]
  leaves.map fun p => s.reg (Reg.unitPace p)

/-- Lowest and highest of a list; 0 for none. -/
def lowest : List Nat → Nat
  | [] => 0
  | x :: l => l.foldl min x
def highest (l : List Nat) : Nat := l.foldl max 0

/-- The bits of UNIT_CFG_STATE (Table 2-5). -/
def CfgFlags.bits (g : CfgFlags) : Nat :=
  b2n g.staged + 2 * b2n g.committed + 4 * b2n g.rejected + 256 * g.reason.toNat

/-- UNIT_CFG_STATE of a group (R52), from its present descendants and itself. -/
def State.groupCfg (s : State) (page : Nat) : CfgFlags :=
  let kids := if (unitOf page).any (fun u => u.ty = .lockGroup) then s.presentChildren page else s.descendants page
  let all := (page :: kids).map s.flagsOf
  let own := ((page :: kids).filter fun p => !(stagedWords p).isEmpty).map s.flagsOf
  { staged := all.any (·.staged), rejected := all.any (·.rejected), committed := !own.isEmpty && own.all (·.committed),
    reason := (s.flagsOf page).reason }

/-- UNIT_RESET of UNIT_CTRL: the unit is being reset, or for a group some unit that a write to the group has reset; a reset
of a member by a write to the member itself does not show (Table 2-3, R53). -/
def State.resetBit (s : State) (page : Nat) : Bool :=
  s.ctl.resetting.contains page || !(s.ctl.groupResets.getD page []).isEmpty

/-- The header of a present page. -/
def State.headerVal (s : State) (page off : Nat) : Nat :=
  match off with
  | 0x00 => unitId page
  | 0x08 => s.unitCap page
  | 0x0C => (s.children page).length
  | 0x10 => ((unitOf page).map UnitRef.parent).getD 0
  | 0x14 => s.reg (Reg.unitCtrl page) % 4 + 4 * b2n (s.resetBit page)
  | 0x18 => (s.unitState page).code + 16 * b2n (s.unitBusy page)
  | 0x1C =>
    let v := s.reg (Reg.unitErr page)
    if anyGroup page then bits v 1 1 * 2 + b2n (s.errSummary 4 page) else v
  | 0x24 => let (b, n) := s.evBase page
    b * 2 ^ 16 + n
  | 0x28 => if anyGroup page then lowest (s.paces page) else s.reg (Reg.unitPace page)
  | 0x2C => (if anyGroup page && page != 0 then s.groupCfg page else s.flagsOf page).bits
  | _ => s.reg (page * 4096 + off)

/-! ### The root (Tables 1-5, 1-10, 2-9) -/

/-- Parts of the running carve in units of 16 MiB or what Table 1-9 counts, and those to spare (R35, R37). -/
def State.carveSpare (s : State) : Nat := 32 - s.boot.carve.foldl (· + ·) 0

/-- The committed sizes of the carve. -/
def State.carveSizes (s : State) : List Nat := (List.range 6).map fun i => s.reg (Reg.rootCarveDir + 4 * i) % 64

/-- A signed number in a field of n bits, two's complement. -/
def signedBits (n : Nat) (x : Int) : Nat := (x % (2 ^ n : Nat)).toNat

def OrderCode.number : OrderCode → Nat
  | .a => 0
  | .b => 1
  | .c => 2

/-- ROOT.SERVICE.STATE. -/
def Service.code : Service → Nat
  | .greyscale => 1
  | .darkHold => 2
  | .full => 3

/-- Registers of the root that read what the device does. HOLDOVER and SLEWING read 0 while SOURCE is 0 (log entry 66). -/
def State.rootVal (s : State) (off : Nat) : Option Nat :=
  if 0x200 ≤ off ∧ off < 0x218 then
    some (s.shadowReg off % 64 + s.boot.carve.getD ((off - 0x200) / 4) 0 * 2 ^ 16)
  else match off with
  | 0x044 => some (s.boot.order.number + s.boot.stepping.toNat * 256)
  | 0x068 => some (s.reg off % 4 + s.stagedSet.length * 2 ^ 16)
  | 0x06C => some s.cfgCrc
  | 0x100 => some (s.now % 2 ^ 32)
  | 0x10C =>
    let t := s.time
    some (b2n (t.locked && s.ptpOn) + 2 * b2n (t.holdover && s.ptpOn) + 4 * b2n (t.slew != 0 && s.ptpOn) + 8 * b2n t.setRefused)
  | 0x110 => some (signedBits 32 (max (-2147483647) (min 2147483647 s.time.offset)))
  | 0x120 => some (highest (s.paces 0) * 2 ^ 16 + lowest (s.paces 0))
  | 0x218 => some (b2n (s.boot.entered && s.carveSizes != s.boot.carve) + s.carveSpare * 256)
  | 0x300 => some (s.boot.incarn.toNat * 256 + s.boot.service.code)
  | _ => none

/-! ### Ports, lock groups and the transport (Tables 3-12 to 3-16) -/

def State.portVal (s : State) (p off : Nat) : Option Nat :=
  let q := s.portSt p
  match off with
  | 0x44 => some (if q.up then 1 + q.lanes.toNat * 16 + q.rate * 256 else 0)
  | 0x58 => some ((Config.macAddress p).toNat % 2 ^ 32)
  | 0x5C => some ((Config.macAddress p).toNat / 2 ^ 32)
  | 0x90 => some (satAdd 64 (s.reg (Reg.portLinkDownNs (portPage p))) (q.downFor s.ran))
  | 0xE8 => some ((s.net.sas.get? (saKey p 1 (bits (s.reg (Reg.portMacsecCtrl (portPage p))) 5 4))).elim 0 (·.pn))
  | _ => none

/-- A set of ports as a number. -/
def portMask (l : List Nat) : Nat := l.foldl (fun n p => n ||| 2 ^ p) 0

def State.groupVal (s : State) (g off : Nat) : Option Nat :=
  match off with
  | 0x60 => some (s.lgActive g).length
  | 0x64 => some (portMask (s.lgActive g) % 2 ^ 32)
  | 0x68 => some (portMask (s.lgActive g) / 2 ^ 32)
  | _ => none

/-- CONN_INFO.STATE. -/
def ConnState.code : ConnState → Nat
  | .idle => 0
  | .accepting => 1
  | .openC => 2
  | .leaving => 3
  | .reclaiming => 4

def State.transportVal (s : State) (off : Nat) : Option Nat :=
  let c := s.reg Reg.pgConnSel % 2 ^ 24
  let k? := s.conn? c
  let of (f : Conn → Nat) : Option Nat := some (k?.elim 0 f)
  let mask (k : Conn) (p : PathSt → Bool) : Nat := portMask ((k.paths.filter fun e => p e.2).map (·.1))
  match off with
  | 0x4C => some (s.net.conns.count fun n k => n != twinConn && k.active)
  | 0x7C => some Config.lldpOui.toNat
  | 0xB4 => of fun k => k.st.code
  | 0xB8 => of fun k => identOf k.tenant k.agent
  | 0xBC => of fun k => mask k (·.live) + mask k (·.opened) * 256
  | 0xC0 => of fun k => lowest ((k.paths.vals.filter (·.live)).map (·.srtt))
  | 0xC4 => of fun _ => s.connAdmitted c
  | _ => none

/-! ### The store (Tables 4-4, 4-8, 4-10) -/

/-- EXT_ENTRY of an extent (Table 4-4). -/
def Extent.bits (x : Extent) : Nat :=
  let st := match x.st with
    | .free => 0
    | .granted => 1
    | .revoking => 2
    | .revoked => 3
  x.tenant % 4096 + b2n x.read * 2 ^ 12 + b2n x.write * 2 ^ 13 + b2n x.atomic * 2 ^ 14 + b2n x.cache * 2 ^ 15 + st * 2 ^ 16 +
    b2n x.mirrored * 2 ^ 18 + b2n x.drillOk * 2 ^ 19 + x.policy % 4 * 2 ^ 20 + b2n x.filling * 2 ^ 22 + b2n x.clean * 2 ^ 23

/-- Blended tiles of a die in a tier. -/
def State.tilesIn (s : State) (d : Nat) (t : Tier) : Nat := s.store.tiles.count fun k x => tileDie k = d && x.tier = t

def State.tierVal (s : State) (d off : Nat) : Option Nat :=
  let e := s.reg Reg.tmExtSel % 2 ^ 17
  let q := s.reg Reg.tmQuotaSel % 4096
  match off with
  | 0xE0 => some (s.tilesIn d .near)
  | 0xE4 => some (s.tilesIn d .bulk)
  | 0xE8 => some (s.tilesIn d .muted)
  | 0xEC => some (s.store.tiles.foldl (fun n (k, x) => if tileDie k = d && x.tier = .muted then n + x.sectors else n) 0)
  | _ =>
    if d != 0 then none
    else match off with
    | 0x48 => some s.nearExtents
    | 0x4C => some s.bulkExtents
    | 0x50 => some (portMask s.store.bulkMap)
    | 0x78 => some (s.extent e).bits
    | 0x80 => some (s.reg Reg.tmExtStat / 256 % 256 * 256 + s.extActive % 128)
    | 0x84 => some (s.admitted e)
    | 0x94 => some (s.quota q).near
    | 0x98 => some (s.quota q).bulk
    | 0x9C => some (s.useNear q)
    | 0xA0 => some (s.useBulk q)
    | 0xA4 => some (s.quota q).refused
    | _ => none

/-- CH_STAT, CAPACITY_GIB and UNUSED_GIB; the temperature of a stack is read apart. -/
def State.channelVal (s : State) (page off : Nat) : Option Nat :=
  let ch := s.channel page
  let near := isNearPage page
  let n := ((unitOf page).map UnitRef.inst).getD 0
  let base := b2n ch.trained + 2 * b2n (s.failed page)
  match off with
  | 0x40 => some (if near then base
      else base + ch.dimms.length % 4 * 4 + b2n (ch.dimms.any (·.width = 8)) * 16 + b2n (holdsMrdimm ch.dimms) * 32 +
        b2n ch.refused * 64 + ch.speed % 256 * 256)
  | 0x48 => some (if near then (if s.stacks.contains n && ch.trained then 80000000000 / 2 ^ 30 else 0)
      else if s.store.bulkMap.contains n then s.bulkShare / 2 ^ 30 else 0)
  | 0x4C => some (if !near && s.store.bulkMap.contains n then (ch.capacity - s.bulkShare) / 2 ^ 30 else 0)
  | _ => none

/-! ### Coherence (Tables 5-10, 5-11) -/

def State.sliceVal (s : State) (page off : Nat) : Option Nat :=
  let here (p : DirEntry → Bool) : Option Nat := some (s.coh.dir.count fun l e => linePage l = page && p e)
  match off with
  | 0x40 => here (·.st != .u)
  | 0x44 => some s.dirCapacity
  | 0x48 => here (·.st = .ash)
  | 0x4C => here fun e => match e.sharers with
    | .pointers _ => false
    | .coarse _ => true
  | _ =>
    if page != 0x1000 then none
    else match off with
    | 0x104 => some (s.coh.reclaims.length % 2 ^ 14 + s.coh.lastReclaim % 2 ^ 13 * 2 ^ 16)
    | 0x10C => some (s.coh.dir.count fun _ e => e.st = .ash)
    | 0x130 =>
      let st := match s.coh.rehomeSt with
        | .none => 0
        | .awaiting => 1
        | .opened => 2
        | .closed => 3
      some (st + 16 * b2n s.coh.rehomeSaved)
    | 0x134 => some (s.coh.dir.count fun _ e => e.st = .rhm)
    | _ => none

/-! ### Translation (Tables 6-7, 6-8) -/

/-- A fault record as a number (Table 6-5). -/
def FaultRec.bits (r : FaultRec) : Nat :=
  let a := match r.access with
    | .read => 1
    | .write => 2
    | .atomic => 4
  r.kind % 16 * 2 ^ 124 + a * 2 ^ 121 + (r.level - 1) % 4 * 2 ^ 119 + r.unit % 128 * 2 ^ 112 + r.stream % 65536 * 2 ^ 96 +
    r.opId.toNat * 2 ^ 64 + r.count % 128 * 2 ^ 57 + r.vpn % 2 ^ 45 * 2 ^ 12

/-- The batch that FAULT_BATCH_SEL names, when its GEN matches. -/
def State.selBatch (s : State) : Option Batch :=
  let id := s.reg Reg.xlFaultBatchSel % 65536
  match s.xlat.batches.get? (id % 1024) with
  | some b => if b.gen % 64 = id / 1024 then some b else none
  | none => none

def State.xlatVal (s : State) (h off : Nat) : Option Nat :=
  let t := s.reg Reg.xlXlatTenantSel % 4096
  let e := s.reg (Reg.xlTlbSel (xlatPage h)) % 128
  match off with
  | 0x40 => some (s.xlat.l2.getD h []).length
  | 0x60 => some (s.walksActive h)
  | 0x6C => some (if e < 20 && engineDie e = h then s.xlat.tlbHits.getD e 0 else 0)
  | 0x70 => some (if e < 20 && engineDie e = h then s.xlat.tlbMisses.getD e 0 else 0)
  | _ =>
    if h != 0 then none
    else if 0x400 ≤ off ∧ off < 0x800 then
      let n := (off - 0x400) / 16
      some ((s.selBatch.bind fun b => b.recs[n]?).elim 0 fun r => r.bits / 2 ^ (32 * ((off - 0x400) / 4 % 4)) % 2 ^ 32)
    else match off with
    | 0x104 => some ((s.xlat.pendCtrl.getD t 0).toNat)
    | 0x108 => some ((s.xlat.pendRoot.getD t 0).toNat)
    | 0x11C => some (s.xlat.batches.count fun _ b => b.st != .free)
    | 0x120 =>
      match (s.xlat.batches.filter fun b => b.2.st = .closed).head? with
      | some (slot, b) => some (2 ^ 31 + batchId slot b)
      | none => some 0
    | 0x128 => some (s.selBatch.elim 0 fun b => if b.st = .closed then b.closedAt else 0)
    | 0x130 => some (s.selBatch.elim 0 fun b => match b.st with
        | .free => 0
        | .collecting => 1 + b.recs.length * 256 + b.tenant * 2 ^ 16
        | .closed => 2 + b.recs.length * 256 + b.tenant * 2 ^ 16)
    | 0x140 => some (s.xlat.parked.countP fun p => p.slot.isNone && !p.walking)
    | _ => none

/-! ### Jobs, the request pool, bulk engines and peers (Tables 7-7 to 7-9) -/

def State.ingressVal (s : State) (d off : Nat) : Option Nat :=
  let t := s.reg Reg.jiTenantSel % 4096
  match off with
  | 0x40 => some s.queueCap
  | 0x44 => some (s.queueUsed d)
  | 0x64 => some (if d = 0 then (s.xlat.parked.filter fun p => p.who.engine = 20 && !p.walking).length else 0)
  | _ =>
    if d != 0 then none
    else match off with
    | 0x104 => some (s.tenantJobs t).weight
    | 0x108 => some (s.tenantJobs t).credits
    | 0x10C => some (s.creditsUsed t)
    | 0x110 => some (if s.jobs.vtime.isNone then 0 else s.vnow)
    | 0x118 => some ((s.tenantJobs t).finish.getD 0)
    | _ => none

def State.poolVal (s : State) (h off : Nat) : Option Nat :=
  let t := s.reg Reg.rpPoolTenantSel % 4096
  match off with
  | 0x44 => some (s.poolUsed h)
  | 0x10C => if h = 0 then some (s.poolTenant 1 t % 65536 * 2 ^ 16 + s.poolTenant 0 t % 65536) else none
  | _ => none

def PeerSt.code : PeerSt → Nat
  | .idle => 0
  | .joining => 1
  | .opened => 2
  | .closing => 3

def State.bulkVal (s : State) (g off : Nat) : Option Nat :=
  match off with
  | 0x40 => some ((s.onEngine (16 + g)).filter fun i => (s.job? i).any fun j => bulkType j.ty).length
  | 0x13C => if g = 0 then some ((s.peer s.peerSel).st.code + (s.peer s.peerSel).result % 256 * 256) else none
  | _ => none

/-! ### Arrays, expanders and tier codecs (Tables 8-11, 9-8 to 9-10) -/

/-- The format and the rows per step that a job has an array work in. -/
def State.arrayMode (s : State) (j : Job) : Nat × Nat :=
  let code (f : Fmt) : Nat := ((List.range 9).find? fun c => fmtOf c = some f).getD 0
  match j.ty with
  | 0x100 | 0x101 => match j.mat with
    | some m => (code (pairMode m.af m.bf), m.r)
    | none => (0, 1)
  | 0x203 => match s.sessionOf j with
    | .ok x => (code (pairMode .bf16 x.kvFmt), (pairRows .bf16 x.kvFmt).getD 1)
    | .error _ => (0, 1)
  | _ => match s.collOf j with
    | .ok x => (code (pairMode x.fmt x.fmt), (pairRows x.fmt x.fmt).getD 1)
    | .error _ => (0, 1)

def State.arrayVal (s : State) (a off : Nat) : Option Nat :=
  match off with
  | 0x40 => match (s.onArray a).head?.bind s.job? with
    | some j => let (f, r) := s.arrayMode j
      some (1 + f * 256 + (r - 1) % 4 * 2 ^ 16)
    | none => some 0
  | _ => none

/-- References that a page's decoder holds. -/
def State.refsAt (s : State) (page : Nat) : List PalRef := s.jobs.jobs.vals.flatMap fun j => j.refs.filter fun r => r.page = page

def State.expanderVal (s : State) (page off : Nat) : Option Nat :=
  match off with
  | 0x40 => match (s.refsAt page).head? with
    | some r => some (1 + (if r.raw then r.slot else (s.palSlot? r.slot).elim 0 (·.smode)) % 4 * 2)
    | none => some 0
  | 0x44 => some ((s.refsAt page).countP fun r => !r.raw)
  | _ => none

def BuildSt.code : BuildSt → Nat
  | .waiting => 1
  | .collecting => 2
  | .pending => 3

def State.codecVal (s : State) (g off : Nat) : Option Nat :=
  let n := s.palSel
  let x? := s.palSlot? n
  match off with
  | 0x40 =>
    let active := (s.codecMoves g).length + (s.codecOps g).length +
      (s.jobsThat fun j => j.ty = 0x11 && j.atWork && j.die = g).length
    some (min active 255 + (histUnits - (s.pal.histHeld.getD g []).length) * 2 ^ 16)
  | _ =>
    if g != 0 then none
    else match off with
    | 0x104 => match x? with
      | none => some 0
      | some x =>
        let st := match x.newer, x.older with
          | none, _ => 1
          | some _, none => 2
          | some _, some _ => 3
        some (x.newer.elim 0 (·.num) + x.older.elim 0 (·.num) * 256 + x.smode % 4 * 2 ^ 16 + b2n x.always * 2 ^ 20 +
          b2n x.auto * 2 ^ 21 + st * 2 ^ 24 + x.build.elim 0 (·.st.code) * 2 ^ 28)
    | 0x108 =>
      let g? := x?.bind fun x => if bit (s.reg Reg.tcPalSel) 16 then x.older else x.newer
      some (g?.elim 0 fun g => s.palRefs n g.num)
    | 0x10C => some ((x?.bind (·.build)).elim 0 (·.blocks))
    | 0x11C => some s.pal.slots.length
    | 0x120 => some (s.pal.slots.count fun _ x => x.build.any fun b => b.st = .waiting)
    | _ => none

/-! ### Sessions, tables, collections (Tables 10-8 to 12-9) -/

def State.sessionVal (s : State) (g off : Nat) : Option Nat :=
  let h := s.reg Reg.saSessSel % 65536
  let x := s.session h
  let of (v : Nat) : Option Nat := some (if x.opened then v else 0)
  match off with
  | 0x40 => some ((s.jobs.jobs.vals.foldl (fun n j => if j.ty = 0x203 then n + j.blocked.countP (fun b => b.engine / 4 = g) else n) 0)
      % 256)
  | _ =>
    if g != 0 then none
    else match off with
    | 0x100 => some (s.sess.count fun _ x => x.opened)
    | 0x108 => some (x.gen * 2 ^ 16 + h)
    | 0x10C => of (2 ^ 31 + x.tenant)
    | 0x110 => of ((x.layers - 1) % 256 + (x.kvHeads - 1) % 128 * 256 +
        (if x.dim = 64 then 0 else if x.dim = 128 then 1 else 2) * 2 ^ 16 + x.fmt % 16 * 2 ^ 20 + b2n x.compress * 2 ^ 24)
    | 0x114 => of x.qHeads
    | 0x118 => of x.length
    | 0x11C => of x.maxTokens
    | 0x120 => of x.base
    | 0x128 => of (x.kSlot + x.vSlot * 2 ^ 16)
    | 0x12C => of x.pair
    | 0x130 => of (s.jobsThat fun j => 0x201 ≤ j.ty && j.ty ≤ 0x205 && j.sid = x.gen * 2 ^ 16 + h).length
    | _ => none

/-- The TBL_ registers of the table in TBL_SEL (R345). -/
def State.tableVal (s : State) (off : Nat) : Option Nat :=
  let t := s.reg Reg.geTblSel % 1024
  let x := s.table t
  let of (v : Nat) : Option Nat := some (if x.opened then v else 0)
  let cur (f : Version → Nat) : Option Nat := of (x.current.elim 0 f)
  match off with
  | 0x110 => some (s.emb.tables.count fun _ x => x.opened)
  | 0x118 => some (x.gen * 2 ^ 16 + t)
  | 0x11C => of (2 ^ 31 + b2n (bit x.tflags 7) * 2 ^ 18 + x.tflags % 4 * 2 ^ 16 + x.fmt % 16 * 2 ^ 12 + x.tenant)
  | 0x120 => of x.rowsTotal
  | 0x128 => cur (·.lo)
  | 0x130 => cur (·.rows)
  | 0x138 => of x.e
  | 0x13C => cur (·.num)
  | 0x140 => of (x.versions.length + (x.versions.foldl (fun n v => n + v.bound) 0) * 256)
  | 0x144 => of x.alert
  | 0x148 => of x.occ
  | 0x150 => of x.fetches
  | 0x158 => of x.updates
  | 0x160 => of x.dropRange
  | 0x164 => of x.dropSent
  | 0x168 => of x.dropAbsent
  | 0x16C => cur (·.hotSlots.length)
  | 0x170 => of x.promotions
  | 0x174 => of x.demotions
  | 0x178 => of x.winFetch
  | 0x17C => of x.topCount
  | 0x180 => of x.topRow
  | _ => none

def State.gatherVal (s : State) (e off : Nat) : Option Nat :=
  match off with
  | 0x40 => match (s.onEngine (10 + e)).head? with
    | some i =>
      let out := s.jobs.ops.count fun _ o => match o.src with
        | .engine j _ => j = i && !o.finished
        | _ => false
      some (1 + 2 * b2n ((s.job? i).any fun j => j.ty = 0x311) + min out 8192 * 2 ^ 16)
    | none => some 0
  | _ => if e = 0 && 0x110 ≤ off then s.tableVal off else none

def MergeSt.code : MergeSt → Nat
  | .none => 0
  | .running => 1
  | .draining => 2
  | .pending => 3

def State.searchVal (s : State) (g off : Nat) : Option Nat :=
  let k := s.reg Reg.seCollSel % 256
  let x := s.coll k
  let of (v : Nat) : Option Nat := some (if x.opened then v else 0)
  match off with
  | 0x40 =>
    let n := s.jobs.jobs.vals.foldl (fun n j => if j.ty = 0x404 then n + j.blocked.countP (fun b => b.engine = 14 + g) else n) 0
    let merges := s.srch.colls.any fun e => e.1 % 2 = g && (e.2.merge.st = .running || e.2.merge.st = .draining)
    some (n % 65536 + b2n merges * 2 ^ 16)
  | _ =>
    if g != 0 then none
    else match off with
    | 0x108 => some (s.srch.colls.count fun _ x => x.opened)
    | 0x110 => some (x.gen * 2 ^ 16 + k)
    | 0x114 => of (2 ^ 31 + x.tenant)
    | 0x118 => of x.epoch
    | 0x120 => of x.sideLo
    | 0x128 => of x.live
    | 0x130 => of x.quarantined
    | 0x138 => of (if x.merge.st = .running || x.merge.st = .pending then x.merge.s else 0)
    | 0x140 => of (if x.merge.st = .running || x.merge.st = .pending then x.merge.out else 0)
    | 0x148 => of (x.d % 2 ^ 13 + x.vtype % 4 * 2 ^ 16 + x.metric % 4 * 2 ^ 18 + (x.tables - 1) % 16 * 2 ^ 20 + x.codeBits * 2 ^ 24)
    | 0x14C => of x.capPages
    | 0x150 => of x.generation
    | 0x154 => of x.sideUsed
    | 0x158 => of x.sideMax
    | 0x15C => of (x.merge.st.code + 16 * b2n x.merge.full)
    | 0x160 => of (min (x.heapBytes / 256 - 1 - x.heapUsed) (2 ^ 32 - 1))
    | _ => none

/-! ### The twin unit (Table 13-8) -/

def State.twinVal (s : State) (off : Nat) : Option Nat :=
  let e := s.reg Reg.twLeaseSel % 2 ^ 17
  match off with
  | 0x84 =>
    let paths := (s.conn? twinConn).elim [] fun k => (k.paths.filter fun q => q.2.live).map (·.1)
    let carries (p : Nat) : Bool := (s.groupOf p).all fun g => (s.lgActive g).contains p
    let live := s.twinPorts.filter fun p => paths.contains (s.twinPathOf p) && carries p
    some (s.pairState + portMask (live.map (· - 34)) % 64 * 256 + s.twin.partnerIncarn.elim 0 (·.toNat) * 2 ^ 16 +
      b2n s.twin.key.isSome * 2 ^ 24)
  | 0x94 => match s.twin.leases.get? e with
    | some x => some (x.st.code + x.holder % 2 * 16 + b2n (s.twin.dirty.contains e) * 32)
    | none => some 0
  | 0x98 => some (s.lease e).gen
  | 0xA0 => some s.heldLeases.length
  | 0xA4 => some s.twin.shadows.length
  | 0xDC => some s.twin.dirty.length
  | 0xE0 => match s.twin.resync with
    | some r => some ((if r.suspended then 2 else 1) + r.extent * 256)
    | none => some 0
  | _ => none

/-! ### Management, events, monitors, drills, power (Tables 14-12, 15-8 to 15-10, 16-6) -/

/-- BOOT_STAT. -/
def Boot.stat (b : Boot) : Nat :=
  b.slot % 2 + 2 * b2n b.recovery + 4 * b2n b.fallback + 8 * b.choice + b.errA % 16 * 256 + b.errB % 16 * 4096

def State.manageVal (s : State) (off : Nat) : Option Nat :=
  match off with
  | 0x40 => some s.boot.stat
  | 0x44 => some (s.boot.lastKind % 8 + 256 * b2n s.boot.saved)
  | 0x58 => some (s.boot.running.elim 0 (·.svn))
  | 0x5C => some s.boot.fuseSvn
  | 0x78 => some (if s.boot.headerOk s.fwSlot then s.boot.field s.fwSlot 8 8 else 0)
  | 0x80 => some Config.serial.toNat
  | _ => none

/-- Bits of a set of sources in word w. -/
def sourceWord (w : Nat) (p : Nat → Bool) : Nat :=
  (List.range 32).foldl (fun n i => if p (32 * w + i) then n + 2 ^ i else n) 0

def State.eventVal (s : State) (off : Nat) : Option Nat :=
  let e := s.ev
  if 0x100 ≤ off ∧ off < 0x180 then some (wordOf e.mask ((off - 0x100) / 4)).toNat
  else if 0x180 ≤ off ∧ off < 0x200 then some (wordOf e.pend ((off - 0x180) / 4)).toNat
  else if 0x200 ≤ off ∧ off < 0x280 then some (sourceWord ((off - 0x200) / 4) fun i => isLevel i && s.sourceValid i)
  else if 0x280 ≤ off ∧ off < 0x300 then some (wordOf e.out ((off - 0x280) / 4)).toNat
  else if 0x400 ≤ off ∧ off < 0xC00 then
    let i := (off - 0x400) / 4
    some (e.counts.getD (2 * i) 0 + e.counts.getD (2 * i + 1) 0 * 65536)
  else if 0xC0 ≤ off ∧ off < 0xE0 then
    some (if s.ringUsed = 0 then 0
      else s.leAt (s.reg Reg.ecEvRingBase + 32 * s.reg Reg.ecEvHead + (off - 0xC0)) 4)
  else match off with
  | 0x54 =>
    let waits := (List.range 596).countP fun i => e.pend.getLsbD i && !e.out.getLsbD i
    some (b2n e.ringOk + 2 * b2n e.ringBad + 4 * b2n (!s.canRecord && s.nextSource.isSome) + waits * 2 ^ 16)
  | 0x58 => some e.seq
  | _ => none

/-- The window that a monitor's results read: the running one while MON_WINDOW is 0 (R450). -/
def State.monShown (s : State) (m : Nat) : Win := if s.monW m = 0 then (s.slot m).now else (s.slot m).latched

def State.monVal (s : State) (m off : Nat) : Option Nat :=
  let x := s.slot m
  let w := s.monShown m
  if 0x100 ≤ off ∧ off < 0x180 then some (w.bins.getD ((off - 0x100) / 4) 0)
  else match off with
  | 0x58 => some (b2n x.run + 2 * b2n x.badProbe + 4 * b2n w.noHist + 8 * b2n w.partialW + 16 * b2n w.sumSat)
  | 0x5C => some (b2n x.alarm)
  | 0x60 => some x.seq
  | 0x68 => some x.endAt
  | 0x70 => some w.min
  | 0x78 => some w.max
  | 0x80 => some w.count
  | 0x88 => some w.sum
  | _ => none

/-- DRILL_STAT: an ARM that has lapsed reads IDLE. -/
def State.drillVal (s : State) (off : Nat) : Option Nat :=
  let d := s.drill
  match off with
  | 0x68 =>
    let st := match d.st with
      | .idle => 0
      | .armed => b2n s.drillArmed
      | .active => 2
    some (st + d.result % 256 * 256 + (if d.st = .active then d.kind % 16 * 2 ^ 16 else 0))
  | _ => none

def State.powerVal (s : State) (off : Nat) : Option Nat :=
  let p := s.pwr
  let rail := p.rails.getD (s.reg Reg.ppRailSel % 16) { }
  let core := p.rails.getD 0 { }
  match off with
  | 0x40 => some (p.limit % 8 + 16 * b2n (!p.unacked) + 32 * b2n p.thermOver + 64 * b2n s.railFault + 128 * b2n p.paceLow)
  | 0x48 => some p.req
  | 0x4C => some (core.mV % 1024 + core.amps % 2048 * 2 ^ 16)
  | 0x50 => some (signedBits 12 p.tj)
  | 0x58 => some (signedBits 12 (p.sensors.getD (s.reg Reg.ppTjSel % 32) 0))
  | 0x64 => some (s.powerMeas % 2048)
  | 0x6C => some (rail.mV % 8192)
  | 0x70 => some (rail.amps % 2048)
  | 0x74 => some rail.status.toNat
  | _ => none

/-! ### Any register -/

/-- The registers of a present unit whose value follows from its state. -/
def State.derived (s : State) (page off : Nat) : Option Nat :=
  match unitOf page with
  | none => none
  | some u => match u.ty with
    | .root => s.rootVal off
    | .group => if page = 3 then s.transportVal off else none
    | .port => s.portVal u.inst off
    | .lockGroup => s.groupVal u.inst off
    | .nearChannel | .bulkChannel => s.channelVal page off
    | .tierManager => s.tierVal u.inst off
    | .directorySlice => s.sliceVal page off
    | .requestPool => s.poolVal u.inst off
    | .translation => s.xlatVal u.inst off
    | .matrixArray => s.arrayVal u.inst off
    | .expander => s.expanderVal page off
    | .tierCodec => s.codecVal u.inst off
    | .sessionAttention => s.sessionVal u.inst off
    | .gather => s.gatherVal u.inst off
    | .search => s.searchVal u.inst off
    | .bulkEngine => s.bulkVal u.inst off
    | .jobIngress => s.ingressVal u.inst off
    | .twin => s.twinVal off
    | .eventController => s.eventVal off
    | .monitor => s.monVal u.inst off
    | .drill => s.drillVal off
    | .management => s.manageVal off
    | .powerPace => s.powerVal off

/-- What the register at an offset of a page reads, 64 bits for a wide one named by its low word: reserved offsets read 0
(R12), a write-only register reads 0, a staged one its shadow (R59); an absent page reads its UNIT_ID and 0 (R57). -/
def State.readReg (s : State) (page off : Nat) : Nat :=
  if !s.present page then (if off = 0 then unitId page else 0)
  else if 0xC00 ≤ off then (s.children page).getD ((off - 0xC00) / 4) 0
  else match findReg page off with
    | none => 0
    | some (r, at_) =>
      if at_ < 0x40 then s.headerVal page at_
      else if r.acc = .wo then 0
      else match s.derived page at_ with
        | some v => v
        | none => if r.staged then s.shadowReg (page * 4096 + at_) else s.reg (page * 4096 + at_)

/-- One word of a CTL_RD over connection c: the low word of a 64-bit register latches the high one, for that connection
(R58); TIME_LO latches TIME_HI for every reader (Table 1-5). The temperature of a stack is a free value. -/
def State.readWord (s : State) (c page off : Nat) : Nat × State :=
  let latch (k v : Nat) (s : State) : State := s.onCtl fun x => { x with latches := x.latches.put k (BitVec.ofNat 32 (v / 2 ^ 32)) }
  let latched (k : Nat) : Nat := (s.ctl.latches.getD k 0).toNat
  if page = 0 ∧ off = 0x100 then (s.now % 2 ^ 32, latch 0x100 s.now s)
  else if page = 0 ∧ off = 0x104 then (latched 0x100, s)
  else match findReg page off with
    | none => (s.readReg page off % 2 ^ 32, s)
    | some (r, at_) =>
      let k := c * 2 ^ 32 + page * 4096 + at_
      if r.wide then
        if off = at_ then
          let v := s.readReg page at_
          (v % 2 ^ 32, latch k v s)
        else (latched k, s)
      else if isChannel page && isNearPage page && off = 0x40 && s.present page then
        let (t, s) := s.draw
        (s.readReg page off % 2 ^ 24 + t % 256 * 2 ^ 24, s)
      else (s.readReg page off % 2 ^ 32, s)

/-- The words of a CTL_RD in ascending order (R41), each least significant byte first (R39). -/
def State.readWords (s : State) (c page : Nat) : Nat → Nat → List Byte × State
  | _, 0 => ([], s)
  | off, n + 1 =>
    let (v, s) := s.readWord c page off
    let (l, s) := s.readWords c page (off + 4) n
    (leBytes 4 v ++ l, s)

end Sys2Proof.Machine
end

