-- ==== Sys2Proof/Machine/Control.lean ====
section
/-! DEFINITION. Writes to the control space and the CTL messages (R10, R38 to R42, R57, R58): what a write of each register
does, and how CTL_RD and CTL_WR are checked and answered. -/

namespace Sys2Proof.Machine

/-! ### Writes -/

/-- What becomes of the CTL_WR that carries a write: its status so far, whether its response comes later, and the reset of
the device that it asks for (1 warm, 2 cold), which is made once it is answered. -/
structure Wrote where
  st : Status := .ok
  defer : Bool := false
  reset : Nat := 0
  deriving DecidableEq, Repr

/-- A write that completes OK at once. -/
def wrote (s : State) : Wrote × State := ({ }, s)

/-- A write with a status of its own. -/
def wroteAs (r : Status × State) : Wrote × State := ({ st := r.1 }, r.2)

/-- JOIN_KEY_INSTALL: INSTALL[0], ERASE[1] (R101). -/
def joinKeyCmdOp (v : Nat) (s : State) : State :=
  if bit v 0 = bit v 1 then s.refuse else if bit v 0 then joinKeyInstallOp s else joinKeyEraseOp s

/-- SA_INSTALL: INSTALL[0], then RETIRE[1]. -/
def saCmdOp (port v : Nat) (s : State) : State :=
  (s.when (bit v 0) (execSaInstallCore port)).when (bit v 1) (execSaRetireCore port)

/-- PAIR_KEY_INSTALL: INSTALL[0], then ERASE[1]. -/
def pairKeyCmdOp (v : Nat) (s : State) : State := (s.when (bit v 0) pairKeyInstallOp).when (bit v 1) pairKeyEraseOp

/-- TWIN_WITNESS: ACT[2:0], INCARN[15:8] (R394). -/
def witnessCmdOp (v : Nat) (s : State) : State :=
  match v % 8 with
  | 1 => witnessFormOp s
  | 2 => witnessConfirmOp (BitVec.ofNat 8 (bits v 15 8)) s
  | 3 => witnessFenceOp s
  | _ => s.witnessResult .unsupported

/-- PAL_CMD: CMD[2:0] (Table 9-10). -/
def palCmdOp (v : Nat) (s : State) : State :=
  match v % 8 with
  | 1 => palInstallOp s
  | 2 => palBuildOp s
  | 3 => palConfigOp s
  | 4 => palClearOp s
  | 5 => palReadOp s
  | _ => s.palResult .unsupported 0

/-- FW_CMD: CMD[2:0] (Table 14-12). -/
def fwCmdOf (v : Nat) : Option FwCmd :=
  match v % 8 with
  | 1 => some .erase
  | 2 => some .write
  | 3 => some .verify
  | 4 => some .activate
  | _ => none

/-- POOL_HIGH of a half: any write sets it to POOL_USED (R226). -/
def poolHighOp (half : Nat) (s : State) : State := s.setReg (Reg.rpPoolHigh (poolPage half)) (s.poolUsed half)

/-- MON_WINDOW: the window that runs ends at the next boundary of the new width. -/
def monWindowOp (m v : Nat) (s : State) : State :=
  (s.setReg (Reg.moMonWindow (monPage m)) v).onSlot m fun x =>
    if x.run then { x with nextClose := if v = 0 then 0 else (s.now / v + 1) * v, now := { x.now with partialW := true } } else x

/-- Registers that a write stages for the next drill (R454). -/
def drillStaging (off : Nat) : Bool :=
  [0x40, 0x44, 0x48, 0x4C, 0x50, 0x54, 0x58].contains off

/-- Root (Table 2-9, Table 1-5): registers whose write does more than store. -/
def State.writeRoot (s : State) (a v : Nat) : Option (Wrote × State) :=
  if a = Reg.rootCfgCommitHi then some (wroteAs (cfgCommitOp (v % 2 ^ 32) s))
  else if a = Reg.rootCfgDiscard then some (wrote (s.when (bit v 0) cfgDiscardOp))
  else if a = Reg.rootTimeSetLo then some (wrote (timeSetLoOp (BitVec.ofNat 32 v) s))
  else if a = Reg.rootTimeSetHi then some (wrote (timeSetOp (BitVec.ofNat 32 v) s))
  else if a = Reg.rootCfgSeq then some (wrote s)
  else none

/-- Management unit (Table 14-12). -/
def State.writeManage (s : State) (a v : Nat) : Option (Wrote × State) :=
  if a = Reg.mgResetCount then some (wrote s)
  else if a = Reg.mgResetCmd then
    some (if bits v 31 16 = 0x7E57 then ({ reset := if v % 4 = 3 then 0 else v % 4 }, s) else wrote s.refuse)
  else if a = Reg.mgSvnBurn then some (wrote (svnBurnOp v s))
  else if a = Reg.mgFwCmd then some (wroteAs (fwCmdOp (fwCmdOf v) s))
  else if a = Reg.mgSpdmCmd then some (if bit v 0 then wroteAs (spdmGoOp s) else wrote s)
  else none

/-- Tier manager 0 (Table 4-8): EXT_CMD completes once its outcome is recorded (R114, R383). -/
def State.writeTier (s : State) (wait : Option (Nat × Frame)) (a v : Nat) : Option (Wrote × State) :=
  if a = Reg.tmExtCmd then
    some (
      if v % 8 = 0 || 6 ≤ v % 8 then wrote (s.extResult .unsupported)
      else
        let (now, s) := s.extCommand (v % 8) (s.reg Reg.tmExtSel % 2 ^ 17) (s.reg Reg.tmExtArg) wait
        ({ defer := !now }, s))
  else if a = Reg.tmQuotaNear then some (wroteAs (s.writeQuotaNear (BitVec.ofNat 32 v)))
  else if a = Reg.tmQuotaBulk then some (wroteAs (s.writeQuotaBulk (BitVec.ofNat 32 v)))
  else none

/-- Translation half 0 (Table 6-8): the fields of the selected tenant, XLAT_APPLY, FAULT_RESUME. -/
def State.writeXlat (s : State) (wait : Option (Nat × Frame)) (a v : Nat) : Option (Wrote × State) :=
  let t := s.reg Reg.xlXlatTenantSel % 4096
  if a = Reg.xlXlatCtrl then some (wrote (s.onXlat fun x => { x with pendCtrl := x.pendCtrl.put t (BitVec.ofNat 32 (v &&& 0x1F01)) }))
  else if a = Reg.xlXlatRoot then
    some (wrote (s.onXlat fun x => { x with pendRoot := x.pendRoot.put t (BitVec.ofNat 64 (v / 4096 * 4096)) }))
  else if a = Reg.xlXlatApply then 
    if bit v 0 then
      let (now, s) := s.xlatApply wait
      some ({ defer := !now }, s)
    else some (wrote s)
  else if a = Reg.xlFaultResume then some (wrote (s.faultResume (v % 65536) (bits v 17 16)).2)
  else none

/-- Job ingress 0 (Table 7-7): weight and credits of the selected tenant. -/
def State.writeIngress (s : State) (a v : Nat) : Option (Wrote × State) :=
  let t := s.reg Reg.jiTenantSel % 4096
  if a = Reg.jiTenantWeight then
    some (wrote (if v % 4096 = 0 then s.refuse else s.onTenant t fun x => { x with weight := v % 4096 }))
  else if a = Reg.jiTenantCredits then some (wrote (s.onTenant t fun x => { x with credits := v % 65536 }))
  else none

/-- Event controller (Table 15-8). -/
def State.writeEvents (s : State) (a v : Nat) : Option (Wrote × State) :=
  let w := BitVec.ofNat 32 v
  if a = Reg.ecEvRingCtrl then some (wrote (evRingCtrlOp w s))
  else if a = Reg.ecEvHead then some (wrote (evHeadOp w s))
  else if a = Reg.ecEvDone then some (wrote (evDoneOp (v % 1024) s))
  else if a = Reg.ecEvCountClr then some (wrote (evCountClrOp (v % 1024) s))
  else if Reg.ecEvMask ≤ a && a < Reg.ecEvMask + 128 then some (wrote (evMaskOp ((a - Reg.ecEvMask) / 4) w s))
  else if Reg.ecEvPend ≤ a && a < Reg.ecEvPend + 128 then some (wrote (evPendOp ((a - Reg.ecEvPend) / 4) w s))
  else none

/-- A monitor slot (Table 15-9): MON_PAGE is ignored while the slot is enabled (R449). -/
def State.writeMon (s : State) (m a v : Nat) : Option (Wrote × State) :=
  let pg := monPage m
  if a = Reg.moMonCtrl pg then some (wrote (monCtrlOp m (BitVec.ofNat 32 v) s))
  else if a = Reg.moMonPage pg then if bit (s.reg (Reg.moMonCtrl pg)) 0 then some (wrote s.refuse) else none
  else if a = Reg.moMonWindow pg then some (wrote (monWindowOp m v s))
  else if a = Reg.moMonAlarm pg then some (wrote (if bit v 0 then s.onSlot m fun x => { x with alarm := false } else s))
  else none

/-- The drill unit (Table 15-10). -/
def State.writeDrill (s : State) (a v : Nat) : Option (Wrote × State) :=
  let key := BitVec.ofNat 16 v
  if a = Reg.drDrillArm then some (wrote (drillArmOp key s))
  else if a = Reg.drDrillFire then some (wrote (drillFireOp key s))
  else if a = Reg.drDrillStop then some (wrote (s.when (bit v 0) drillStopOp))
  else none

/-- Twin unit (Table 13-8). -/
def State.writeTwin (s : State) (a v : Nat) : Option (Wrote × State) :=
  if a = Reg.twPairKeyInstall then some (wrote (pairKeyCmdOp v s))
  else if a = Reg.twTwinWitness then some (wrote (witnessCmdOp v s))
  else if a = Reg.twLeaseCmd then some (wrote (s.when (bit v 0) leaseMoveOp))
  else none

/-- The registers of a present unit whose write does more than store. -/
def State.writeOwn (s : State) (wait : Option (Nat × Frame)) (u : UnitRef) (page a v : Nat) : Option (Wrote × State) :=
  match u.ty with
  | .root => s.writeRoot a v
  | .management => s.writeManage a v
  | .group =>
    if a = Reg.pgAgentKill then some (wrote (agentKillOp (BitVec.ofNat 32 v) s))
    else if a = Reg.pgJoinKeyInstall then some (wrote (joinKeyCmdOp v s))
    else none
  | .port => if a = Reg.portSaInstall page then some (wrote (saCmdOp u.inst v s)) else none
  | .tierManager => s.writeTier wait a v
  | .directorySlice => if a = Reg.dsAshClrCmd then some (wrote (if bit v 0 then (clearAshOp s).2 else s)) else none
  | .translation => s.writeXlat wait a v
  | .jobIngress => s.writeIngress a v
  | .requestPool => if a = Reg.rpPoolHigh page then some (wrote (poolHighOp u.inst s)) else none
  | .bulkEngine =>
    if a = Reg.bePeerCmd then
      some (if bit v 0 then ({ defer := wait.isSome }, peerOpenOp wait s) else wrote (s.when (bit v 1) peerCloseOp))
    else none
  | .tierCodec => if a = Reg.tcPalCmd then some (wrote (palCmdOp v s)) else none
  | .gather =>
    if a = Reg.geTblLoadAlert then
      some (wrote (s.onEmb fun e => { e with tables := e.tables.update (s.reg Reg.geTblSel % 1024) fun t =>
        if t.opened then { t with alert := v % 2 ^ 32 } else t }))
    else none
  | .twin => s.writeTwin a v
  | .eventController => s.writeEvents a v
  | .monitor => s.writeMon u.inst a v
  | .drill => s.writeDrill a v
  | _ => none

/-- A write that only stores, clears or does nothing, by its access code (R10, R59). -/
def State.writeStore (s : State) (r : RegDef) (page at_ v : Nat) : State :=
  let a := page * 4096 + at_
  if r.staged then stagedWriteOp page at_ v s
  else match r.acc with
    | .ro => s
    | .rw | .wo | .rws => s.setReg a (v &&& r.mask)
    | .w1c =>
      let ones := if at_ = 0x1C && isGroup page then v &&& 2 else v
      let old := s.reg a
      s.setReg a (old - (old &&& ones))

/-- A whole value, of 64 bits for a wide register, is written to the register at an offset of a page; wait is the CTL_WR that
carries it. An absent page changes nothing (R57), and offsets without a register are reserved (R12). -/
def State.writeAt (s : State) (wait : Option (Nat × Frame)) (page at_ v : Nat) : Wrote × State :=
  match unitOf page, findReg page at_ with
  | some u, some (r, _) =>
    if !s.present page then wrote s
    else if at_ = 0x14 then
      let (warm, s) := s.writeUnitCtrl page v
      ({ reset := b2n warm }, s)
    else
      let s := s.when (u.ty = .drill && drillStaging at_) State.drillLapse
      match if at_ < 0x40 then none else s.writeOwn wait u page (page * 4096 + at_) v with
      | some r => r
      | none => wrote (s.writeStore r page at_ v)
  | _, _ => wrote s

/-- The words that a connection writes in two halves (R58): 64-bit registers, and CFG_COMMIT_LO with CFG_COMMIT_HI (R61). -/
def pairOf (page off : Nat) : Option Nat :=
  if page = 0 && (off = 0x58 || off = 0x5C) then some 0x58
  else match findReg page off with
    | some (r, at_) => if r.wide then some at_ else none
    | none => none

/-- One word of a CTL_WR of connection c (R58): a low word stays pending for the connection, a high word applies both, with the
register's current low word where none is pending. -/
def State.writeWord (s : State) (wait : Option (Nat × Frame)) (c page off v : Nat) : Wrote × State :=
  match pairOf page off with
  | none => s.writeAt wait page off v
  | some at_ =>
    let k := c * 2 ^ 32 + page * 4096 + at_
    if off = at_ then
      let s := s.when (page = 0xA && drillStaging at_ && s.present page) State.drillLapse
      wrote (s.onCtl fun x => { x with pendingLow := x.pendingLow.put k (BitVec.ofNat 32 v) })
    else
      let now := if s.readReg page at_ = 0 then s.reg (page * 4096 + at_) else s.readReg page at_
      let low := match s.ctl.pendingLow.get? k with
        | some w => w.toNat
        | none => now % 2 ^ 32
      let s := s.onCtl fun x => { x with pendingLow := x.pendingLow.del k }
      if page = 0 && at_ = 0x58 then (s.setReg Reg.rootCfgCommitLo low).writeAt wait page 0x5C v
      else s.writeAt wait page at_ (v * 2 ^ 32 + low)

/-- The words of a CTL_WR in ascending order (R41): the first status that is not OK stands. -/
def State.writeWords (s : State) (wait : Option (Nat × Frame)) (c page : Nat) : Nat → List Byte → Nat → Wrote × State
  | _, _, 0 => wrote s
  | off, bs, n + 1 =>
    let (w, s) := s.writeWord wait c page off (leNat (bs.take 4))
    let (x, s) := s.writeWords wait c page (off + 4) (bs.drop 4) n
    ({ st := if w.st = .ok then x.st else w.st, defer := w.defer || x.defer, reset := max w.reset x.reset }, s)

/-- The reset of the device that a write has asked for. -/
def State.resetAsked (s : State) (n : Nat) : State :=
  match n with
  | 1 => s.requestedWarm
  | 2 => s.requestedCold
  | _ => s

/-! ### CTL messages (R38 to R42, R57) -/

/-- The checks of a CTL message: the status with which it completes at once, acting on nothing, and whether CTL_BAD counts
it. In boot recovery the root and management pages alone are served (R413). -/
def State.ctlCheck (s : State) (port tenant : Nat) (f : Frame) : Option (Status × Bool) :=
  let a := f.addr.toNat
  let n := f.len.toNat
  let page := a / 4096
  if s.role port != 0 || tenant != 0 then some (.denied, true)
  else if 2 ^ 32 ≤ a || a % 4 != 0 || n % 4 != 0 || n < 4 || 4096 < n || 4096 < a % 4096 + n ||
      (f.ty = 0x31 && f.payload.length != n) then some (.unsupported, true)
  else if s.boot.step = .recovery && page != 0 && page != 9 then some (.held, false)
  else if (unitOf page).isNone then some (.notPresent, true)
  else none

/-- A CTL_RD or CTL_WR of connection c that arrived on a port. -/
def State.takeCtl (s : State) (c port : Nat) (f : Frame) : State :=
  match s.conn? c with
  | none => s
  | some k =>
    let page := f.addr.toNat / 4096
    let off := f.addr.toNat % 4096
    let n := f.len.toNat / 4
    match s.ctlCheck port k.tenant f with
    | some (st, bad) => (s.when bad fun s => s.bump Reg.rootCtlBad).respond c f st
    | none =>
      if f.ty = 0x30 then
        let (bs, s) := s.readWords c page off n
        s.respond c f .ok bs
      else if !s.present page then (s.bump Reg.rootAbsentWrites).respond c f .ok
      else
        let (w, s) := s.writeWords (some (c, f)) c page off f.payload n
        (if w.defer then s else s.respond c f w.st).resetAsked w.reset

/-! ### Rows: writes to registers -/

/-- A row's write of one register, with no message to answer. -/
def State.writeRow (s : State) (page at_ v : Nat) : State :=
  let (w, s) := s.writeAt none page at_ v
  s.resetAsked w.reset

/-- REGISTER_WRITE (R10). -/
def execRegisterWrite (page off : Nat) (value : BitVec 64) (s : State) : Answer :=
  work s fun s => match findReg page off with
    | some (r, at_) => s.writeRow page at_ (if r.wide then value.toNat else value.toNat % 2 ^ 32)
    | none => s

/-- AGENT_KILL (R90). -/
def execAgentKill (value : BitVec 32) (s : State) : Answer := work s (agentKillOp value)

/-- JOIN_KEY_INSTALL with INSTALL (R101). -/
def execJoinKeyInstall (s : State) : Answer := act s joinKeyInstallOp

/-- JOIN_KEY_INSTALL with ERASE (R101). -/
def execJoinKeyErase (s : State) : Answer := act s joinKeyEraseOp

/-- JOIN_KEY_INSTALL with both bits or with neither (R101). -/
def execJoinKeyInstallRefused (both : Bool) (s : State) : Answer := act s (joinKeyCmdOp (if both then 3 else 0))

/-- SA_INSTALL (R98). -/
def execSaInstall (port : Nat) (s : State) : Answer := act s (execSaInstallCore port)

/-- SA_INSTALL with RETIRE (R98). -/
def execSaRetire (port : Nat) (s : State) : Answer := act s (execSaRetireCore port)

/-- CLEAR_ASH (R160). -/
def execClearAsh (s : State) : Answer := work s fun s => (clearAshOp s).2

/-- A row's extent command on the registers as they stand. -/
def State.extRow (s : State) (cmd : Nat) : State := s.writeRow (tmPage 0) 0x7C cmd

/-- GRANT (R114). -/
def execGrant (s : State) : Answer := work s fun s => s.extRow 1

/-- REVOKE (R119). -/
def execRevoke (s : State) : Answer := work s fun s => s.extRow 2

/-- RELEASE (R114). -/
def execRelease (s : State) : Answer := work s fun s => s.extRow 3

/-- ADD_RIGHTS (R114). -/
def execAddRights (s : State) : Answer := work s fun s => s.extRow 4

/-- SET_DRILL (R114). -/
def execSetDrill (s : State) : Answer := work s fun s => s.extRow 5

/-- EXT_CMD with an unused CMD (R114). -/
def execExtCmdUnused (cmd : Nat) (s : State) : Answer :=
  work s fun s => if cmd % 8 = 0 || 6 ≤ cmd % 8 then s.extResult .unsupported else s

/-- QUOTA_NEAR (R121). -/
def execQuotaNear (value : BitVec 32) (s : State) : Answer := act s fun s => (s.writeQuotaNear value).2

/-- QUOTA_BULK (R121). -/
def execQuotaBulk (value : BitVec 32) (s : State) : Answer := act s fun s => (s.writeQuotaBulk value).2

/-- XLAT_APPLY (R178). -/
def execXlatApply (s : State) : Answer := work s fun s => (s.xlatApply none).2

/-- FAULT_RESUME with RETRY (R190). -/
def execFaultResumeRetry (batch : BitVec 16) (s : State) : Answer := work s fun s => (s.faultResume batch.toNat 0).2

/-- FAULT_RESUME with ABORT (R190). -/
def execFaultResumeAbort (batch : BitVec 16) (s : State) : Answer := work s fun s => (s.faultResume batch.toNat 1).2

/-- FAULT_RESUME with another ACTION (R190). -/
def execFaultResumeBadAction (batch : BitVec 16) (action : Nat) (s : State) : Answer :=
  work s fun s => (s.faultResume batch.toNat (if action = 3 then 3 else 2)).2

/-- POOL_HIGH (R226). -/
def execPoolHigh (half : Nat) (s : State) : Answer := act s (poolHighOp (half % 2))

/-- PEER_CMD OPEN (R227). -/
def execPeerOpen (s : State) : Answer := work s (peerOpenOp none)

/-- PEER_CMD CLOSE (R227). -/
def execPeerClose (s : State) : Answer := work s peerCloseOp

/-- PAL_CMD INSTALL (R270). -/
def execPalInstall (s : State) : Answer := work s palInstallOp

/-- PAL_CMD BUILD (R273). -/
def execPalBuild (s : State) : Answer := work s palBuildOp

/-- PAL_CMD CONFIG (R290). -/
def execPalConfig (s : State) : Answer := work s palConfigOp

/-- PAL_CMD CLEAR (R290). -/
def execPalClear (s : State) : Answer := work s palClearOp

/-- PAL_CMD READ (R290). -/
def execPalRead (s : State) : Answer := act s palReadOp

/-- PAIR_KEY_INSTALL with INSTALL (R377). -/
def execPairKeyInstall (s : State) : Answer := act s pairKeyInstallOp

/-- PAIR_KEY_INSTALL with ERASE (R377). -/
def execPairKeyErase (s : State) : Answer := act s pairKeyEraseOp

/-- TWIN_WITNESS FORM (R394). -/
def execWitnessForm (s : State) : Answer := work s witnessFormOp

/-- TWIN_WITNESS CONFIRM (R394). -/
def execWitnessConfirm (incarn : BitVec 8) (s : State) : Answer := work s (witnessConfirmOp incarn)

/-- TWIN_WITNESS FENCE (R394). -/
def execWitnessFence (s : State) : Answer := work s witnessFenceOp

/-- LEASE_CMD MOVE (R392). -/
def execLeaseMove (s : State) : Answer := work s leaseMoveOp

end Sys2Proof.Machine
end

