-- ==== Sys2Proof/Machine/Receive.lean ====
section
/-! DEFINITION. Frames that arrive (Table 3-7, R66, R68, R74, R80, R81, R83, R85, R94, R96, R406, R409, R413): the ingress
checks, sequence and OP_ID windows, admission, and the change of the carve that admission waits for. -/

namespace Sys2Proof.Machine

/-! ### Steps 1 to 5 of Table 3-7 -/

/-- A frame is dropped at a step that counts in RX_DROP_HDR. -/
def State.dropHdr (s : State) (port : Nat) : State := (s.bump (Reg.portRxDropHdr (portPage port))).drillCount port

/-- Step 2: the MACsec check of a port that has it on; the association's next packet number (Table 3-2). -/
def State.macsec (s : State) (rx : Rx) : Bool × State :=
  let ctrl := s.reg (Reg.portMacsecCtrl (portPage rx.port))
  if !bit ctrl 0 then (true, s)
  else match rx.tag with
    | none => (false, s)
    | some tag =>
      let k := saKey rx.port 0 tag.an.toNat
      match s.net.sas.get? k with
      | none => (false, s)
      | some sa =>
        let window := s.reg (Reg.portMacsecReplay (portPage rx.port)) % 2 ^ 30
        let pn := tag.pn.toNat
        if (bit ctrl 1 && pn + window < sa.pn) || !Config.macsecVerifies sa.sak sa.salt sa.ssci tag rx.f then (false, s)
        else (true, s.onNet fun n => { n with sas := n.sas.put k { sa with pn := max sa.pn (pn + 1) } })

/-- Step 3: the destination is the port's own address, or that of the lock group of which it is an active member (R67). -/
def State.aimed (s : State) (rx : Rx) : Bool :=
  rx.udpOk && rx.dport = s.udpPort &&
  (rx.dst = s.portIp rx.port || (match s.groupOf rx.port with
    | some g => (s.lgActive g).contains rx.port && rx.dst = s.lgIp g
    | none => false))

/-- Whether a TWIN frame carries the extension of Table 13-1 directly after word 8, with a KIND of Table 13-2 (R381). -/
def twinForm (f : Frame) : Bool :=
  match f.ext, twinExt f with
  | w :: _, some (kind, ws) => bits w.toNat 31 24 = 2 && ws.length = 3 && twinKinds.contains kind
  | _, _ => false

/-- Whether a TYPE is allowed on the role of the port where it arrives (Table 3-1, R66, R81). JOIN and CTL messages pass, to be
answered by Table 3-11 and R38, but CTL not on a twin port, where R66 drops it (log entry 69). -/
def State.roleAllows (s : State) (rx : Rx) : Bool :=
  let ty := rx.f.ty.toNat
  if strayType ty then true
  else match s.role rx.port with
    | 0 => ty != 0x60 && (rx.f.tenant = 0 || ty = 0x50 || ty = 0x30 || ty = 0x31)
    | 1 => ty != 0x60
    | _ => ty = 0x60 || ty = 0x53

/-- Step 4: version, header length, extensions, TYPE. -/
def State.formed (s : State) (rx : Rx) : Bool :=
  rx.f.ver = 1 && (frameExt rx.f).isSome && s.roleAllows rx && (rx.f.ty != 0x60 || twinForm rx.f)

/-- The frame that answers one of a former incarnation, UNSEQ (Table 3-7 steps 6 and 7). -/
def State.sendStale (s : State) (rx : Rx) : State :=
  let f := respFrame rx.f .staleIncarnation []
  (s.bump Reg.pgStaleSent).sendBack rx { f with conn := rx.f.conn }

/-! ### Step 11: admission -/

/-- Complete a request at its admission. -/
def State.refuseReq (s : State) (c : Nat) (f : Frame) (st : Status) : State :=
  if f.ty = 0x04 then s.refuseJob (jobOf c f true) st
  else if f.ty = 0x05 then s.refuseJob (jobOf c f false) st
  else s.respond c f st

/-- Admit a request whose OP_ID is new (Table 3-7 step 11, R94, R96, R406, R409, R413). -/
def State.admitReq (s : State) (c port : Nat) (f : Frame) : State :=
  let ty := f.ty.toNat
  let ctl := ty = 0x30 || ty = 0x31
  if s.reg Reg.pgOpsMax ≤ s.connAdmitted c then s.refuseReq c f .busy
  else if ctl then s.takeCtl c port f
  else if strayType ty then s.respond c f .unsupported
  else if s.boot.step = .rom || s.boot.step = .recovery || s.boot.step = .command then s.refuseReq c f .held
  else if s.boot.service = .full && s.boot.carveWait then
    s.onBoot fun b => { b with waiting := b.waiting ++ [{ conn := c, f := f, port := port }] }
  else match ty with
    | 0x04 => s.takeJob c f true
    | 0x05 => s.takeJob c f false
    | 0x20 => s.takeInval c f
    | _ => s.takeAccess c f

/-! ### Step 10: OP_IDs (R85) -/

/-- How an OP_ID lies to the connection's window. -/
inductive OpPlace where
  | fresh
  | outside
  | seen (o : OpRec)
  deriving DecidableEq, Repr

/-- The window of the 65,536 OP_IDs ending at the highest seen. -/
def Conn.opPlace (k : Conn) (id : BitVec 32) : OpPlace :=
  match k.highOp with
  | none => .fresh
  | some high =>
    let ahead := (id - high).toNat
    let back := (high - id).toNat
    if ahead ≤ 2 ^ 31 && ahead != 0 then .fresh
    else if 65536 ≤ back then .outside
    else match k.ops.find? (·.opId = id) with
      | some o => .seen o
      | none => .fresh

/-- The connection remembers an OP_ID, with its command; what has left the window is forgotten once it is answered. -/
def Conn.noteOp (k : Conn) (id : BitVec 32) : Conn :=
  let high := match k.highOp with
    | none => id
    | some h => if (id - h).toNat ≤ 2 ^ 31 then id else h
  let keep (o : OpRec) : Bool := (high - o.opId).toNat < 65536 || !o.acked
  { k with highOp := some high, ops := k.ops.filter keep ++ [{ opId := id, cmd := k.cmd }] }

/-- LEAVE: an OPEN connection admits nothing more (Table 3-9). -/
def State.takeLeave (s : State) (c : Nat) (f : Frame) : State :=
  s.onConn c fun k => if k.st = .openC then { k with st := .leaving, leave := some (f.path.toNat, f.opId) } else k

/-- Take a request in its SEQ place: duplicates are answered as R85 says, CMD_END ends the command (R80). -/
def State.takeReq (s : State) (c port : Nat) (f : Frame) : State :=
  match s.conn? c with
  | none => s
  | some k =>
    let s := match k.opPlace f.opId with
      | .outside => s.bump Reg.pgDupDropped
      | .seen o =>
        match o.resp with
        | none => s
        | some r => if o.acked then s.bump Reg.pgDupDropped else if o.held then s else s.sendSeq c r
      | .fresh =>
        let s := s.onConn c fun k => k.noteOp f.opId
        if f.ty = 0x52 then s.takeLeave c f else s.admitReq c port f
    s.when (has f fCmdEnd) fun s => s.onConn c fun k => { k with cmd := k.cmd + 1 }

/-! ### Frames in SEQ order -/

/-- The kind of answer that an ACK carries in ADDR[5:0] (Table 5-4). -/
def ackKind (f : Frame) : Option AnsKind :=
  match f.addr.toNat % 64 with
  | 1 => some .invAck
  | 2 => some .fwdDone
  | 4 => some .recallAck
  | 5 => some .noData
  | _ => none

/-- Take one sequenced frame of an agent's connection in its SEQ place. In LEAVING a request is dropped and an answer to a home
message is taken (Table 3-9). -/
def State.takeSeq (s : State) (c port : Nat) (f : Frame) : State :=
  match s.conn? c with
  | none => s
  | some k =>
    let ty := f.ty.toNat
    let resp := has f fResp
    if ty = 0x53 then s
    else if ty = 0x1B && resp then
      match ackKind f with
      | some kind => s.takeAnswer k.agent f.opId.toNat kind []
      | none => s.dropHdr port
    else if ty = 0x1B && f.addr.toNat % 64 = 3 then s.takeRecvDone c f.opId
    else if ty = 0x1A && resp then s.takeAnswer k.agent f.opId.toNat .data f.payload
    else if ty = 0x1A || ty = 0x1B || resp then s.dropHdr port
    else if k.st != .openC then s
    else s.takeReq c port f

/-- Frames that stand next in SEQ order are taken, one by one. -/
def State.drain (s : State) (c : Nat) : Nat → State
  | 0 => s
  | n + 1 =>
    match s.conn? c with
    | none => s
    | some k => match k.rxHeld.get? k.rxNext.toNat with
      | none => s
      | some h =>
        let s := s.onConn c fun k => { k with rxHeld := k.rxHeld.del k.rxNext.toNat, rxNext := k.rxNext + 1 }
        let s := if c = twinConn then s.takeTwin h.f else s.takeSeq c h.port h.f
        s.drain c n

/-- The skew check of a frame on a lock group's path (R74): the third violation of a member within 1 ms removes it. -/
def State.skew (s : State) (c : Nat) (rx : Rx) : State :=
  match s.conn? c with
  | none => s
  | some k => match k.paths.get? rx.f.path.toNat, s.groupOf rx.port with
    | some q, some g =>
      if q.dip != s.lgIp g then s
      else
        let late := q.arrivals.any fun a => a.2.2 != rx.port && seqBefore rx.f.seq a.1 && decide (a.2.1 + 2001 ≤ s.now)
        let near := q.arrivals.filter fun a => !seqBefore a.1 k.rxNext
        let s := s.onPath c rx.f.path.toNat fun q => { q with arrivals := (rx.f.seq, s.now, rx.port) :: near }
        if !late then s
        else
          let v := (rx.port, s.now) :: (s.groupSt g).violations.filter fun v => decide (s.now < v.2 + 1000001)
          let s := s.onGroup g fun x => { x with violations := v }
          if 3 ≤ v.countP (fun e => e.1 = rx.port) then s.removeMember g rx.port else s
    | _, _ => s

/-- Step 9 for a sequenced frame of connection c, and the acknowledgement that it calls for (R85). -/
def State.rxSeq (s : State) (c : Nat) (rx : Rx) : State :=
  match s.conn? c with
  | none => s
  | some k =>
    let f := rx.f
    let d := (f.seq - k.rxNext).toNat
    if 2 ^ 31 ≤ d || (k.rxHeld.get? f.seq.toNat).isSome then (s.bump Reg.pgDupDropped).sendAck c f.path.toNat
    else if 256 ≤ d then s.bump Reg.pgRxWindowDrop
    else
      let s := s.skew c rx
      let h : HeldFrame := { port := rx.port, f := f }
      let s := s.onConn c fun k => { k with rxHeld := k.rxHeld.put f.seq.toNat h, unackedCount := k.unackedCount + 1,
                                            unackedSince := some (k.unackedSince.getD s.ran) }
      let s := s.drain c 257
      match s.conn? c with
      | some k => if 8 ≤ k.unackedCount then s.sendAck c (s.anyPath c) else s
      | none => s

/-! ### HELLO and congestion marks -/

/-- HELLO with PROBE (R86): a request is answered, an answer is a sample; any other HELLO is not answered. A path of the twin
connection opens only by PAIR_HELLO (R378). -/
def State.rxHello (s : State) (c : Nat) (rx : Rx) : State :=
  let opened := (s.conn? c).any fun k => (k.paths.getD rx.f.path.toNat { }).opened
  if !has rx.f fProbe then s
  else if has rx.f fResp then (if opened then s.takeProbeAnswer c rx else s)
  else if c = twinConn && !opened then s
  else s.takeProbe c rx

/-- CE as the port sees it: carried, or taken as carried by an ECT frame that meets an ingress buffer more than half full
(R68). -/
def rxMarked (rx : Rx) : Bool := rx.ecn = .ce || (rx.ecn = .ect && rx.fill != .room)

/-- ECE is echoed on a path from CE on until CWR is seen; ECE that arrives there is seen in this round-trip time (R89). -/
def State.rxMarks (s : State) (c : Nat) (rx : Rx) : State :=
  s.onPath c rx.f.path.toNat fun q => { q with echoEce := (q.echoEce && !has rx.f fCwr) || rxMarked rx,
                                               eceSeen := q.eceSeen || has rx.f fEce }

/-! ### Steps 6 to 10 -/

/-- A frame of a connection that has passed steps 6 to 8. -/
def State.rxConn (s : State) (c : Nat) (rx : Rx) : State :=
  let f := rx.f
  let s := s.onConn c fun k => { k with lastHeard := s.ran }
  let s := (s.rxMarks c rx).takeAck c f.path.toNat f
  if f.ty = 0x53 then
    let s := s.rxHello c rx
    if has f fUnseq then s else s.rxSeq c rx
  else if has f fUnseq then (if f.ty = 0x60 then s else s.dropHdr rx.port)
  else s.rxSeq c rx

/-- A TWIN frame, or a HELLO on a twin port (R378, R380): PAIR_HELLO is checked by its token; the rest belongs to the partner's
known incarnation and to an open path. -/
def State.rxTwin (s : State) (rx : Rx) : State :=
  let f := rx.f
  if !s.paired || s.boot.service = .greyscale then s
  else if f.ty = 0x60 && (twinExt f).any (fun e => e.1 = 1) then s.takePairHello rx
  else
    let opened := (s.conn? twinConn).any fun k => (k.paths.getD f.path.toNat { }).opened
    if opened && s.twin.partnerIncarn = some f.incarn && f.conn = 1 then (s.twinHeard f).rxConn twinConn rx else s

/-- A frame that has passed steps 1 to 5 (Table 3-7 steps 6 to 8). -/
def State.rxAccepted (s : State) (rx : Rx) : State :=
  let f := rx.f
  let direct := f.ty = 0x1A && f.conn = 0xFFFFFF && has f fUnseq
  let stale := f.incarn != s.boot.incarn
  if f.ty = 0x50 then (if has f fResp then s.dropHdr rx.port else s.takeJoin rx)
  else if s.role rx.port = 2 && (f.ty = 0x60 || f.ty = 0x53) then s.rxTwin rx
  else if direct then (if stale then s.sendStale rx else s.takeDirect f.opId.toNat f.payload)
  else match (s.conn? f.conn.toNat).filter fun k => k.active with
    | none =>
      if strayType f.ty.toNat then s.dropHdr rx.port
      else if stale then s.sendStale rx else s.bump Reg.pgStaleDropped
    | some k =>
      if stale then s.sendStale rx
      else if k.tenant != f.tenant.toNat || k.agent != f.agent.toNat then s.dropHdr rx.port
      else s.rxConn f.conn.toNat rx

/-- FEC decodes a frame: the codewords that it corrects count (Table 3-12). -/
def State.decoded (s : State) (rx : Rx) : State :=
  s.when (rx.corrected != 0) fun s => s.bump64 (Reg.portFecCorr (portPage rx.port)) rx.corrected

/-- A frame has passed step 1: it is received (RX_FRAMES). -/
def State.received (s : State) (rx : Rx) : State := (s.decoded rx).bump64 (Reg.portRxFrames (portPage rx.port))

/-- A frame arrives (Table 3-7). A port that is down or OFF, or that a drill mutes, takes none. -/
def State.rxFrame (s : State) (rx : Rx) : State :=
  let pg := portPage rx.port
  if !s.hasPort rx.port || !(s.portSt rx.port).up || s.ownState pg = .off || s.twinMuted rx.port then s
  else
    let (dropped, s) := s.drillDrop rx.port 0
    if dropped then s
    else
    if !rx.fecOk then ((s.decoded rx).bump64 (Reg.portFecUncorr pg)).drillCount rx.port
    else if !rx.fcsOk then (s.decoded rx).dropHdr rx.port
    else
      let s := s.received rx
      let (ok, s) := s.macsec rx
      if !ok then ((s.bump (Reg.portMacsecDrop pg)).drillCount rx.port).raiseQuiet (16 + 4 * rx.port + 2)
      else if !s.aimed rx || !s.formed rx then s.dropHdr rx.port
      else if rx.fill = .full then ((s.bump (Reg.portRxDropBuf pg)).drillCount rx.port).raiseQuiet (16 + 4 * rx.port + 3)
      else (s.when (rxMarked rx) fun s => s.bump (Reg.portRxCe pg)).rxAccepted rx

/-! ### The carve change (R34, R36, R409, R410) -/

/-- ASH and RHM entries that find every way of their set taken go to the overflow list (R410). -/
def State.respill (s : State) : State :=
  let lines := s.coh.dir.map (·.1)
  let s := s.onCoh fun c => { c with dir := c.dir.map fun (l, e) => (l, { e with spilled := false }) }
  let spills := (lines.foldl (fun (kept, out) l =>
    if 16 ≤ (kept.filter fun m => s.sameSet m l).length then (kept, out ++ [l]) else (kept ++ [l], out))
    (([] : List Nat), ([] : List Nat))).2
  s.onCoh fun c => { c with dir := c.dir.map fun (l, e) => (l, { e with spilled := spills.contains l }) }

/-- CARVE_CHANGE: the request pool has drained; the committed carve is laid out, the directory is reloaded, the rehome window
opens, and the requests that waited are admitted. -/
def carveChangeOp (s : State) : State :=
  if s.boot.service != .full || !s.boot.carveWait || s.poolUsed 0 != 0 || s.poolUsed 1 != 0 then s
  else
    let waiting := s.boot.waiting
    let carve := s.carveSizes
    let s := (s.onBoot fun b => { b with carve := carve, carveWait := false, entered := true, waiting := [] }).respill
    let s := s.onCoh fun c => if c.rehomeSt = .awaiting then { c with rehomeSt := .opened, rehomeAt := s.ran } else c
    waiting.foldl (fun s w =>
      if (s.conn? w.conn).any fun k => k.st = .openC then s.admitReq w.conn w.port w.f else s) s

/-! ### Rows: frames -/

/-- The operand's frame as a row's message: TYPE and the flag RESP. -/
def asType (ty : Nat) (resp : Bool) (rx : Rx) : Rx :=
  let f := { rx.f with ty := BitVec.ofNat 8 ty, flags := rx.f.flags &&& ~~~ BitVec.twoPow 12 fResp }
  { rx with f := flagIf resp fResp f }

/-- The operand's frame with a flag set or cleared. -/
def asFlag (k : Nat) (on : Bool) (rx : Rx) : Rx :=
  { rx with f := flagIf on k { rx.f with flags := rx.f.flags &&& ~~~ BitVec.twoPow 12 k } }

/-- An ACK of a kind. -/
def asAck (kind : Nat) (resp : Bool) (rx : Rx) : Rx :=
  let rx := asType 0x1B resp rx
  { rx with f := { rx.f with addr := rx.f.addr &&& ~~~ 0x3F#64 ||| BitVec.ofNat 64 kind } }

/-- An ATOMIC of an OPCODE. -/
def asAtomic (opcode : Nat) (rx : Rx) : Rx :=
  let rx := asType 0x03 false rx
  { rx with f := { rx.f with payload := rx.f.payload.set 0 (BitVec.ofNat 8 opcode) } }

/-- A JOB or BULK of a JOB_TYPE. -/
def asJob (ty job : Nat) (rx : Rx) : Rx :=
  let rx := asType ty false rx
  { rx with f := { rx.f with payload := (rx.f.payload.set 0 (BitVec.ofNat 8 job)).set 1 (BitVec.ofNat 8 (job / 256)) } }

/-- A TWIN frame of a KIND. -/
def asTwin (kind : Nat) (rx : Rx) : Rx :=
  let rx := asType 0x60 false rx
  { rx with f := { rx.f with ext := match rx.f.ext with
      | w :: ws => (w &&& ~~~ 0xFF#32 ||| BitVec.ofNat 32 kind) :: ws
      | [] => [] } }

/-- CARVE_CHANGE (R409). -/
def execCarveChange (s : State) : Answer := work s carveChangeOp

/-- JOIN (R92). -/
def execJoinFrame (rx : Rx) (s : State) : Answer := work s fun s => s.rxFrame (asType 0x50 false rx)

/-- LEAVE (R90). -/
def execLeave (rx : Rx) (s : State) : Answer := work s fun s => s.rxFrame (asType 0x52 false rx)

/-- HELLO with PROBE 1 and RESP 0 (R86). -/
def execHelloProbe (rx : Rx) (s : State) : Answer := work s fun s => s.rxFrame (asFlag fProbe true (asType 0x53 false rx))

/-- HELLO with PROBE 1 and RESP 1 (R86). -/
def execHelloAnswer (rx : Rx) (s : State) : Answer := work s fun s => s.rxFrame (asFlag fProbe true (asType 0x53 true rx))

/-- HELLO with PROBE 0 (R86). -/
def execHello (rx : Rx) (s : State) : Answer := work s fun s => s.rxFrame (asFlag fProbe false (asType 0x53 false rx))

/-- A frame of a TYPE that an agent may not send (R81). -/
def execUnknownType (rx : Rx) (s : State) : Answer :=
  work s fun s => s.rxFrame (if strayType rx.f.ty.toNat then rx else { rx with f := { rx.f with ty := 0xFF } })

/-- CTL_RD (R41). -/
def execCtlRd (rx : Rx) (s : State) : Answer := work s fun s => s.rxFrame (asType 0x30 false rx)

/-- CTL_WR (R41). -/
def execCtlWr (rx : Rx) (s : State) : Answer := work s fun s => s.rxFrame (asType 0x31 false rx)

/-- READ (R151). -/
def execRead (rx : Rx) (s : State) : Answer := work s fun s => s.rxFrame (asType 0x01 false rx)

/-- WRITE without COMPRESS (R151). -/
def execWrite (rx : Rx) (s : State) : Answer := work s fun s => s.rxFrame (asFlag fCompress false (asType 0x02 false rx))

/-- WRITE with COMPRESS (R275). -/
def execCompressWrite (rx : Rx) (s : State) : Answer := work s fun s => s.rxFrame (asFlag fCompress true (asType 0x02 false rx))

/-- FADD_I32 (R219). -/
def execFaddI32 (rx : Rx) (s : State) : Answer := work s fun s => s.rxFrame (asAtomic 0x01 rx)

/-- FADD_I64 (R219). -/
def execFaddI64 (rx : Rx) (s : State) : Answer := work s fun s => s.rxFrame (asAtomic 0x02 rx)

/-- FADD_F32 (R219). -/
def execFaddF32 (rx : Rx) (s : State) : Answer := work s fun s => s.rxFrame (asAtomic 0x03 rx)

/-- SWAP (R219). -/
def execAtomicSwap (rx : Rx) (s : State) : Answer := work s fun s => s.rxFrame (asAtomic 0x04 rx)

/-- CAS (R219). -/
def execAtomicCas (rx : Rx) (s : State) : Answer := work s fun s => s.rxFrame (asAtomic 0x05 rx)

/-- SMIN (R219). -/
def execAtomicSmin (rx : Rx) (s : State) : Answer := work s fun s => s.rxFrame (asAtomic 0x06 rx)

/-- SMAX (R219). -/
def execAtomicSmax (rx : Rx) (s : State) : Answer := work s fun s => s.rxFrame (asAtomic 0x07 rx)

/-- UMIN (R219). -/
def execAtomicUmin (rx : Rx) (s : State) : Answer := work s fun s => s.rxFrame (asAtomic 0x08 rx)

/-- UMAX (R219). -/
def execAtomicUmax (rx : Rx) (s : State) : Answer := work s fun s => s.rxFrame (asAtomic 0x09 rx)

/-- AND (R219). -/
def execAtomicAnd (rx : Rx) (s : State) : Answer := work s fun s => s.rxFrame (asAtomic 0x0A rx)

/-- OR (R219). -/
def execAtomicOr (rx : Rx) (s : State) : Answer := work s fun s => s.rxFrame (asAtomic 0x0B rx)

/-- XOR (R219). -/
def execAtomicXor (rx : Rx) (s : State) : Answer := work s fun s => s.rxFrame (asAtomic 0x0C rx)

/-- An ATOMIC of an OPCODE outside Table 7-6 (R218). -/
def execAtomicBadOpcode (rx : Rx) (s : State) : Answer :=
  work s fun s => s.rxFrame (asAtomic (if 1 ≤ atomicOpcode rx.f && atomicOpcode rx.f ≤ 0x0C then 0 else atomicOpcode rx.f) rx)

/-- GET_S (R144). -/
def execGetS (rx : Rx) (s : State) : Answer := work s fun s => s.rxFrame (asType 0x10 false rx)

/-- GET_M (R144). -/
def execGetM (rx : Rx) (s : State) : Answer := work s fun s => s.rxFrame (asType 0x11 false rx)

/-- UPGRADE (R144). -/
def execUpgrade (rx : Rx) (s : State) : Answer := work s fun s => s.rxFrame (asType 0x12 false rx)

/-- PUT_M (R144). -/
def execPutM (rx : Rx) (s : State) : Answer := work s fun s => s.rxFrame (asType 0x13 false rx)

/-- PUT_O (R144). -/
def execPutO (rx : Rx) (s : State) : Answer := work s fun s => s.rxFrame (asType 0x14 false rx)

/-- PUT_E (R144). -/
def execPutE (rx : Rx) (s : State) : Answer := work s fun s => s.rxFrame (asType 0x15 false rx)

/-- INV_ACK (R149). -/
def execInvAck (rx : Rx) (s : State) : Answer := work s fun s => s.rxFrame (asAck 1 true rx)

/-- FWD_DONE (R145). -/
def execFwdDone (rx : Rx) (s : State) : Answer := work s fun s => s.rxFrame (asAck 2 true rx)

/-- RECV_DONE (R145). -/
def execRecvDone (rx : Rx) (s : State) : Answer := work s fun s => s.rxFrame (asAck 3 false rx)

/-- RECALL_ACK (R149). -/
def execRecallAck (rx : Rx) (s : State) : Answer := work s fun s => s.rxFrame (asAck 4 true rx)

/-- NO_DATA (R149). -/
def execNoData (rx : Rx) (s : State) : Answer := work s fun s => s.rxFrame (asAck 5 true rx)

/-- DATA that answers a home message (R148). -/
def execDataAnswer (rx : Rx) (s : State) : Answer := work s fun s => s.rxFrame (asFlag fUnseq false (asType 0x1A true rx))

/-- A direct DATA (R151). -/
def execDirectData (rx : Rx) (s : State) : Answer :=
  work s fun s =>
    let rx := asFlag fUnseq true (asType 0x1A true rx)
    s.rxFrame { rx with f := { rx.f with conn := 0xFFFFFF } }

/-- INVAL (R194). -/
def execInval (rx : Rx) (s : State) : Answer := work s fun s => s.rxFrame (asType 0x20 false rx)

/-- FILL (R212). -/
def execBulkFill (rx : Rx) (s : State) : Answer := work s fun s => s.rxFrame (asJob 0x04 0x0001 rx)

/-- COPY (R215). -/
def execBulkCopy (rx : Rx) (s : State) : Answer := work s fun s => s.rxFrame (asJob 0x04 0x0002 rx)

/-- COMPARE (R213). -/
def execBulkCompare (rx : Rx) (s : State) : Answer := work s fun s => s.rxFrame (asJob 0x04 0x0003 rx)

/-- REDUCE (R216). -/
def execBulkReduce (rx : Rx) (s : State) : Answer := work s fun s => s.rxFrame (asJob 0x04 0x0004 rx)

/-- TIER_POLICY (R123). -/
def execTierPolicy (rx : Rx) (s : State) : Answer := work s fun s => s.rxFrame (asJob 0x05 0x0010 rx)

/-- RECODE (R278). -/
def execRecode (rx : Rx) (s : State) : Answer := work s fun s => s.rxFrame (asJob 0x05 0x0011 rx)

/-- MATMUL (R246). -/
def execMatmul (rx : Rx) (s : State) : Answer := work s fun s => s.rxFrame (asJob 0x05 0x0100 rx)

/-- CONVERT (R250). -/
def execConvert (rx : Rx) (s : State) : Answer := work s fun s => s.rxFrame (asJob 0x05 0x0101 rx)

/-- SESSION_OPEN (R298). -/
def execSessionOpen (rx : Rx) (s : State) : Answer := work s fun s => s.rxFrame (asJob 0x05 0x0200 rx)

/-- SESSION_CLOSE (R299). -/
def execSessionClose (rx : Rx) (s : State) : Answer := work s fun s => s.rxFrame (asJob 0x05 0x0201 rx)

/-- KV_APPEND (R300). -/
def execKvAppend (rx : Rx) (s : State) : Answer := work s fun s => s.rxFrame (asJob 0x05 0x0202 rx)

/-- ATTEND (R307). -/
def execAttend (rx : Rx) (s : State) : Answer := work s fun s => s.rxFrame (asJob 0x05 0x0203 rx)

/-- WAKE (R311). -/
def execWake (rx : Rx) (s : State) : Answer := work s fun s => s.rxFrame (asJob 0x05 0x0204 rx)

/-- SLEEP (R311). -/
def execSleep (rx : Rx) (s : State) : Answer := work s fun s => s.rxFrame (asJob 0x05 0x0205 rx)

/-- TABLE_OPEN (R318). -/
def execTableOpen (rx : Rx) (s : State) : Answer := work s fun s => s.rxFrame (asJob 0x05 0x0300 rx)

/-- TABLE_VERSION (R320). -/
def execTableVersion (rx : Rx) (s : State) : Answer := work s fun s => s.rxFrame (asJob 0x05 0x0301 rx)

/-- TABLE_CLOSE (R322). -/
def execTableClose (rx : Rx) (s : State) : Answer := work s fun s => s.rxFrame (asJob 0x05 0x0302 rx)

/-- GATHER (R330). -/
def execGather (rx : Rx) (s : State) : Answer := work s fun s => s.rxFrame (asJob 0x05 0x0310 rx)

/-- MERGE_UPDATE (R333). -/
def execMergeUpdate (rx : Rx) (s : State) : Answer := work s fun s => s.rxFrame (asJob 0x05 0x0311 rx)

/-- COLL_OPEN (R348). -/
def execCollOpen (rx : Rx) (s : State) : Answer := work s fun s => s.rxFrame (asJob 0x05 0x0400 rx)

/-- COLL_CLOSE (R356). -/
def execCollClose (rx : Rx) (s : State) : Answer := work s fun s => s.rxFrame (asJob 0x05 0x0401 rx)

/-- INSERT (R357). -/
def execInsertJob (rx : Rx) (s : State) : Answer := work s fun s => s.rxFrame (asJob 0x05 0x0402 rx)

/-- DELETE (R358). -/
def execDeleteJob (rx : Rx) (s : State) : Answer := work s fun s => s.rxFrame (asJob 0x05 0x0403 rx)

/-- SEARCH (R364). -/
def execSearchJob (rx : Rx) (s : State) : Answer := work s fun s => s.rxFrame (asJob 0x05 0x0404 rx)

/-- MERGE (R368). -/
def execMergeColl (rx : Rx) (s : State) : Answer := work s fun s => s.rxFrame (asJob 0x05 0x0405 rx)

/-- MERGE_RESUME with an ACTION (R371). -/
def asMergeAct (action : Nat) (rx : Rx) : Rx :=
  let rx := asJob 0x05 0x0406 rx
  { rx with f := { rx.f with payload := rx.f.payload.set 36 (BitVec.ofNat 8 action) } }

/-- MERGE_RESUME with ACTION RESUME (R371). -/
def execMergeResume (rx : Rx) (s : State) : Answer := work s fun s => s.rxFrame (asMergeAct 0 rx)

/-- MERGE_RESUME with ACTION ABANDON (R371). -/
def execMergeAbandon (rx : Rx) (s : State) : Answer := work s fun s => s.rxFrame (asMergeAct 1 rx)

/-- A JOB or BULK of an unassigned JOB_TYPE (R204). -/
def execUnassignedJobType (rx : Rx) (s : State) : Answer :=
  work s fun s =>
    let ty := if rx.f.ty = 0x04 then 0x04 else 0x05
    let job := leField rx.f.payload 0 2
    let assigned := if ty = 0x04 then bulkType job else jobTypes.contains job
    s.rxFrame (asJob ty (if assigned then 0 else job) rx)

/-- PAIR_HELLO, which carries no SEQ (R380). -/
def execPairHello (rx : Rx) (s : State) : Answer := work s fun s => s.rxFrame (asFlag fUnseq true (asTwin 0x01 rx))

/-- BEAT, which carries no SEQ (R395). -/
def execBeat (rx : Rx) (s : State) : Answer := work s fun s => s.rxFrame (asFlag fUnseq true (asTwin 0x02 rx))

/-- RENEW (R393). -/
def execRenew (rx : Rx) (s : State) : Answer := work s fun s => s.rxFrame (asTwin 0x03 rx)

/-- LEASE_LIST (R393). -/
def execLeaseList (rx : Rx) (s : State) : Answer := work s fun s => s.rxFrame (asTwin 0x04 rx)

/-- GIVE (R392). -/
def execGive (rx : Rx) (s : State) : Answer := work s fun s => s.rxFrame (asTwin 0x05 rx)

/-- TAKE (R392). -/
def execTake (rx : Rx) (s : State) : Answer := work s fun s => s.rxFrame (asTwin 0x06 rx)

/-- HANDOVER (R389). -/
def execHandover (rx : Rx) (s : State) : Answer := work s fun s => s.rxFrame (asTwin 0x10 rx)

/-- TAKEN (R389). -/
def execTaken (rx : Rx) (s : State) : Answer := work s fun s => s.rxFrame (asTwin 0x11 rx)

/-- DONE (R389). -/
def execTwinDone (rx : Rx) (s : State) : Answer := work s fun s => s.rxFrame (asTwin 0x12 rx)

/-- MIRROR (R385). -/
def execMirror (rx : Rx) (s : State) : Answer := work s fun s => s.rxFrame (asTwin 0x20 rx)

/-- MIRROR_ACK (R385). -/
def execMirrorAck (rx : Rx) (s : State) : Answer := work s fun s => s.rxFrame (asTwin 0x21 rx)

/-- RETIRE (R385). -/
def execRetire (rx : Rx) (s : State) : Answer := work s fun s => s.rxFrame (asTwin 0x22 rx)

/-- ORPHAN_STATE (R391). -/
def execOrphanState (rx : Rx) (s : State) : Answer := work s fun s => s.rxFrame (asTwin 0x30 rx)

/-- COPY (R400). -/
def execTwinCopy (rx : Rx) (s : State) : Answer := work s fun s => s.rxFrame (asTwin 0x40 rx)

/-- CHECKPOINT (R401). -/
def execCheckpoint (rx : Rx) (s : State) : Answer := work s fun s => s.rxFrame (asTwin 0x41 rx)

/-- EXT_CMD (R383). -/
def execTwinExtCmd (rx : Rx) (s : State) : Answer := work s fun s => s.rxFrame (asTwin 0x50 rx)

/-- EXT_DONE (R383). -/
def execExtDone (rx : Rx) (s : State) : Answer := work s fun s => s.rxFrame (asTwin 0x51 rx)

/-- RESET_NOTICE (R399). -/
def execResetNotice (rx : Rx) (s : State) : Answer := work s fun s => s.rxFrame (asTwin 0x60 rx)

/-- A TWIN frame of an unknown KIND (R381). -/
def execTwinUnknownKind (rx : Rx) (s : State) : Answer :=
  work s fun s =>
    let kind := (rx.f.ext.headD 0).toNat % 256
    s.rxFrame (asTwin (if twinKinds.contains kind then 0xFF else kind) rx)

end Sys2Proof.Machine
end

