-- ==== Sys2Proof/Machine/Timers.lean ====
section
/-! DEFINITION. The rows that no frame and no register write brings: timers, training, deals, completions and what the
device does by itself when their condition holds. A row whose condition does not hold changes nothing (log entry 10). -/

namespace Sys2Proof.Machine

/-! ### Ports -/

/-- LINK_DOWN (R70). -/
def execLinkDown (port : Nat) (s : State) : Answer := work s (execLinkDownCore port)

/-- LANE_FAULT (R71). -/
def execLaneFault (port : Nat) (lanesOk : BitVec 4) (s : State) : Answer := work s (execLaneFaultCore port lanesOk)

/-- LINK_TRAINED (R70, R72). -/
def execLinkTrained (port : Nat) (s : State) : Answer := work s (execLinkTrainedCore port)

/-- MEMBER_REJOIN (R74). -/
def execMemberRejoin (group port : Nat) (s : State) : Answer := work s (execMemberRejoinCore group port)

/-- LLDP_TRANSMIT (R69). -/
def execLldpTransmit (port : Nat) (s : State) : Answer := work s (execLldpTransmitCore port)

/-! ### Connections -/

/-- LEAVING_DRAINED (R90). -/
def execLeavingDrained (conn : Nat) (s : State) : Answer := work s (leavingDrainedOp conn)

/-- RECLAIM_COMPLETE (R156). -/
def execReclaimComplete (conn : Nat) (s : State) : Answer := work s (reclaimCompleteOp conn)

/-- ACK_TIMER (R85). -/
def execAckTimer (conn : Nat) (s : State) : Answer := work s (execAckTimerCore conn)

/-- PROBE_TIMER (R86). -/
def execProbeTimer (conn path : Nat) (s : State) : Answer := work s (execProbeTimerCore conn path)

/-- PROBE_LOST (R86). -/
def execProbeLost (conn path : Nat) (s : State) : Answer := work s (execProbeLostCore conn path)

/-- REPROBE (R86). -/
def execReprobe (conn path : Nat) (s : State) : Answer := work s (execReprobeCore conn path)

/-- RTO_EXPIRY (R88). -/
def execRtoExpiry (conn : Nat) (seq : BitVec 32) (s : State) : Answer := work s (execRtoExpiryCore conn seq)

/-- CWND_UPDATE (R89). -/
def execCwndUpdate (conn path : Nat) (s : State) : Answer := work s (execCwndUpdateCore conn path)

/-- KEEPALIVE (R90). -/
def execKeepalive (conn : Nat) (s : State) : Answer := work s (execKeepaliveCore conn)

/-- SILENCE_TIMEOUT (R90). -/
def execSilenceTimeout (conn : Nat) (s : State) : Answer := work s (silenceOp conn)

/-! ### Coherence -/

/-- FWD_WAIT_EXPIRY (R148). -/
def execFwdWaitExpiry (line : Nat) (s : State) : Answer := work s (fwdWaitExpiryOp line)

/-- COH_WAIT_EXPIRY (R152). -/
def execCohWaitExpiry (line op : Nat) (s : State) : Answer := work s (cohWaitExpiryOp line op)

/-- REHOME_WINDOW_CLOSE (R170). -/
def execRehomeWindowClose (s : State) : Answer := work s rehomeWindowCloseOp

/-- INV on a peer connection (R135). -/
def execPeerInv (peer : Nat) (f : Frame) (s : State) : Answer := work s (peerAnswerOp peer 1 f)

/-- RECALL on a peer connection (R135). -/
def execPeerRecall (peer : Nat) (f : Frame) (s : State) : Answer := work s (peerAnswerOp peer 4 f)

/-- FWD on a peer connection (R135). -/
def execPeerFwd (peer : Nat) (f : Frame) (s : State) : Answer := work s (peerAnswerOp peer 5 f)

/-! ### Extents and tiers -/

/-- ZERO_FILL_DONE (R115). -/
def execZeroFillDone (extent : Nat) (s : State) : Answer := work s (zeroFillDoneOp extent)

/-- REVOKE_COMPLETE (R119). -/
def execRevokeComplete (extent : Nat) (s : State) : Answer := work s (revokeCompleteOp extent)

/-- REVOKE_TIMEOUT (R119). -/
def execRevokeTimeout (extent : Nat) (s : State) : Answer := work s (revokeTimeoutOp extent)

/-- TIER_WINDOW_END (R124). -/
def execTierWindowEnd (die : Nat) (s : State) : Answer := work s (tierWindowEndOp die)

/-- MOVE_COPY_PASS_DONE (R32). -/
def execMoveCopyPassDone (tile : Nat) (s : State) : Answer := work s (moveCopyPassDoneOp tile)

/-- MOVE_SOURCE_FREE (R33). -/
def execMoveSourceFree (tile : Nat) (s : State) : Answer := work s (moveSourceFreeOp tile)

/-- UNMUTE_DONE (R127). -/
def execUnmuteDone (tile : Nat) (decodes : Bool) (s : State) : Answer := work s (unmuteDoneOp tile decodes)

/-- SCRUB_PASS (R112). -/
def execScrubPass (page : Nat) (s : State) : Answer := work s (scrubPassOp page)

/-- CORRECTED_WRITEBACK (R110). -/
def execCorrectedWriteback (line : Nat) (s : State) : Answer := work s (correctedWritebackOp line)

/-! ### Translation -/

/-- INVAL_ANSWER (R194). -/
def execInvalAnswer (op : Nat) (s : State) : Answer := work s (invalAnswerOp op)

/-- WALK_START (R185). -/
def execWalkStart (half : Nat) (s : State) : Answer := work s (walkStartOp half)

/-- WALK_READ_DONE (R181). -/
def execWalkReadDone (walk : Nat) (s : State) : Answer := work s (walkReadDoneOp walk)

/-- FAULT_BATCH_CLOSE (R188). -/
def execFaultBatchClose (slot : Nat) (s : State) : Answer := work s (faultBatchCloseOp slot)

/-- FAULT_LIMIT_CHECK (R191). -/
def execFaultLimitCheck (s : State) : Answer := work s faultLimitCheckOp

/-! ### Jobs -/

/-- TILE_DEAL (R248). -/
def execTileDeal (mismatches : List Nat) (s : State) : Answer := work s (tileDealOp mismatches)

/-- SESSION_JOB_START (R296). -/
def execSessionJobStart (job : Nat) (s : State) : Answer := work s fun s => s.sessionGo job

/-- PIECE_DEAL (R306). -/
def execPieceDeal (mismatches : List Nat) (s : State) : Answer := work s (pieceDealOp mismatches)

/-- TABLE_CLOSE_DONE (R322). -/
def execTableCloseDone (table : Nat) (s : State) : Answer := work s (tableCloseDoneOp table)

/-- GATHER_DEAL (R324). -/
def execGatherDeal (s : State) : Answer := work s gatherDealOp

/-- MERGE_ENTRY_CLAIM (R326). -/
def execMergeEntryClaim (job : Nat) (s : State) : Answer := work s fun s => s.embClaim job

/-- EMB_WINDOW_END (R338). -/
def execEmbWindowEnd (s : State) : Answer := work s embWindowEndOp

/-- HOT_PROMOTION_BATCH (R340). -/
def execHotPromotionBatch (table version : Nat) (s : State) : Answer := work s (hotPromotionBatchOp table version)

/-- QUERY_DEAL (R362). -/
def execQueryDeal (s : State) : Answer := work s queryDealOp

/-- MERGE_SWITCH (R370). -/
def execMergeSwitch (coll : Nat) (s : State) : Answer := work s (mergeSwitchOp coll)

/-- MERGE_DRAIN (R370). -/
def execMergeDrain (coll : Nat) (s : State) : Answer := work s (mergeDrainOp coll)

/-- JOB_COMPLETION (R209). -/
def execJobCompletion (job : Nat) (s : State) : Answer := work s (jobCompletionOp job)

/-- TIME_LIMIT_EXPIRY (R211). -/
def execTimeLimitExpiry (job : Nat) (s : State) : Answer := work s (timeLimitExpiryOp job)

/-! ### Peers -/

/-- PEER_ACCEPT (R227). -/
def execPeerAccept (peer : Nat) (answer : Option Frame) (s : State) : Answer := work s (peerAcceptOp peer answer)

/-- PEER_WRITE_RESPONSE (R217). -/
def execPeerWriteResponse (peer : Nat) (f : Frame) (s : State) : Answer := work s (peerWriteResponseOp peer f)

/-! ### Palettes -/

/-- BUILD_START (R274). -/
def execBuildStart (slot : Nat) (s : State) : Answer := work s (buildStartOp slot)

/-- PENDING_INSTALL (R270). -/
def execPendingInstall (slot : Nat) (s : State) : Answer := work s (pendingInstallOp slot)

/-- PENDING_INSTALL_WAIT (R291). -/
def execPendingInstallWait (slot : Nat) (s : State) : Answer := work s (pendingInstallWaitOp slot)

/-! ### The twin -/

/-- PAIR_HELLO_TIMER (R380). -/
def execPairHelloTimer (s : State) : Answer := work s pairHelloTimerOp

/-- BEAT_TIMER (R395). -/
def execBeatTimer (s : State) : Answer := work s beatTimerOp

/-- TWIN_SILENCE_TIMEOUT (R395). -/
def execTwinSilenceTimeout (s : State) : Answer := work s twinSilenceOp

/-- RENEW_TIMER (R393). -/
def execRenewTimer (s : State) : Answer := work s renewTimerOp

/-- LEASE_GIVE (R392). -/
def execLeaseGive (extent : Nat) (s : State) : Answer := work s (leaseGiveOp extent)

/-- MIRROR_QUEUE_ROOM (R387). -/
def execMirrorQueueRoom (s : State) : Answer := work s mirrorQueueRoomOp

/-- ORPHAN_TIMEOUT (R390). -/
def execOrphanTimeout (key : TwinKey) (s : State) : Answer := work s (orphanTimeoutOp key)

/-- RESYNC_EXTENT_DONE (R400). -/
def execResyncExtentDone (extent : Nat) (s : State) : Answer := work s (resyncExtentDoneOp extent)

/-- TAKEOVER_HOLD_EXPIRY (R398). -/
def execTakeoverHoldExpiry (s : State) : Answer := work s takeoverHoldExpiryOp

/-! ### The idle block -/

/-- What one cycle with no command waiting does: TIME advances, and a running resynchronisation sends its next COPY frame
or ends a pass (Table 13-7; log entry 9). -/
def idle (s : State) : State :=
  let s := tick s
  if s.clocked && s.twin.resync.isSome then settle s.resyncStep else s

end Sys2Proof.Machine
end

