-- ==== Sys2Proof/Machine/Dispatch.lean ====
section
/-! DEFINITION. exec: the command's effect on everything but the queue, one direct call of its meaning for each. -/

namespace Sys2Proof.Machine

def exec (i : Instr) (s : State) : Host.Outcome State Fault Refusal :=
  match i with
  | .powerGood => Sys2Proof.Machine.execPowerGood s
  | .coldResetN heldNs => Sys2Proof.Machine.execColdResetN heldNs s
  | .warmResetN heldNs => Sys2Proof.Machine.execWarmResetN heldNs s
  | .resetCmdWarm => Sys2Proof.Machine.execResetCmdWarm s
  | .resetCmdCold => Sys2Proof.Machine.execResetCmdCold s
  | .refclkLost stoppedNs => Sys2Proof.Machine.execRefclkLost stoppedNs s
  | .bootImageVerified => Sys2Proof.Machine.execBootImageVerified s
  | .nearTierTrained failed => Sys2Proof.Machine.execNearTierTrained failed s
  | .bulkTierTrained pops => Sys2Proof.Machine.execBulkTierTrained pops s
  | .carveChange => Sys2Proof.Machine.execCarveChange s
  | .watchdogExpiry => Sys2Proof.Machine.execWatchdogExpiry s
  | .deviceFatal cause => Sys2Proof.Machine.execDeviceFatal cause s
  | .paceWindow counts => Sys2Proof.Machine.execPaceWindow counts s
  | .ptpSync port offset => Sys2Proof.Machine.execPtpSync port offset s
  | .holdoverTimeout => Sys2Proof.Machine.execHoldoverTimeout s
  | .timeSetHi hi => Sys2Proof.Machine.execTimeSetHi hi s
  | .ctlRd rx => Sys2Proof.Machine.execCtlRd rx s
  | .ctlWr rx => Sys2Proof.Machine.execCtlWr rx s
  | .registerWrite page off value => Sys2Proof.Machine.execRegisterWrite page off value s
  | .stagedWrite page off value => Sys2Proof.Machine.execStagedWrite page off value s
  | .quiesce page enable => Sys2Proof.Machine.execQuiesce page enable s
  | .enable page on => Sys2Proof.Machine.execEnable page on s
  | .unitReset page => Sys2Proof.Machine.execUnitReset page s
  | .drainDone page => Sys2Proof.Machine.execDrainDone page s
  | .unitResetDone page => Sys2Proof.Machine.execUnitResetDone page s
  | .cfgCommit seq => Sys2Proof.Machine.execCfgCommit seq s
  | .cfgDiscard => Sys2Proof.Machine.execCfgDiscard s
  | .agentKill value => Sys2Proof.Machine.execAgentKill value s
  | .joinKeyInstall => Sys2Proof.Machine.execJoinKeyInstall s
  | .joinKeyErase => Sys2Proof.Machine.execJoinKeyErase s
  | .saInstall port => Sys2Proof.Machine.execSaInstall port s
  | .saRetire port => Sys2Proof.Machine.execSaRetire port s
  | .linkDown port => Sys2Proof.Machine.execLinkDown port s
  | .laneFault port lanesOk => Sys2Proof.Machine.execLaneFault port lanesOk s
  | .linkTrained port => Sys2Proof.Machine.execLinkTrained port s
  | .memberRejoin group port => Sys2Proof.Machine.execMemberRejoin group port s
  | .lldpTransmit port => Sys2Proof.Machine.execLldpTransmit port s
  | .joinFrame rx => Sys2Proof.Machine.execJoinFrame rx s
  | .leave rx => Sys2Proof.Machine.execLeave rx s
  | .leavingDrained conn => Sys2Proof.Machine.execLeavingDrained conn s
  | .reclaimComplete conn => Sys2Proof.Machine.execReclaimComplete conn s
  | .helloProbe rx => Sys2Proof.Machine.execHelloProbe rx s
  | .helloAnswer rx => Sys2Proof.Machine.execHelloAnswer rx s
  | .hello rx => Sys2Proof.Machine.execHello rx s
  | .unknownType rx => Sys2Proof.Machine.execUnknownType rx s
  | .ackTimer conn => Sys2Proof.Machine.execAckTimer conn s
  | .probeTimer conn path => Sys2Proof.Machine.execProbeTimer conn path s
  | .probeLost conn path => Sys2Proof.Machine.execProbeLost conn path s
  | .reprobe conn path => Sys2Proof.Machine.execReprobe conn path s
  | .rtoExpiry conn seq => Sys2Proof.Machine.execRtoExpiry conn seq s
  | .cwndUpdate conn path => Sys2Proof.Machine.execCwndUpdate conn path s
  | .keepalive conn => Sys2Proof.Machine.execKeepalive conn s
  | .silenceTimeout conn => Sys2Proof.Machine.execSilenceTimeout conn s
  | .read rx => Sys2Proof.Machine.execRead rx s
  | .write rx => Sys2Proof.Machine.execWrite rx s
  | .compressWrite rx => Sys2Proof.Machine.execCompressWrite rx s
  | .faddI32 rx => Sys2Proof.Machine.execFaddI32 rx s
  | .faddI64 rx => Sys2Proof.Machine.execFaddI64 rx s
  | .faddF32 rx => Sys2Proof.Machine.execFaddF32 rx s
  | .atomicSwap rx => Sys2Proof.Machine.execAtomicSwap rx s
  | .atomicCas rx => Sys2Proof.Machine.execAtomicCas rx s
  | .atomicSmin rx => Sys2Proof.Machine.execAtomicSmin rx s
  | .atomicSmax rx => Sys2Proof.Machine.execAtomicSmax rx s
  | .atomicUmin rx => Sys2Proof.Machine.execAtomicUmin rx s
  | .atomicUmax rx => Sys2Proof.Machine.execAtomicUmax rx s
  | .atomicAnd rx => Sys2Proof.Machine.execAtomicAnd rx s
  | .atomicOr rx => Sys2Proof.Machine.execAtomicOr rx s
  | .atomicXor rx => Sys2Proof.Machine.execAtomicXor rx s
  | .getS rx => Sys2Proof.Machine.execGetS rx s
  | .getM rx => Sys2Proof.Machine.execGetM rx s
  | .upgrade rx => Sys2Proof.Machine.execUpgrade rx s
  | .putM rx => Sys2Proof.Machine.execPutM rx s
  | .putO rx => Sys2Proof.Machine.execPutO rx s
  | .putE rx => Sys2Proof.Machine.execPutE rx s
  | .invAck rx => Sys2Proof.Machine.execInvAck rx s
  | .fwdDone rx => Sys2Proof.Machine.execFwdDone rx s
  | .recvDone rx => Sys2Proof.Machine.execRecvDone rx s
  | .recallAck rx => Sys2Proof.Machine.execRecallAck rx s
  | .noData rx => Sys2Proof.Machine.execNoData rx s
  | .dataAnswer rx => Sys2Proof.Machine.execDataAnswer rx s
  | .directData rx => Sys2Proof.Machine.execDirectData rx s
  | .fwdWaitExpiry line => Sys2Proof.Machine.execFwdWaitExpiry line s
  | .cohWaitExpiry line op => Sys2Proof.Machine.execCohWaitExpiry line op s
  | .peerInv peer f => Sys2Proof.Machine.execPeerInv peer f s
  | .peerRecall peer f => Sys2Proof.Machine.execPeerRecall peer f s
  | .peerFwd peer f => Sys2Proof.Machine.execPeerFwd peer f s
  | .clearAsh => Sys2Proof.Machine.execClearAsh s
  | .rehomeWindowClose => Sys2Proof.Machine.execRehomeWindowClose s
  | .grant => Sys2Proof.Machine.execGrant s
  | .revoke => Sys2Proof.Machine.execRevoke s
  | .release => Sys2Proof.Machine.execRelease s
  | .addRights => Sys2Proof.Machine.execAddRights s
  | .setDrill => Sys2Proof.Machine.execSetDrill s
  | .zeroFillDone extent => Sys2Proof.Machine.execZeroFillDone extent s
  | .revokeComplete extent => Sys2Proof.Machine.execRevokeComplete extent s
  | .revokeTimeout extent => Sys2Proof.Machine.execRevokeTimeout extent s
  | .quotaNear value => Sys2Proof.Machine.execQuotaNear value s
  | .quotaBulk value => Sys2Proof.Machine.execQuotaBulk value s
  | .tierWindowEnd die => Sys2Proof.Machine.execTierWindowEnd die s
  | .moveCopyPassDone tile => Sys2Proof.Machine.execMoveCopyPassDone tile s
  | .moveSourceFree tile => Sys2Proof.Machine.execMoveSourceFree tile s
  | .unmuteDone tile decodes => Sys2Proof.Machine.execUnmuteDone tile decodes s
  | .scrubPass page => Sys2Proof.Machine.execScrubPass page s
  | .correctedWriteback line => Sys2Proof.Machine.execCorrectedWriteback line s
  | .xlatApply => Sys2Proof.Machine.execXlatApply s
  | .inval rx => Sys2Proof.Machine.execInval rx s
  | .invalAnswer op => Sys2Proof.Machine.execInvalAnswer op s
  | .walkStart half => Sys2Proof.Machine.execWalkStart half s
  | .walkReadDone walk => Sys2Proof.Machine.execWalkReadDone walk s
  | .faultBatchClose slot => Sys2Proof.Machine.execFaultBatchClose slot s
  | .faultResumeRetry batch => Sys2Proof.Machine.execFaultResumeRetry batch s
  | .faultResumeAbort batch => Sys2Proof.Machine.execFaultResumeAbort batch s
  | .faultLimitCheck => Sys2Proof.Machine.execFaultLimitCheck s
  | .bulkFill rx => Sys2Proof.Machine.execBulkFill rx s
  | .bulkCopy rx => Sys2Proof.Machine.execBulkCopy rx s
  | .bulkCompare rx => Sys2Proof.Machine.execBulkCompare rx s
  | .bulkReduce rx => Sys2Proof.Machine.execBulkReduce rx s
  | .tierPolicy rx => Sys2Proof.Machine.execTierPolicy rx s
  | .recode rx => Sys2Proof.Machine.execRecode rx s
  | .matmul rx => Sys2Proof.Machine.execMatmul rx s
  | .convert rx => Sys2Proof.Machine.execConvert rx s
  | .tileDeal mismatches => Sys2Proof.Machine.execTileDeal mismatches s
  | .sessionOpen rx => Sys2Proof.Machine.execSessionOpen rx s
  | .sessionClose rx => Sys2Proof.Machine.execSessionClose rx s
  | .kvAppend rx => Sys2Proof.Machine.execKvAppend rx s
  | .attend rx => Sys2Proof.Machine.execAttend rx s
  | .wake rx => Sys2Proof.Machine.execWake rx s
  | .sleep rx => Sys2Proof.Machine.execSleep rx s
  | .sessionJobStart job => Sys2Proof.Machine.execSessionJobStart job s
  | .pieceDeal mismatches => Sys2Proof.Machine.execPieceDeal mismatches s
  | .tableOpen rx => Sys2Proof.Machine.execTableOpen rx s
  | .tableVersion rx => Sys2Proof.Machine.execTableVersion rx s
  | .tableClose rx => Sys2Proof.Machine.execTableClose rx s
  | .tableCloseDone table => Sys2Proof.Machine.execTableCloseDone table s
  | .gather rx => Sys2Proof.Machine.execGather rx s
  | .mergeUpdate rx => Sys2Proof.Machine.execMergeUpdate rx s
  | .gatherDeal => Sys2Proof.Machine.execGatherDeal s
  | .mergeEntryClaim job => Sys2Proof.Machine.execMergeEntryClaim job s
  | .embWindowEnd => Sys2Proof.Machine.execEmbWindowEnd s
  | .hotPromotionBatch table version => Sys2Proof.Machine.execHotPromotionBatch table version s
  | .collOpen rx => Sys2Proof.Machine.execCollOpen rx s
  | .collClose rx => Sys2Proof.Machine.execCollClose rx s
  | .insertJob rx => Sys2Proof.Machine.execInsertJob rx s
  | .deleteJob rx => Sys2Proof.Machine.execDeleteJob rx s
  | .searchJob rx => Sys2Proof.Machine.execSearchJob rx s
  | .queryDeal => Sys2Proof.Machine.execQueryDeal s
  | .mergeColl rx => Sys2Proof.Machine.execMergeColl rx s
  | .mergeSwitch coll => Sys2Proof.Machine.execMergeSwitch coll s
  | .mergeDrain coll => Sys2Proof.Machine.execMergeDrain coll s
  | .mergeResume rx => Sys2Proof.Machine.execMergeResume rx s
  | .mergeAbandon rx => Sys2Proof.Machine.execMergeAbandon rx s
  | .jobCompletion job => Sys2Proof.Machine.execJobCompletion job s
  | .timeLimitExpiry job => Sys2Proof.Machine.execTimeLimitExpiry job s
  | .poolHigh half => Sys2Proof.Machine.execPoolHigh half s
  | .peerOpen => Sys2Proof.Machine.execPeerOpen s
  | .peerClose => Sys2Proof.Machine.execPeerClose s
  | .peerAccept peer answer => Sys2Proof.Machine.execPeerAccept peer answer s
  | .peerWriteResponse peer f => Sys2Proof.Machine.execPeerWriteResponse peer f s
  | .palInstall => Sys2Proof.Machine.execPalInstall s
  | .palBuild => Sys2Proof.Machine.execPalBuild s
  | .palConfig => Sys2Proof.Machine.execPalConfig s
  | .palClear => Sys2Proof.Machine.execPalClear s
  | .palRead => Sys2Proof.Machine.execPalRead s
  | .buildStart slot => Sys2Proof.Machine.execBuildStart slot s
  | .pendingInstall slot => Sys2Proof.Machine.execPendingInstall slot s
  | .pendingInstallWait slot => Sys2Proof.Machine.execPendingInstallWait slot s
  | .pairKeyInstall => Sys2Proof.Machine.execPairKeyInstall s
  | .pairKeyErase => Sys2Proof.Machine.execPairKeyErase s
  | .pairHello rx => Sys2Proof.Machine.execPairHello rx s
  | .pairHelloTimer => Sys2Proof.Machine.execPairHelloTimer s
  | .beat rx => Sys2Proof.Machine.execBeat rx s
  | .beatTimer => Sys2Proof.Machine.execBeatTimer s
  | .twinSilenceTimeout => Sys2Proof.Machine.execTwinSilenceTimeout s
  | .renewTimer => Sys2Proof.Machine.execRenewTimer s
  | .renew rx => Sys2Proof.Machine.execRenew rx s
  | .leaseList rx => Sys2Proof.Machine.execLeaseList rx s
  | .leaseMove => Sys2Proof.Machine.execLeaseMove s
  | .leaseGive extent => Sys2Proof.Machine.execLeaseGive extent s
  | .give rx => Sys2Proof.Machine.execGive rx s
  | .take rx => Sys2Proof.Machine.execTake rx s
  | .handover rx => Sys2Proof.Machine.execHandover rx s
  | .taken rx => Sys2Proof.Machine.execTaken rx s
  | .twinDone rx => Sys2Proof.Machine.execTwinDone rx s
  | .mirror rx => Sys2Proof.Machine.execMirror rx s
  | .mirrorAck rx => Sys2Proof.Machine.execMirrorAck rx s
  | .retire rx => Sys2Proof.Machine.execRetire rx s
  | .mirrorQueueRoom => Sys2Proof.Machine.execMirrorQueueRoom s
  | .orphanTimeout key => Sys2Proof.Machine.execOrphanTimeout key s
  | .orphanState rx => Sys2Proof.Machine.execOrphanState rx s
  | .twinCopy rx => Sys2Proof.Machine.execTwinCopy rx s
  | .checkpoint rx => Sys2Proof.Machine.execCheckpoint rx s
  | .resyncExtentDone extent => Sys2Proof.Machine.execResyncExtentDone extent s
  | .twinExtCmd rx => Sys2Proof.Machine.execTwinExtCmd rx s
  | .extDone rx => Sys2Proof.Machine.execExtDone rx s
  | .resetNotice rx => Sys2Proof.Machine.execResetNotice rx s
  | .witnessForm => Sys2Proof.Machine.execWitnessForm s
  | .witnessConfirm incarn => Sys2Proof.Machine.execWitnessConfirm incarn s
  | .witnessFence => Sys2Proof.Machine.execWitnessFence s
  | .takeoverHoldExpiry => Sys2Proof.Machine.execTakeoverHoldExpiry s
  | .getVersion => Sys2Proof.Machine.execGetVersion s
  | .getCapabilities => Sys2Proof.Machine.execGetCapabilities s
  | .negotiateAlgorithms => Sys2Proof.Machine.execNegotiateAlgorithms s
  | .getDigests => Sys2Proof.Machine.execGetDigests s
  | .getCertificate => Sys2Proof.Machine.execGetCertificate s
  | .challenge => Sys2Proof.Machine.execChallenge s
  | .getMeasurements => Sys2Proof.Machine.execGetMeasurements s
  | .fwErase => Sys2Proof.Machine.execFwErase s
  | .fwWrite => Sys2Proof.Machine.execFwWrite s
  | .fwVerify => Sys2Proof.Machine.execFwVerify s
  | .fwActivate => Sys2Proof.Machine.execFwActivate s
  | .svnBurn target => Sys2Proof.Machine.execSvnBurn target s
  | .eventRecord => Sys2Proof.Machine.execEventRecord s
  | .beaconRepeat => Sys2Proof.Machine.execBeaconRepeat s
  | .beaconDeferred => Sys2Proof.Machine.execBeaconDeferred s
  | .evDone source => Sys2Proof.Machine.execEvDone source s
  | .evCountClr source => Sys2Proof.Machine.execEvCountClr source s
  | .evMask word value => Sys2Proof.Machine.execEvMask word value s
  | .evPend word value => Sys2Proof.Machine.execEvPend word value s
  | .evHead value => Sys2Proof.Machine.execEvHead value s
  | .evRingCtrl value => Sys2Proof.Machine.execEvRingCtrl value s
  | .monCtrl slot value => Sys2Proof.Machine.execMonCtrl slot value s
  | .monSample slot sample => Sys2Proof.Machine.execMonSample slot sample s
  | .monWindowClose slot => Sys2Proof.Machine.execMonWindowClose slot s
  | .histUnitGrant codec => Sys2Proof.Machine.execHistUnitGrant codec s
  | .drillArm key => Sys2Proof.Machine.execDrillArm key s
  | .drillArmLapse => Sys2Proof.Machine.execDrillArmLapse s
  | .drillFire key => Sys2Proof.Machine.execDrillFire key s
  | .drillStop => Sys2Proof.Machine.execDrillStop s
  | .drillEnd => Sys2Proof.Machine.execDrillEnd s
  | .vcoreTick reading => Sys2Proof.Machine.execVcoreTick reading s
  | .pmbusPoll rails => Sys2Proof.Machine.execPmbusPoll rails s
  | .thermtrip tj => Sys2Proof.Machine.execThermtrip tj s
  | .powerDown loss => Sys2Proof.Machine.execPowerDown loss s
  | .throttleCrossing tj => Sys2Proof.Machine.execThrottleCrossing tj s
  | .unassignedJobType rx => Sys2Proof.Machine.execUnassignedJobType rx s
  | .atomicBadOpcode rx => Sys2Proof.Machine.execAtomicBadOpcode rx s
  | .spdmUnsupportedRequest => Sys2Proof.Machine.execSpdmUnsupportedRequest s
  | .twinUnknownKind rx => Sys2Proof.Machine.execTwinUnknownKind rx s
  | .extCmdUnused cmd => Sys2Proof.Machine.execExtCmdUnused cmd s
  | .faultResumeBadAction batch action => Sys2Proof.Machine.execFaultResumeBadAction batch action s
  | .resetCmdBadKey key => Sys2Proof.Machine.execResetCmdBadKey key s
  | .joinKeyInstallRefused both => Sys2Proof.Machine.execJoinKeyInstallRefused both s

end Sys2Proof.Machine
end

