-- ==== Sys2Proof/Safety.lean ====
section
/-! DEFINITION. The words that statements use: a safe run, sampled level sources, a quiet device, and the places that a frame
passes on its way through the checks of Table 3-7. -/

namespace Sys2Proof

/-- k steps from s, each answering a next state. -/
def Safe (k : Nat) (s : Machine.State) : Prop := ∃ t, Host.Core.run core k s = .next t

namespace Machine

/-- The three commands that act on a device without a running clock (R405, R427, R470). -/
def needsNoClock : Instr → Bool
  | .powerGood | .coldResetN _ | .powerDown _ => true
  | _ => false

/-- Every level source has been sampled: its assertion is held exactly while its condition holds (R437, R445). -/
def State.LevelsSampled (s : State) : Prop :=
  s.clocked = true → s.boot.step ≠ .rom →
    ∀ src, src < 596 → isLevel src = true → s.ev.level.getLsbD src = (s.levelCond src && s.sourceValid src)

/-- Nothing that goes on by itself: no operation, no job, no port to retrain, no active drill, no slice under reset with entries
to evict, a twin unit at rest, no merge before its switch. -/
structure State.Quiet (s : State) : Prop where
  ops : s.jobs.ops = []
  jobs : s.jobs.jobs = []
  retraining : s.boot.retraining = none
  retrain : s.boot.retrain = []
  drill : s.drill.st ≠ .active
  slices : ∀ p ∈ s.ctl.resetting, isSlice p = true → s.evictable p = []
  shadows : s.twin.shadows = []
  holders : s.twin.holders = []
  resync : s.twin.resync = none
  closed : s.twinOpen = false
  pair : s.pairState = s.twin.pairCode
  merges : ∀ k ∈ s.srch.colls.map (·.1), (s.coll k).merge.st ≠ .running

/-! ### What an operation may change -/

/-- From s to t only sending has happened: registers (its counters), packet numbers, connections, what has been sent, and the
frame count of a drill. -/
def State.OnlySends (s t : State) : Prop :=
  t = { s with ctl := { s.ctl with regs := t.ctl.regs }, drill := t.drill,
               net := { s.net with sas := t.net.sas, conns := t.net.conns, sent := t.net.sent } }

/-- From s to t only sending has happened, and operations and jobs have ended, some of them with a free value. -/
def State.OnlyAnswers (s t : State) : Prop :=
  t = { s with free := t.free, ctl := { s.ctl with regs := t.ctl.regs }, drill := t.drill,
               net := { s.net with sas := t.net.sas, conns := t.net.conns, sent := t.net.sent },
               jobs := { s.jobs with ops := t.jobs.ops, jobs := t.jobs.jobs } }

/-- A frame that is put on port p now leaves it: the link is up, no drill mutes it or drops the frame, and a protected port has
a transmit association. -/
structure State.CanSend (s : State) (p : Nat) : Prop where
  up : (s.portSt p).up = true
  loud : s.twinMuted p = false
  kept : (s.drillDrop p 1).1 = false
  secure : ((s.drillDrop p 1).2.protect p).isSome = true

/-! ### Resets (Tables 14-8 and 14-10) -/

/-- t is the device after a cold reset of s: everything but TIME, standby logic, fuses and the boot flash at its reset value. -/
structure State.ColdStarted (s t : State) (kind : Nat) (v : BitVec 8) : Prop where
  rom : t.boot.step = .rom
  service : t.boot.service = .greyscale
  kind : t.boot.lastKind = kind
  saved : t.boot.saved = false
  incarn : t.boot.incarn = v
  standby : t.boot.standby = some v
  clocked : t.clocked = true
  flash : t.boot.flash = s.boot.flash
  fuses : t.boot.fuseSvn = s.boot.fuseSvn
  conns : t.net.conns = []
  keys : t.net.joinKeys = [(0, Config.fusedJoinKey)]
  sas : t.net.sas = []
  store : t.store = { }
  coh : t.coh = { }
  xlat : t.xlat = { }
  jobs : t.jobs = { }
  pal : t.pal = { }
  sess : t.sess = []
  emb : t.emb = { }
  srch : t.srch = { }
  twin : t.twin = { }
  ev : t.ev = { }
  mon : t.mon = []
  drill : t.drill = { }
  regs : ∀ a, a ≠ Reg.ppPpSticky → t.reg a = resetValue a
  sticky : t.reg Reg.ppPpSticky = s.reg Reg.ppPpSticky
  pending : t.pending = s.pending

/-- t is the device after a warm reset of s: what Table 14-10 keeps is kept, the rest is at its reset value. -/
structure State.WarmStarted (s t : State) (kind : Nat) (keep : Bool) : Prop where
  rom : t.boot.step = .rom
  service : t.boot.service = .greyscale
  kind : t.boot.lastKind = kind
  saved : t.boot.saved = keep
  incarn : t.boot.incarn = s.boot.incarn + 1
  flash : t.boot.flash = s.boot.flash
  fuses : t.boot.fuseSvn = s.boot.fuseSvn
  now : t.now = s.now
  conns : t.net.conns = []
  keys : t.net.joinKeys = s.net.joinKeys
  extents : t.store.extents = s.store.extents
  quotas : t.store.quotas = s.store.quotas
  log : t.coh.log = s.coh.log
  rehome : t.coh.rehomeSt = .awaiting ∧ t.coh.rehomeSaved = keep
  contexts : t.xlat.ctx = s.xlat.ctx
  caches : t.xlat.tlbs = [] ∧ t.xlat.l2 = [] ∧ t.xlat.walks = [] ∧ t.xlat.batches = [] ∧ t.xlat.parked = []
  work : t.jobs.ops = [] ∧ t.jobs.jobs = []
  tenants : t.jobs.tenants = s.jobs.tenants
  sess : t.sess = s.sess
  twin : t.twin.key = s.twin.key ∧ t.twin.dirty = s.twin.dirty
  ev : t.ev.pend = 0 ∧ t.ev.mask = 0 ∧ t.ev.out = 0 ∧ t.ev.counts = []
  drill : t.drill = { }
  regs : ∀ a, warmReg a = false → a ≠ Reg.mgResetCount → t.reg a = resetValue a
  pending : t.pending = s.pending

/-! ### A frame on its way (Table 3-7) -/

/-- The state once steps 1 to 5 have counted a frame. -/
def State.counted (s : State) (rx : Rx) : State :=
  (((s.drillDrop rx.port 0).2.received rx).macsec rx).2.when (rxMarked rx)
    fun s => s.bump (Reg.portRxCe (portPage rx.port))

/-- A frame that steps 1 to 5 let pass. -/
structure State.Passes (s : State) (rx : Rx) : Prop where
  clocked : s.clocked = true
  port : s.hasPort rx.port = true
  up : (s.portSt rx.port).up = true
  on : s.ownState (portPage rx.port) ≠ .off
  loud : s.twinMuted rx.port = false
  drill : (s.drillDrop rx.port 0).1 = false
  fec : rx.fecOk = true ∧ rx.fcsOk = true
  secure : (((s.drillDrop rx.port 0).2.received rx).macsec rx).1 = true
  aimed : (((s.drillDrop rx.port 0).2.received rx).macsec rx).2.aimed rx = true
  formed : (((s.drillDrop rx.port 0).2.received rx).macsec rx).2.formed rx = true
  room : rx.fill ≠ .full

/-- A frame of an agent's active connection k, number c, of the device's incarnation (steps 6 to 8). -/
structure State.OfConn (s : State) (c : Nat) (k : Conn) (rx : Rx) : Prop where
  number : rx.f.conn.toNat = c
  conn : s.conn? c = some k
  active : k.active = true
  tenant : k.tenant = rx.f.tenant.toNat
  agent : k.agent = rx.f.agent.toNat
  incarn : rx.f.incarn = s.boot.incarn
  join : rx.f.ty ≠ 0x50
  role : ¬(s.role rx.port = 2 ∧ (rx.f.ty = 0x60 ∨ rx.f.ty = 0x53))
  direct : ¬(rx.f.ty = 0x1A ∧ rx.f.conn = 0xFFFFFF ∧ has rx.f fUnseq = true)

/-- The state once steps 6 to 8 have heard a frame of connection c: its marks and its acknowledgement are taken. -/
def State.heard (s : State) (c : Nat) (rx : Rx) : State :=
  let s := s.onConn c fun k => { k with lastHeard := s.ran }
  (s.rxMarks c rx).takeAck c rx.f.path.toNat rx.f

/-- A sequenced frame that is the next one of its connection: it carries SEQ rxNext, and no frame holds that place. -/
structure State.NextInSeq (s : State) (c : Nat) (rx : Rx) : Prop where
  unseq : has rx.f fUnseq = false
  hello : rx.f.ty ≠ 0x53
  place : ∃ k, s.conn? c = some k ∧ k.rxNext = rx.f.seq ∧ Tbl.get? k.rxHeld rx.f.seq.toNat = none
  stays : ∃ k, (s.skew c rx).conn? c = some k ∧ k.rxNext = rx.f.seq

/-- The state in which the next frame of connection c stands in its SEQ place (step 9). -/
def State.seated (s : State) (c : Nat) (rx : Rx) : State :=
  let h : HeldFrame := { port := rx.port, f := rx.f }
  ((s.skew c rx).onConn c fun k => { k with rxHeld := k.rxHeld.put rx.f.seq.toNat h, unackedCount := k.unackedCount + 1,
                                            unackedSince := some (k.unackedSince.getD (s.skew c rx).ran) }).onConn c
    fun k => { k with rxHeld := k.rxHeld.del k.rxNext.toNat, rxNext := k.rxNext + 1 }

/-- What follows a frame that has been taken in its SEQ place: frames that were held behind it, and the acknowledgement that is
due after eight (R85). -/
def State.closed (s : State) (c : Nat) : State :=
  let s := s.drain c 256
  match s.conn? c with
  | some k => if 8 ≤ k.unackedCount then s.sendAck c (s.anyPath c) else s
  | none => s

/-- A sequenced frame of an agent's connection that arrives in its turn. -/
structure State.InTurn (s : State) (c : Nat) (k : Conn) (rx : Rx) : Prop where
  passes : s.Passes rx
  ofConn : (s.counted rx).OfConn c k rx
  next : ((s.counted rx).heard c rx).NextInSeq c rx

/-- The state in which a frame that arrives in its turn is taken. -/
def State.turn (s : State) (c : Nat) (rx : Rx) : State := ((s.counted rx).heard c rx).seated c rx

/-- A frame of the twin connection that a paired device takes: on a twin port's open path, of the partner's known incarnation
(R378, R402), and no PAIR_HELLO. -/
structure State.OfTwin (s : State) (rx : Rx) : Prop where
  passes : s.Passes rx
  role : (s.counted rx).role rx.port = 2
  paired : (s.counted rx).paired = true
  service : (s.counted rx).boot.service ≠ .greyscale
  type : rx.f.ty = 0x60
  kind : (twinExt rx.f).any (fun e => e.1 = 1) = false
  opened : (((s.counted rx).conn? twinConn).any fun k => (k.paths.getD rx.f.path.toNat { }).opened) = true
  incarn : (s.counted rx).twin.partnerIncarn = some rx.f.incarn
  conn : rx.f.conn = 1

/-- The state once a frame of the twin connection has been heard (R395): its marks and its acknowledgement are taken. -/
def State.twinHears (s : State) (rx : Rx) : State := ((s.counted rx).twinHeard rx.f).heard twinConn rx

/-- A sequenced frame of the twin connection that arrives in its turn. -/
structure State.TwinTurn (s : State) (rx : Rx) : Prop where
  ofTwin : s.OfTwin rx
  next : (s.twinHears rx).NextInSeq twinConn rx

/-- The state in which a frame of the twin connection that arrives in its turn is taken. -/
def State.twinTurn (s : State) (rx : Rx) : State := (s.twinHears rx).seated twinConn rx

/-- A request that the connection admits under a new OP_ID (steps 10 and 11). -/
structure State.Admits (s : State) (c : Nat) (rx : Rx) : Prop where
  conn : ∃ k, s.conn? c = some k ∧ k.st = .openC ∧ k.opPlace rx.f.opId = .fresh
  room : (s.onConn c fun k => k.noteOp rx.f.opId).connAdmitted c < (s.onConn c fun k => k.noteOp rx.f.opId).reg Reg.pgOpsMax
  service : s.boot.step = .near ∨ s.boot.step = .bulk
  carve : ¬(s.boot.service = .full ∧ s.boot.carveWait = true)

/-- The state in which an admitted request is executed: its OP_ID stands in the connection's window. -/
def State.asked (s : State) (c : Nat) (rx : Rx) : State := (s.turn c rx).onConn c fun k => k.noteOp rx.f.opId

/-- What follows an admitted request: CMD_END ends its command (R80), then as after every frame. -/
def State.done (s : State) (c : Nat) (rx : Rx) : State :=
  (s.when (has rx.f fCmdEnd) fun s => s.onConn c fun k => { k with cmd := k.cmd + 1 }).closed c

/-- A request of an agent's connection that arrives in its turn and is admitted. -/
structure State.Request (s : State) (c : Nat) (k : Conn) (rx : Rx) : Prop where
  turn : s.InTurn c k rx
  admits : (s.turn c rx).Admits c rx

end Machine
end Sys2Proof
end

