-- ==== Sys2Proof/Certificates/Slice0/Obligations.lean ====
section
/-! DEFINITION. The statements for the provers. Each docstring cites the rules that its statement formalises. -/

open Sys2Proof Sys2Proof.Machine

/-- A step takes the front command; with none waiting, one cycle passes (the model's choice, log entry 9). -/
def Obligations.StepTakesTheFront : Prop :=
  (∀ (c : Instr) (rest : List Instr) (s : State), step { s with pending := c :: rest } = exec c { s with pending := rest }) ∧
  ∀ s : State, step { s with pending := [] } = .next (idle { s with pending := [] })

/-- State.reset, field by field (R26, R101, R420, R472; log entries 3 and 5 for what the manual leaves open). -/
def Obligations.ResetState : Prop :=
  let s := State.reset
  s.clocked = true ∧ s.boot.step = .rom ∧ s.boot.service = .greyscale ∧ s.pending = [] ∧ s.now = 0 ∧
  s.net.conns = [] ∧ s.net.joinKeys = [(0, Config.fusedJoinKey)] ∧ s.store.extents = [] ∧ s.store.mem = [] ∧
  s.coh.dir = [] ∧ s.jobs.ops = [] ∧ s.jobs.jobs = [] ∧ s.sess = [] ∧ s.emb.tables = [] ∧ s.srch.colls = [] ∧
  s.twin.leases = [] ∧ s.ev.mask = 0 ∧ s.ev.pend = 0 ∧ s.ev.seq = 1 ∧ s.drill.st = .idle ∧
  s.pwr.req = 750 ∧ s.pwr.thermal = 850 ∧ s.pwr.power = 850 ∧
  s.reg Reg.pgJmtUdpPort = 0x4A4D ∧ s.reg Reg.pgOpsMax = 1024 ∧ s.reg Reg.tmQuotaNear = 0xFFFFF ∧
  s.reg Reg.tmRevokeTimeout = 5 ∧ s.reg Reg.ppVcoreTarget = 750

/-- Every clocked island stops with the clock, TIME holds, nothing is answered (R465). -/
def Obligations.StoppedClockHoldsEverything : Prop :=
  ∀ (c : Instr) (s : State), s.clocked = false → needsNoClock c = false → exec c s = .next s

/-- Level sources are sampled at the end of every command, from the beginning of Greyscale service on (R437, R445, R459). -/
def Obligations.SettleSamplesLevels : Prop :=
  ∀ s : State,
    (∃ level pend args, settle s = { s with ev := { s.ev with level := level, pend := pend, args := args } }) ∧
    (settle s).LevelsSampled ∧
    (∀ src, src < 596 → s.ev.pend.getLsbD src = true → (settle s).ev.pend.getLsbD src = true) ∧
    (s.boot.step ≠ .rom → ∀ src, src < 596 → isLevel src = true → s.ev.level.getLsbD src = false →
      s.levelCond src = true → s.sourceValid src = true → s.ev.mask.getLsbD src = false → (settle s).ev.pend.getLsbD src = true)

/-- No step, commanded or idle, leaves a level condition unsampled (R437, R445). -/
def Obligations.StepsKeepLevelsSampled : Prop :=
  ∀ s t : State, s.LevelsSampled → step s = .next t → t.LevelsSampled

/-- The invariant holds right after reset (R459). -/
def Obligations.ResetLevelsSampled : Prop := State.reset.LevelsSampled

/-- Nothing goes on by itself in a quiet device. -/
def Obligations.QuietDeviceRests : Prop := ∀ s : State, s.Quiet → s.progress = s

/-- Cold resets (R26, R427, R431). POWER_GOOD on a powered device, and the pulse on an unpowered one, are the model's choice. -/
def Obligations.ColdResets : Prop :=
  ∀ (s : State) (ns : Nat),
    (s.boot.powered = true → 1000 ≤ ns → ∃ t, exec (.coldResetN ns) s = .next t ∧
      s.ColdStarted t 3 (s.boot.standby.getD s.boot.incarn + 1) ∧ t.now = s.now) ∧
    (s.boot.powered = false ∨ ns < 1000 → exec (.coldResetN ns) s = .next s) ∧
    (s.boot.powered = false → ∃ t, exec .powerGood s = .next t ∧ t.now = 0 ∧
      s.ColdStarted t 1 (match s.boot.standby with
        | some v => v + 1
        | none => BitVec.ofNat 8 (Config.freeValue s.free))) ∧
    (s.boot.powered = true → exec .powerGood s = .next s) ∧
    (s.clocked = true → ∃ t, exec .resetCmdCold s = .next t ∧ t.now = s.now ∧
      t.boot.flash = s.boot.flash ∧ t.pending = s.pending ∧
      (s.answerAll.sendNotice 2).ColdStarted t 2 (s.boot.standby.getD s.boot.incarn + 1))

/-- Requested warm resets (R427, R428, Table 14-10). -/
def Obligations.RequestedWarmResets : Prop :=
  ∀ s : State, s.clocked = true →
    (∀ ns, 1000 ≤ ns → ∃ t, exec (.warmResetN ns) s = .next t ∧ s.WarmStarted t 4 true ∧ t.coh.dir = rehomeList s.coh.dir) ∧
    (∀ ns, ns < 1000 → exec (.warmResetN ns) s = .next (settle s)) ∧
    (∃ t, exec .resetCmdWarm s = .next t ∧ s.WarmStarted t 4 true ∧ t.coh.dir = rehomeList s.coh.dir) ∧
    (s.present 0 = true → s.reg (Reg.unitCtrl 0) % 4 = 1 →
      ∃ t : State, exec (.unitReset 0) s = .next (settle t.progress) ∧ s.WarmStarted t 4 true ∧ t.coh.dir = rehomeList s.coh.dir)

/-- Forced warm resets (R415, R429, R438). -/
def Obligations.ForcedWarmResets : Prop :=
  ∀ s : State, s.clocked = true →
    (∀ cause, cause < 2 → ∃ t, exec (.deviceFatal cause) s = .next t ∧ t.boot.step = .rom ∧ t.boot.lastKind = 6 ∧
      t.boot.saved = false ∧ t.boot.incarn = s.boot.incarn + 1 ∧ t.net.conns = [] ∧ t.jobs.ops = [] ∧ t.jobs.jobs = [] ∧
      t.coh.rehomeSaved = false ∧ t.store.extents = s.store.extents ∧
      t.reg Reg.ecFatalLast = 2 ^ 31 + cause ∧ t.reg Reg.ecFatalTime = s.now % 2 ^ 64) ∧
    (s.adithRuns = true → (∃ r, s.boot.lastRestart = some r ∧ s.since r 10000000000 = false) →
      ∃ t, exec .watchdogExpiry s = .next t ∧ (s.bump Reg.mgWdExpiries).WarmStarted t 5 false) ∧
    (s.adithRuns = true → (∀ r, s.boot.lastRestart = some r → s.since r 10000000000 = true) →
      exec .watchdogExpiry s = .next (settle (State.raise { s with
        ctl := { s.ctl with regs := ((s.bump Reg.mgWdExpiries).bump Reg.mgAdithRestarts).ctl.regs,
                            resetting := if s.ctl.resetting.contains 9 then s.ctl.resetting else s.ctl.resetting ++ [9] },
        boot := { s.boot with lastRestart := some s.ran, restarting := true } } 4)))

/-- REFCLK_LOST (R465), POWER_DOWN (R470, R471) and a RESET_CMD with another key (R427): the whole next state. -/
def Obligations.ClockAndPowerLoss : Prop :=
  ∀ s : State,
    (∀ ns, s.clocked = true → 10000 < ns → exec (.refclkLost ns) s =
      .next (settle { s with ctl := { s.ctl with regs := s.ctl.regs.put Reg.ppPpSticky (BitVec.ofNat 64 (s.reg Reg.ppPpSticky ||| 1)) },
                             boot := { s.boot with refclk := false } })) ∧
    (∀ ns, s.clocked = true → ns ≤ 10000 → exec (.refclkLost ns) s = .next (settle s)) ∧
    (∀ loss, s.boot.powered = true → loss.overvolt = false → exec (.powerDown loss) s =
      .next { s with store := { }, boot := { s.boot with powered := false, standby := if loss.vstby then s.boot.standby else none },
                     ctl := { s.ctl with regs := if loss.vstby then s.ctl.regs else s.ctl.regs.del Reg.ppPpSticky } }) ∧
    (∀ loss, s.boot.powered = false → exec (.powerDown loss) s = .next s) ∧
    (∀ loss, s.boot.powered = true → loss.overvolt = true → exec (.powerDown loss) s = .fault .railOvervoltage) ∧
    (∀ key, s.clocked = true → key ≠ 0x7E57 → exec (.resetCmdBadKey key) s =
      .next (settle { s with ctl := { s.ctl with
        regs := s.ctl.regs.put Reg.rootCtlRefused (BitVec.ofNat 64 (min (s.reg Reg.rootCtlRefused + 1) (2 ^ 32 - 1))) } }))

/-- BOOT_IMAGE_VERIFIED (R411, R413): the whole next state. -/
def Obligations.BootRomChoosesAnImage : Prop :=
  ∀ s : State, s.clocked = true →
    let b := s.boot
    let first := b.choice
    let cleared : Boot := { b with errA := 0, errB := 0 }
    (b.step ≠ .rom → exec .bootImageVerified s = .next (settle s)) ∧
    (b.step = .rom → b.check first = 0 → exec .bootImageVerified s = .next (settle (State.comeUp { s with
      boot := { cleared.setErr first 0 with step := .command, recovery := false, slot := first, fallback := false,
                                            running := some (b.image first) } } [0, 1]))) ∧
    (b.step = .rom → b.check first ≠ 0 → b.check (1 - first) = 0 → exec .bootImageVerified s = .next (settle (State.comeUp
      (State.raise { s with
        boot := { (cleared.setErr first (b.check first)).setErr (1 - first) 0 with
                  step := .command, recovery := false, slot := 1 - first, fallback := true,
                  running := some (b.image (1 - first)) } } 5) [0, 1]))) ∧
    (b.step = .rom → b.check first ≠ 0 → b.check (1 - first) ≠ 0 → exec .bootImageVerified s = .next (settle (State.comeUp { s with
      boot := { (cleared.setErr first (b.check first)).setErr (1 - first) (b.check (1 - first)) with
                step := .recovery, recovery := true } } [0, 1])))

/-- NEAR_TIER_TRAINED (R107). -/
def Obligations.NearTierTraining : Prop :=
  ∀ (s : State) (failed : List Nat), s.clocked = true →
    (s.boot.step ≠ .command → exec (.nearTierTrained failed) s = .next (settle s.progress)) ∧
    (s.boot.step = .command → ∃ t : State, exec (.nearTierTrained failed) s = .next (settle t.progress) ∧
      t.boot = { s.boot with step := .near } ∧
      (∀ n, n < 8 → s.present (nearPage n) = true → (t.store.near.getD n { }).trained = !failed.contains n) ∧
      (∀ n, n < 8 → s.present (nearPage n) = true → n ∈ failed → nearPage n ∈ t.ctl.failed) ∧
      t.store.nearList = (if !s.coldBoot && !s.store.nearList.isEmpty then s.store.nearList
        else ((List.range 8).filter fun n => s.present (nearPage n)).filter fun n => !failed.contains n) ∧
      t.store = { s.store with near := t.store.near, nearList := t.store.nearList } ∧
      t.net.conns = s.net.conns ∧ t.time = s.time ∧ t.coh = s.coh ∧ t.jobs = s.jobs ∧ t.ctl.regs = s.ctl.regs)

/-- BULK_TIER_TRAINED (R108); the committed set follows where CFG_SEQ is not 0 (R430). -/
def Obligations.BulkTierTraining : Prop :=
  ∀ (s : State) (pops : List ChannelPop), s.clocked = true →
    (s.boot.step ≠ .near → exec (.bulkTierTrained pops) s = .next (settle s.progress)) ∧
    (s.boot.step = .near → ∃ t : State,
      exec (.bulkTierTrained pops) s = .next (settle (if s.reg Reg.rootCfgSeq = 0 then t else t.reapply).progress) ∧
      t.boot = { s.boot with step := .bulk } ∧
      (∀ c, c < 16 → s.present (bulkPage c) = true →
        (t.store.bulk.getD c { }).trained = (s.channelSpeed pops c).isSome ∧
        (t.store.bulk.getD c { }).refused = popRefused pops (((pops.find? (·.channel = c)).map (·.dimms)).getD []) ∧
        ((s.channelSpeed pops c).isSome = true → ∀ d v, d < 16 → s.present (bulkPage d) = true →
          s.channelSpeed pops d = some v → (t.store.bulk.getD c { }).speed ≤ v)) ∧
      t.store.bulkMap = (if !s.coldBoot && !s.store.bulkMap.isEmpty then s.store.bulkMap
        else ((List.range 16).filter fun c => s.present (bulkPage c)).filter fun c => (s.channelSpeed pops c).isSome) ∧
      t.store = { s.store with bulk := t.store.bulk, bulkMap := t.store.bulkMap } ∧
      t.net = s.net ∧ t.time = s.time ∧ t.coh = s.coh ∧ t.jobs = s.jobs ∧ t.ctl.regs = s.ctl.regs)

/-- CARVE_CHANGE (R409, R410). -/
def Obligations.CarveChangeAdmitsWhatWaited : Prop :=
  ∀ s : State, s.clocked = true →
    (¬(s.boot.service = .full ∧ s.boot.carveWait = true ∧ s.poolUsed 0 = 0 ∧ s.poolUsed 1 = 0) →
      exec .carveChange s = .next (settle s.progress)) ∧
    (s.boot.service = .full → s.boot.carveWait = true → s.poolUsed 0 = 0 → s.poolUsed 1 = 0 →
      let laid : State := { s with boot := { s.boot with carve := s.carveSizes, carveWait := false, entered := true, waiting := [] } }
      let u : State := { laid with coh := { laid.respill.coh with
        rehomeSt := if s.coh.rehomeSt = .awaiting then .opened else s.coh.rehomeSt,
        rehomeAt := if s.coh.rehomeSt = .awaiting then s.ran else s.coh.rehomeAt } }
      exec .carveChange s = .next (settle (s.boot.waiting.foldl (fun v w =>
        if (v.conn? w.conn).any fun k => k.st = .openC then v.admitReq w.conn w.port w.f else v) u).progress))

/-- The time rows (R27, R28, R29): the whole next state. -/
def Obligations.TimeRows : Prop :=
  ∀ s : State, s.clocked = true →
    (∀ hi : BitVec 32, let v := hi.toNat * 2 ^ 32 + s.reg Reg.rootTimeSetLo
      exec (.timeSetHi hi) s = .next (settle { s with time :=
        if s.ptpOn = true ∨ v < s.now then { s.time with setRefused := true }
        else { s.time with now := v, frac := 0, setRefused := false } })) ∧
    (∀ (port : Nat) (offset : Int), s.disciplined = true → port = s.ptpPort → (s.portSt port).up = true →
      let base : TimeBase := { s.time with offset := offset, lastSync := some s.ran, holdover := false,
                                           locked := decide (-1000 ≤ offset ∧ offset ≤ 1000) }
      exec (.ptpSync port offset) s = .next (settle (
        if 1000000 < offset ∧ bit (s.reg Reg.rootTimeCtrl) 16 = true then { s with time := { base with now := s.now + offset.toNat, slew := 0 } }
        else if offset < -1000000 then State.raise { s with time := { base with slew := offset * 2 ^ 32 } } 3
        else { s with time := { base with slew := offset * 2 ^ 32 } }))) ∧
    (∀ (port : Nat) (offset : Int), s.disciplined = false ∨ port ≠ s.ptpPort ∨ (s.portSt port).up = false →
      exec (.ptpSync port offset) s = .next (settle s)) ∧
    (s.disciplined = true → s.time.holdover = false →
      s.since (s.time.lastSync.getD 0) 3000000000 = true ∨ (s.portSt s.ptpPort).up = false →
      exec .holdoverTimeout s = .next (settle (State.raise { s with time := { s.time with holdover := true, locked := false, slew := 0 } } 3))) ∧
    (s.disciplined = false ∨ s.time.holdover = true ∨
      (s.since (s.time.lastSync.getD 0) 3000000000 = false ∧ (s.portSt s.ptpPort).up = true) →
      exec .holdoverTimeout s = .next (settle s))

/-- The power rows (R467, R472, R475 to R477): the whole next state, the limits as R472 names them. -/
def Obligations.PowerRows : Prop :=
  let tripped (tj : Int) (u : State) : State :=
    if 920 ≤ tj then
      { u with boot := { u.boot with thermtrip := true },
               ctl := { u.ctl with regs := u.ctl.regs.put Reg.ppPpSticky (BitVec.ofNat 64 (u.reg Reg.ppPpSticky ||| 2)) } }
    else u
  ∀ s : State, s.clocked = true →
    (∀ r : VcoreReading, s.since s.pwr.lastTick 1000000 = true → r.sensors ≠ [] →
      let p := s.pwr
      let tj := r.sensors.foldl max (r.sensors.headD 0)
      let thermal := thermalLimit s.throttleAt s.throttleEnd p tj
      let power := powerLimit (s.reg Reg.ppPowerLimit) s.powerMeas p
      let want := min (min s.greyLimit thermal) (min power (s.reg Reg.ppVcoreTarget))
      let limit := if want = s.greyLimit then 1 else if want = thermal then 2 else if want = power then 3 else 0
      let req := if want < p.req then max want (p.req - 25) else min want (p.req + 10)
      let u := s.when (2 ≤ p.limit) fun v => v.bump64 Reg.ppThrottleNs (s.ran - p.lastTick)
      let v := u.when p.unacked fun v => v.bump Reg.ppAvsRetries
      exec (.vcoreTick r) s = .next (settle (tripped tj { v with
        net := { s.net with sent := s.net.sent ++ [.avs req] }
        pwr := { p with thermal := thermal, power := power, req := req, limit := limit, tj := tj, unacked := !r.acked,
                        above := decide (s.throttleAt < tj), thermOver := decide (s.throttleAt < tj), sensors := r.sensors,
                        lastTick := s.ran } }))) ∧
    (∀ r, s.since s.pwr.lastTick 1000000 = false → exec (.vcoreTick r) s = .next (settle s)) ∧
    (s.since s.pwr.lastPoll 1000000 = true →
      exec (.pmbusPoll []) s = .next (settle { s with pwr := { s.pwr with lastPoll := s.ran } }) ∧
      (∀ (rs : List RailReading) (r : RailReading), ∃ u : State, exec (.pmbusPoll rs) s = .next (settle u) ∧
        exec (.pmbusPoll (rs ++ [r])) s = .next (settle (
          if 8 < r.index then u
          else if r.acked then { u with pwr := { u.pwr with rails := u.pwr.rails.put r.index (Rail.mk r.mV r.amps r.watts r.status) } }
          else u.bump Reg.ppPmbusErr)))) ∧
    (∀ rs, s.since s.pwr.lastPoll 1000000 = false → exec (.pmbusPoll rs) s = .next (settle s)) ∧
    (∀ tj : Int, let u : State := { s with pwr := { s.pwr with tj := tj, thermOver := decide (s.throttleAt < tj) } }
      exec (.throttleCrossing tj) s = .next (settle (tripped tj u)) ∧ exec (.thermtrip tj) s = .next (settle (tripped tj u)))

/-- PACE_WINDOW, unit by unit (R21, R474). -/
def Obligations.PaceWindows : Prop :=
  ∀ s : State, s.clocked = true →
    exec (.paceWindow []) s = .next (settle s) ∧
    (∀ (l : List (Nat × Nat)) (page n : Nat), ∃ u : State, exec (.paceWindow l) s = .next (settle u) ∧
      u.pwr.req = s.pwr.req ∧ u.pwr.tj = s.pwr.tj ∧
      exec (.paceWindow (l ++ [(page, n)])) s = .next (settle (
        if s.present page = true ∧ isGroup page = false then
          { u with ctl := { u.ctl with regs := u.ctl.regs.put (Reg.unitPace page) (BitVec.ofNat 64 (n * 1000 / 1024 % 2 ^ 32)) }
                   pwr := { u.pwr with paceLow := u.pwr.paceLow || decide (n * 1000 / 1024 * 100 < paceFloor s.pwr.req s.pwr.tj * 99) } }
        else u))) ∧
    (∀ tj, paceFloor 550 tj = paceFloor 649 tj ∧ paceFloor 750 tj = paceFloor 849 tj) ∧
    paceFloor 750 680 = 1800 ∧ paceFloor 850 480 = 2100 ∧ paceFloor 550 680 = 900

/-- UNIT_CTRL (R44, R45, R53, R54, R433): what each of its five rows does to a leaf, to a group, and where it is refused. -/
def Obligations.UnitControl : Prop :=
  ∀ (s : State) (page : Nat), s.clocked = true → s.present page = true → page ≠ 0 → page ≠ 9 →
    let put (v : Nat) : State := { s with ctl := { s.ctl with regs := s.ctl.regs.put (Reg.unitCtrl page) (BitVec.ofNat 64 v) } }
    let drains (u : State) : State :=
      if u.leafBusy page = false ∧ u.ctl.drained.contains page = false then
        { u with ctl := { u.ctl with drained := u.ctl.drained ++ [page] } } else u
    let stored (v : Nat) : State :=
      if v = 1 then { put 1 with ctl := { (put 1).ctl with drained := s.ctl.drained.filter (· != page) } } else drains (put v)
    let resets (u : State) : State := State.resetWork { u with ctl := { u.ctl with
      resetting := if u.ctl.resetting.contains page then u.ctl.resetting else u.ctl.resetting ++ [page]
      regs := if isSlice page then u.ctl.regs else u.ctl.regs.filter fun r => !counterReg page r.1 } } page
    let v := s.reg (Reg.unitCtrl page) % 4
    let leaf := isGroup page = false ∧ (unitOf page).any (fun u => u.ty = .lockGroup) = false ∧ fixedChildren page = []
    (leaf → s.failed page = false →
      (∀ en, s.ctrlRefused page (2 + b2n en) = false → exec (.quiesce page en) s = .next (settle (stored (2 + b2n en)).progress)) ∧
      (∀ on, s.ctrlRefused page (b2n on) = false → exec (.enable page on) s = .next (settle (stored (b2n on)).progress)) ∧
      (page ≠ 0xA → s.drill.page ≠ page → s.ctrlRefused page (4 + v) = false →
        exec (.unitReset page) s = .next (settle (resets (stored v)).progress))) ∧
    (leaf → s.failed page = true →
      (∀ en, s.ctrlRefused page (2 + b2n en) = false → exec (.quiesce page en) s = .next (settle s.progress)) ∧
      exec (.enable page true) s = .next (settle s.progress) ∧
      (page ≠ 0xA → s.drill.page ≠ page → s.ctrlRefused page (4 + v) = false →
        exec (.unitReset page) s = .next (settle (resets s).progress))) ∧
    (s.stopping page = true → exec (.drainDone page) s = .next (settle (drains s).progress)) ∧
    (s.stopping page = false → exec (.drainDone page) s = .next (settle s.progress)) ∧
    (s.ctl.resetting.contains page = true → isChannel page = false → (unitOf page).map UnitRef.ty ≠ some .directorySlice →
      exec (.unitResetDone page) s = .next (settle (State.progress (
        let u : State := { s with ctl := { s.ctl with
          resetting := s.ctl.resetting.filter (· != page), failed := s.ctl.failed.filter (· != page),
          groupResets := s.ctl.groupResets.map fun (g, l) => (g, l.filter (· != page)) } }
        if u.stopping page = true then drains u else u)))) ∧
    (s.ctl.resetting.contains page = false → exec (.unitResetDone page) s = .next (settle s.progress)) ∧
    (isGroup page = true → s.failed page = false → ∀ en,
      let go := ((put (2 + b2n en)).fanout page).foldl (fun (a : Bool × State) p =>
        (a.1 || (a.2.ctrlOne p (2 + b2n en)).1, (a.2.ctrlOne p (2 + b2n en)).2)) (false, put (2 + b2n en))
      exec (.quiesce page en) s = .next (settle (State.progress (
        if go.1 = true then { go.2 with ctl := { go.2.ctl with
          regs := go.2.ctl.regs.put (Reg.unitErr page) (BitVec.ofNat 64 (go.2.reg (Reg.unitErr page) ||| 2)) } }
        else go.2)))) ∧
    (∀ en, (s.present 9 = true → exec (.quiesce 9 en) s = .next (settle s.refuse.progress)) ∧
           (s.present 0 = true → exec (.quiesce 0 en) s = .next (settle s.refuse.progress))) ∧
    (s.present 9 = true → exec (.enable 9 false) s = .next (settle s.refuse.progress)) ∧
    (s.present 0 = true → exec (.enable 0 false) s = .next (settle s.refuse.progress))

/-- Keys (R101, R377), security associations (R98) and SVN_BURN (R412): the whole next state of each row. -/
def Obligations.KeysAndFuses : Prop :=
  ∀ s : State, s.clocked = true →
    (let t := s.reg Reg.pgJoinKeyTenant % 4096
     let refused : State := { s with ctl := { s.ctl with
       regs := s.ctl.regs.put Reg.rootCtlRefused (BitVec.ofNat 64 (min (s.reg Reg.rootCtlRefused + 1) (2 ^ 32 - 1))) } }
     exec .joinKeyInstall s =
       .next (settle { s with net := { s.net with joinKeys := s.net.joinKeys.put t (s.key256 Reg.pgJoinKey) } }) ∧
     (t = 0 → exec .joinKeyErase s =
       .next (settle { s with net := { s.net with joinKeys := s.net.joinKeys.put 0 Config.fusedJoinKey } })) ∧
     (t ≠ 0 → exec .joinKeyErase s = .next (settle { s with net := { s.net with joinKeys := s.net.joinKeys.del t } })) ∧
     (∀ both, exec (.joinKeyInstallRefused both) s = .next (settle refused)) ∧
     (∀ target svn, (s.boot.running.map Image.svn).getD 0 = svn →
       (s.boot.fuseSvn < target % 128 → target % 128 ≤ svn →
         exec (.svnBurn target) s = .next (settle { s with boot := { s.boot with fuseSvn := target % 128 } })) ∧
       (target % 128 ≤ s.boot.fuseSvn ∨ svn < target % 128 → exec (.svnBurn target) s = .next (settle refused)))) ∧
    (∀ port, s.hasPort port = true →
      let pg := portPage port
      let sel := s.reg (Reg.portSaSel pg)
      let key := saKey port (if sel.testBit 8 then 1 else 0) (sel % 4)
      exec (.saInstall port) s = .next (settle { s with net := { s.net with sas := s.net.sas.put key (SecAssoc.mk
        (s.key256 (Reg.portSak pg))
        (BitVec.ofNat 96 ((s.reg (Reg.portSalt pg) * 2 ^ 32 + s.reg (Reg.portSalt pg + 4)) * 2 ^ 32 + s.reg (Reg.portSalt pg + 8)))
        (BitVec.ofNat 32 (s.reg (Reg.portSsci pg))) 1) } }) ∧
      exec (.saRetire port) s = .next (settle { s with net := { s.net with sas := s.net.sas.del key } })) ∧
    exec .pairKeyInstall s = .next (settle { s with twin := { s.twin with key := some (s.key256 Reg.twPairKey) } }) ∧
    exec .pairKeyErase s = .next (settle { s with twin := { s.twin with key := none } })

/-- R63. -/
def Obligations.DiscardReturnsShadows : Prop :=
  ∀ s : State, s.clocked = true → ∃ t : State, exec .cfgDiscard s = .next (settle t) ∧
    t = { s with ctl := { s.ctl with shadow := t.ctl.shadow, written := [], flags := t.ctl.flags } } ∧
    (∀ i, i < 6 → t.shadowReg (Reg.rootCarveDir + 4 * i) % 64 = s.boot.carve.getD i 0 % 64) ∧
    (∀ a, (∀ i, i < 6 → a ≠ Reg.rootCarveDir + 4 * i) → t.shadowReg a = s.reg a) ∧
    (∀ a, t.reg a = s.reg a) ∧
    (∀ page, (t.flagsOf page).staged = false ∧ (t.flagsOf page).committed = (s.flagsOf page).committed ∧
      (t.flagsOf page).rejected = (s.flagsOf page).rejected ∧ (t.flagsOf page).reason = (s.flagsOf page).reason) ∧
    t.boot.service = s.boot.service

/-- FW_CMD (R414, R415): the whole next state of each row. An offset that is no multiple of 1 KiB is the model's choice. -/
def Obligations.FirmwareCommands : Prop :=
  ∀ s : State, s.clocked = true →
    let slot := s.reg Reg.mgFwSlotSel % 2
    let off := s.reg Reg.mgFwOffset % 2 ^ 24
    let gone : Option Nat := if s.boot.verified = some slot then none else s.boot.verified
    let result (b : Boot) (v : Nat) : State := { s with boot := b, ctl := { s.ctl with regs := s.ctl.regs.put Reg.mgFwResult (BitVec.ofNat 64 v) } }
    let fails (c : Instr) (b : Boot) (v : Nat) : Prop := exec c s = .next (settle ((result b v).raise 5))
    (s.boot.restarting = true → ∀ c ∈ [Instr.fwErase, .fwWrite, .fwVerify, .fwActivate], exec c s = .next (settle s)) ∧
    (s.boot.restarting = false →
      (s.boot.running.isSome = true → s.boot.slot = slot →
        ∀ c ∈ [Instr.fwErase, .fwWrite, .fwVerify, .fwActivate], fails c s.boot 0x05) ∧
      (s.boot.running.isSome = false ∨ s.boot.slot ≠ slot →
        exec .fwErase s = .next (settle (result
          { s.boot with flash := memClear s.boot.flash (slot * slotBytes) ((slot + 1) * slotBytes), verified := gone } 0)) ∧
        (off % 1024 = 0 → exec .fwWrite s = .next (settle (result
          { s.boot with flash := memWrite s.boot.flash (slot * slotBytes + off) (s.fwWindow.map (~~~ ·)), verified := gone } 0))) ∧
        (off % 1024 ≠ 0 → fails .fwWrite s.boot 0x05) ∧
        (s.boot.check slot = 0 → exec .fwVerify s = .next (settle (result { s.boot with verified := some slot } 0))) ∧
        (s.boot.check slot ≠ 0 → fails .fwVerify { s.boot with verified := gone } (0x08 + s.boot.check slot * 256)) ∧
        (s.boot.verified = some slot → exec .fwActivate s = .next (settle (result
          { s.boot with flash := memWrite s.boot.flash choiceAddr [~~~ BitVec.ofNat 8 slot] } 0))) ∧
        (s.boot.verified ≠ some slot → fails .fwActivate s.boot 0x08)))

/-- The SPDM rows (R417, R418). The message layouts are presumed from SPDM 1.2. -/
def Obligations.SpdmResponder : Prop :=
  ∀ s : State, s.clocked = true → s.boot.restarting = false →
    let x := s.boot.spdm
    let req (code : Nat) : List Byte := s.spdmRequest.set 1 (BitVec.ofNat 8 code)
    let fits (code : Nat) : Prop := spdmMin code ≤ (req code).length ∧ leField (req code) 0 1 = 0x12
    let answers (c : Instr) (r : List Byte) (y : Spdm) (draws : Nat) : Prop := exec c s =
      .next (settle (State.spdmPut { s with boot := { s.boot with spdm := y }, free := s.free + draws } r))
    let nonce : List Byte := leBytes 32 (Config.freeValue s.free)
    let sign (context : String) (t : List Byte) : List Byte :=
      slice (Config.identitySign (Config.freeValue (s.free + 1)) (signContext (textBytes context) ++ sha256 t)) 0 384
    (spdmMin 0x84 ≤ (req 0x84).length →
      let r : List Byte := [0x10#8, 0x04#8, 0#8, 0#8, 0#8, 1#8, 0x00#8, 0x12#8]
      answers .getVersion r { phase := 1, vca := req 0x84 ++ r } 0) ∧
    (x.phase = 1 → fits 0xE1 →
      let r := [0x12#8, 0x61#8, 0#8, 0#8, 0#8, 20#8, 0#8, 0#8] ++ leBytes 4 0x16 ++ leBytes 4 1024 ++ leBytes 4 1024
      answers .getCapabilities r { x with phase := 2, vca := x.vca ++ req 0xE1 ++ r } 0) ∧
    (x.phase = 2 → fits 0xE3 →
      let asym := leField (req 0xE3) 8 4 &&& 8
      let hash := leField (req 0xE3) 12 4 &&& 1
      let r := [0x12#8, 0x63#8, 0#8, 0#8] ++ leBytes 2 36 ++ [1#8, 0#8] ++ leBytes 4 2 ++ leBytes 4 asym ++ leBytes 4 hash ++
        List.replicate 16 0#8
      (asym ≠ 0 ∨ hash ≠ 0 → answers .negotiateAlgorithms r { x with phase := 3, vca := x.vca ++ req 0xE3 ++ r } 0) ∧
      (asym = 0 → hash = 0 → answers .negotiateAlgorithms [0x12#8, 0x7F#8, 0x01#8, 0#8] x 0)) ∧
    (x.phase = 3 →
      (fits 0x81 →
        let r := [0x12#8, 0x01#8, 0#8, 1#8] ++ sha256 Config.certChain
        answers .getDigests r { x with certs := x.certs ++ req 0x81 ++ r } 0) ∧
      (fits 0x82 → leField (req 0x82) 2 1 % 16 = 0 → leField (req 0x82) 4 2 < Config.certChain.length →
        let off := leField (req 0x82) 4 2
        let n := min (min (leField (req 0x82) 6 2) 1016) (Config.certChain.length - off)
        let r := [0x12#8, 0x02#8, 0#8, 0#8] ++ leBytes 2 n ++ leBytes 2 (Config.certChain.length - off - n) ++ slice Config.certChain off n
        answers .getCertificate r { x with certs := x.certs ++ req 0x82 ++ r } 0) ∧
      (fits 0x83 → leField (req 0x83) 2 1 = 0 → leField (req 0x83) 3 1 = 0 ∨ leField (req 0x83) 3 1 = 0xFF →
        let sum := if leField (req 0x83) 3 1 = 0 then [] else sha256 s.measAll
        let r := [0x12#8, 0x03#8, 0#8, 1#8] ++ sha256 Config.certChain ++ nonce ++ sum ++ leBytes 2 0
        answers .challenge (r ++ sign "responder-challenge_auth signing" (x.vca ++ x.certs ++ req 0x83 ++ r)) { x with certs := [] } 2) ∧
      (fits 0xE0 → leField (req 0xE0) 3 1 ≤ 5 ∨ leField (req 0xE0) 3 1 = 0xFF →
        let i := leField (req 0xE0) 3 1
        let blocks := if i = 0 then [] else if i = 0xFF then s.measAll else s.measBlock i
        let r := [0x12#8, 0x60#8, BitVec.ofNat 8 (if i = 0 then 5 else 0), 0#8] ++
          leBytes 1 (if i = 0 then 0 else if i = 0xFF then 5 else 1) ++ leBytes 3 blocks.length ++ blocks ++ nonce ++ leBytes 2 0
        (bit (leField (req 0xE0) 2 1) 0 = false → answers .getMeasurements r { x with meas := x.meas ++ req 0xE0 ++ r } 1) ∧
        (bit (leField (req 0xE0) 2 1) 0 = true → 37 ≤ (req 0xE0).length →
          answers .getMeasurements (r ++ sign "responder-measurements signing" (x.vca ++ x.meas ++ req 0xE0 ++ r)) { x with meas := [] } 2))) ∧
    (∀ e ∈ [(Instr.getCapabilities, 0xE1, 1), (.negotiateAlgorithms, 0xE3, 2), (.getDigests, 0x81, 3), (.getCertificate, 0x82, 3),
        (.challenge, 0x83, 3), (.getMeasurements, 0xE0, 3)],
      spdmMin e.2.1 ≤ (req e.2.1).length → x.phase ≠ e.2.2 → answers e.1 [0x12#8, 0x7F#8, 0x04#8, 0#8] x 0) ∧
    answers .spdmUnsupportedRequest [0x12#8, 0x7F#8, 0x07#8, BitVec.ofNat 8 (leField s.spdmRequest 1 1)] x 0 ∧
    (∀ (u : State) (r : List Byte), (u.spdmPut r).reg Reg.mgSpdmStat = r.length * 65536 % 2 ^ 64)

/-- EVENT_RECORD (R442, R443): the whole next state. -/
def Obligations.RecordsLowestSource : Prop :=
  ∀ s : State, s.clocked = true →
    let n := s.ringPlaces
    let tail := s.reg Reg.ecEvTail
    let can := (s.boot.step = .near ∨ s.boot.step = .bulk) ∧ s.stopping 6 = false
    (¬can ∨ s.nextSource = none → exec .eventRecord s = .next (settle s)) ∧
    (∀ src, can → s.nextSource = some src →
      let e : Events := { s.ev with out := setBit s.ev.out src, args := s.ev.args.del src }
      let bytes := recordBytes src s.ev.seq (s.ev.args.getD src { }) s.ev.lostBefore
      let u : State := { s with
        ctl := { s.ctl with regs := s.ctl.regs.put Reg.ecEvTail (BitVec.ofNat 64 ((tail + 1) % n)) }
        store := { s.store with mem := memWrite s.store.mem (s.reg Reg.ecEvRingBase + 32 * tail) bytes }
        ev := { e with seq := (s.ev.seq + 1) % 2 ^ 32, lostBefore := false } }
      ((s.reg Reg.ecEvRingCtrl).testBit 0 = true → (tail + 1) % n ≠ s.reg Reg.ecEvHead →
        exec .eventRecord s = .next (settle (if tail = s.reg Reg.ecEvHead then u.beacon else u))) ∧
      ((s.reg Reg.ecEvRingCtrl).testBit 0 = false ∨ (tail + 1) % n = s.reg Reg.ecEvHead →
        exec .eventRecord s = .next (settle { s with
          ctl := { s.ctl with regs := s.ctl.regs.put Reg.ecEvOverflow (BitVec.ofNat 64 (min (s.reg Reg.ecEvOverflow + 1) (2 ^ 32 - 1))) }
          ev := { e with lostBefore := true, ringRaised := true } })))

/-- R446. -/
def Obligations.DoneEndsRecord : Prop :=
  ∀ (s : State) (src : Nat), s.clocked = true → src < 1024 →
    let e : Events := { s.ev with out := clearBit s.ev.out src, pend := clearBit s.ev.pend src, args := s.ev.args.del src }
    let t : State := if s.ev.out.getLsbD src = true then { s with ev := e }
      else { s with ctl := { s.ctl with regs := s.ctl.regs.put Reg.ecEvDoneIdle (BitVec.ofNat 64 (min (s.reg Reg.ecEvDoneIdle + 1) (2 ^ 32 - 1))) } }
    let u : State := if src = 595 then { t with ev := { t.ev with ringRaised := false } } else t
    ((s.ev.out.getLsbD src = true → u.ev.out.getLsbD src = false ∧ u.ev.pend.getLsbD src = false) ∧
     ∀ j, j < 1024 → j ≠ src → u.ev.out.getLsbD j = s.ev.out.getLsbD j ∧ u.ev.pend.getLsbD j = s.ev.pend.getLsbD j) ∧
    (isLevel src = true ∧ u.levelCond src = true ∧ u.sourceValid src = true ∧ u.ev.mask.getLsbD src = false →
      ∃ v : State, exec (.evDone src) s = .next (settle v) ∧ v.ev.pend.getLsbD src = true ∧
        v = { u with ev := { u.ev with pend := v.ev.pend, args := v.ev.args } }) ∧
    (¬(isLevel src = true ∧ u.levelCond src = true ∧ u.sourceValid src = true ∧ u.ev.mask.getLsbD src = false) →
      exec (.evDone src) s = .next (settle u))

/-- Host writes of the event controller (R440, R441, R447, R460) and its beacon timers (R444). -/
def Obligations.EventWrites : Prop :=
  ∀ s : State, s.clocked = true →
    (∀ w v, w < 32 → exec (.evMask w v) s = .next (settle (State.resampleWord
      { s with ev := { s.ev with mask := putWord s.ev.mask w (s.validWord w v) } } w))) ∧
    (∀ w v, w < 32 → ∃ t : State, exec (.evPend w v) s = .next (settle (t.resampleWord w)) ∧
      t = { s with ev := { s.ev with pend := putWord s.ev.pend w (s.validWord w v),
                                     out := putWord s.ev.out w (wordOf s.ev.out w &&& s.validWord w v), args := t.ev.args } }) ∧
    (∀ w i, w < 32 → i < 32 → ∀ (v : BitVec 1024) (y : BitVec 32),
      (putWord v w y).getLsbD (32 * w + i) = y.getLsbD i ∧
      ∀ j, j < 1024 → j / 32 ≠ w → (putWord v w y).getLsbD j = v.getLsbD j) ∧
    (∀ src, src < 1024 → exec (.evCountClr src) s = .next (settle { s with ev := { s.ev with counts := s.ev.counts.put src 0 } })) ∧
    (∀ v : BitVec 32,
      let h := v.toNat % 2 ^ 19
      let within := h < s.ringPlaces ∧ (h + s.ringPlaces - s.reg Reg.ecEvHead) % s.ringPlaces ≤ s.ringUsed
      let u : State := { s with ctl := { s.ctl with regs := s.ctl.regs.put Reg.ecEvHead (BitVec.ofNat 64 h) } }
      (within → exec (.evHead v) s = .next (settle (if u.ringUsed = 0 then u else u.beacon))) ∧
      (¬within → exec (.evHead v) s = .next (settle { s with ctl := { s.ctl with
        regs := s.ctl.regs.put Reg.rootCtlRefused (BitVec.ofNat 64 (min (s.reg Reg.rootCtlRefused + 1) (2 ^ 32 - 1))) } }))) ∧
    (∀ v : BitVec 32,
      let size := bits v.toNat 4 1
      let bytes := 4096 * 2 ^ size
      let base := s.reg Reg.ecEvRingBase
      let fits := size ≤ 12 ∧ base % bytes = 0 ∧ base + bytes ≤ s.nearPlaced * 2 ^ 30 ∧ extentOf base = extentOf (base + bytes - 1)
      (fits → exec (.evRingCtrl v) s = .next (settle { s with
        ctl := { s.ctl with regs := ((s.ctl.regs.put Reg.ecEvRingCtrl (BitVec.ofNat 64 (v.toNat % 32))).put Reg.ecEvHead 0).put Reg.ecEvTail 0 }
        ev := { s.ev with ringBad := false, ringOk := v.toNat.testBit 0 } })) ∧
      (¬fits → exec (.evRingCtrl v) s = .next (settle { s with ev := { s.ev with ringBad := true } }))) ∧
    (let due := s.ringUsed ≠ 0 ∧ s.since s.ev.lastAny (bits (s.reg Reg.ecBeaconCtrl) 15 8 * 1000000) = true
     (due → exec .beaconRepeat s = .next (settle s.beacon)) ∧ (¬due → exec .beaconRepeat s = .next (settle s))) ∧
    (s.ev.beaconDue = [] → exec .beaconDeferred s = .next (settle s)) ∧
    (∀ n, s.ev.beaconDue = [n] → (s.since (s.ev.lastBeacon.getD n 0) 1000 = true → exec .beaconDeferred s = .next (settle (s.beaconTo n))) ∧
      (s.since (s.ev.lastBeacon.getD n 0) 1000 = false → exec .beaconDeferred s = .next (settle s)))

/-- R451. -/
def Obligations.SamplesFallInBins : Prop :=
  (∀ (s : State) (m : Nat) (x : MonSample), s.clocked = true → (s.slot m).run = true → s.stopping (monPage m) = false → s.sampleFits m x = true →
    (s.reg (Reg.moMonCtrl (monPage m))).testBit 1 = true → s.monHolds m = true →
    let shift := bits (s.reg (Reg.moMonCtrl (monPage m))) 13 8
    let v := x.value % 2 ^ 64
    let b := if v < 2 ^ shift then 0 else min 31 (Nat.log2 v - shift + 1)
    let old := (s.slot m).now.bins
    ∃ t : State, exec (.monSample m x) s = .next (settle t) ∧
      (t.slot m).now.bins.getD b 0 = min (old.getD b 0 + 1) (2 ^ 32 - 1) ∧
      ∀ k, k ≠ b → (t.slot m).now.bins.getD k 0 = old.getD k 0) ∧
  (∀ shift v k, shift ≤ 33 → 1 ≤ k → k ≤ 30 → (binOf shift v = k ↔ 2 ^ (shift + k - 1) ≤ v ∧ v < 2 ^ (shift + k))) ∧
  (∀ shift v, shift ≤ 33 → (binOf shift v = 31 ↔ 2 ^ (shift + 30) ≤ v) ∧ (binOf shift v = 0 ↔ v < 2 ^ shift)) ∧
  binOf 6 660 = 4 ∧ binOf 6 40 = 0 ∧ binOf 6 3000000 = 16

/-- Monitor slots (R449, R450, R452, R453). -/
def Obligations.MonitorSlots : Prop :=
  ∀ (s : State) (m : Nat), s.clocked = true → m < 64 →
    let a := Reg.moMonCtrl (monPage m)
    let x := s.slot m
    let w := s.reg (Reg.moMonWindow (monPage m))
    let alarmOf (d : Win) : Bool := match bits (s.reg a) 3 2 with
      | 1 => s.reg (Reg.moMonThresh (monPage m)) < d.max
      | 2 => d.min < s.reg (Reg.moMonThresh (monPage m))
      | 3 => s.reg (Reg.moMonThresh (monPage m)) < d.count
      | _ => false
    (∀ v : BitVec 32, (v.toNat &&& 0x00FF3F0F).testBit 0 = true → (s.reg a).testBit 0 = false →
      let n := v.toNat &&& 0x00FF3F0F
      let probe := s.probeOk (bits n 23 20) (s.reg (Reg.moMonPage (monPage m)) % 2 ^ 20)
      (probe = true →
        let u : State := { s with ctl := { s.ctl with regs := s.ctl.regs.put a (BitVec.ofNat 64 n) }
                                  mon := s.mon.put m { x with run := true, badProbe := false, latched := { } } }
        let h : State := if n.testBit 1 = true then u.histAsk (m % 2) (.monitor m) else u
        ∃ t : State, exec (.monCtrl m v) s = .next (settle t) ∧ t = { h with mon := t.mon } ∧
          (t.slot m).run = true ∧ (t.slot m).latched = { } ∧ (t.slot m).now = { partialW := true, noHist := n.testBit 1 && !h.monHolds m } ∧
          (t.slot m).nextClose = (if w = 0 then 0 else (s.now / w + 1) * w) ∧ ∀ k, k ≠ m → t.slot k = s.slot k) ∧
      (probe = false → exec (.monCtrl m v) s = .next (settle { s with
        ctl := { s.ctl with regs := s.ctl.regs.put a (BitVec.ofNat 64 (n - 1)) }
        mon := s.mon.put m { x with run := false, badProbe := true } }))) ∧
    (∀ v : BitVec 32, (v.toNat &&& 0x00FF3F0F).testBit 0 = false → (s.reg a).testBit 0 = true →
      (v.toNat &&& 0x00FF3F0F) / 65536 = s.reg a / 65536 →
      exec (.monCtrl m v) s = .next (settle (State.histDrop { s with
        ctl := { s.ctl with regs := s.ctl.regs.put a (BitVec.ofNat 64 (v.toNat &&& 0x00FF3F0F)) }
        mon := s.mon.put m { x with run := false } } (m % 2) (.monitor m)))) ∧
    (∀ p : MonSample, x.run = true → s.stopping (monPage m) = false → s.sampleFits m p = true → ∃ t : State, exec (.monSample m p) s = .next (settle t) ∧
      t = { s with mon := t.mon } ∧ (∀ k, k ≠ m → t.slot k = s.slot k) ∧
      (t.slot m).now.min = min x.now.min (p.value % 2 ^ 64) ∧ (t.slot m).now.max = max x.now.max (p.value % 2 ^ 64) ∧
      (t.slot m).now.count = min (x.now.count + 1) (2 ^ 64 - 1) ∧
      (t.slot m).now.sum = min (x.now.sum + p.value % 2 ^ 64) (2 ^ 64 - 1) ∧
      (t.slot m).now.sumSat = (x.now.sumSat || decide (2 ^ 64 ≤ x.now.sum + p.value % 2 ^ 64)) ∧
      (t.slot m).latched = x.latched) ∧
    (∀ p : MonSample, x.run = false ∨ s.stopping (monPage m) = true ∨ s.sampleFits m p = false → exec (.monSample m p) s = .next (settle s)) ∧
    (x.run = true → w ≠ 0 → x.nextClose ≤ s.now →
      let done : Win := { x.now with partialW := x.now.partialW || decide (x.nextClose < s.now / w * w) }
      exec (.monWindowClose m) s = .next (settle { s with mon := s.mon.put m { x with
        latched := done, endAt := s.now / w * w, seq := (x.seq + 1) % 2 ^ 32, nextClose := s.now / w * w + w,
        now := { partialW := false, noHist := (s.reg a).testBit 1 && !s.monHolds m },
        alarm := x.alarm || alarmOf done } })) ∧
    (x.run = false ∨ w = 0 ∨ s.now < x.nextClose → exec (.monWindowClose m) s = .next (settle s)) ∧
    (∀ g, (s.pal.histQueue.getD g []).head? = some (.monitor m) →
      ((s.pal.histHeld.getD g []).length < 16 → exec (.histUnitGrant g) s = .next (settle { s with pal := { s.pal with
        histQueue := s.pal.histQueue.put g (s.pal.histQueue.getD g []).tail
        histHeld := s.pal.histHeld.put g (s.pal.histHeld.getD g [] ++ [.monitor m]) } })) ∧
      (16 ≤ (s.pal.histHeld.getD g []).length → exec (.histUnitGrant g) s = .next (settle s)))

/-- The drill unit (R454, R455). A key of 0, and the BUSY of a stopped drill unit, are readings of the model. -/
def Obligations.DrillUnit : Prop :=
  ∀ s : State, s.clocked = true →
    let d := s.drill
    let kind := bits (s.reg Reg.drDrillKind) 3 0
    let target := s.reg Reg.drDrillTarget
    let page := s.drillPage
    let lapsed : Drill := { d with key := 0, st := if d.st = .armed then .idle else d.st }
    let armed := d.key ≠ 0 ∧ s.since d.armedAt 100000000 = false
    let command := (kind = 3 ∨ kind = 4 ∨ kind = 5) ∧ (page = 0x2000 ∨ page = 0x2001)
    let early := ∃ t, d.lastFire = some t ∧ s.since t (bits (s.reg Reg.drDrillGap) 9 0 * 1000000) = false
    let counted (a : Nat) (u : State) : State := { u with ctl := { u.ctl with
      regs := u.ctl.regs.put a (BitVec.ofNat 64 (min (u.reg a + 1) (2 ^ 32 - 1))) } }
    exec (.drillArm 0) s = .next (settle s) ∧
    (∀ key : BitVec 16, key ≠ 0 → exec (.drillArm key) s = .next (settle { s with drill :=
      { d with key := key.toNat, armedAt := s.ran, st := if d.st = .active then .active else .armed } })) ∧
    (armed → exec .drillArmLapse s = .next (settle s)) ∧
    (¬armed → exec .drillArmLapse s = .next (settle { s with drill := lapsed })) ∧
    (∀ key : BitVec 16,
      let denied := ¬armed ∨ key.toNat ≠ d.key ∨ (kind = 2 ∧ ∃ l ∈ s.drillLines, (s.lineExtent l).drillOk = false)
      let busy := d.st = .active ∨ s.serves 0xA = false ∨ early ∨ (command ∧ (s.portSt (0x2001 - page)).up = false)
      let bad := s.present page = false ∨ (s.unitCap page).testBit 3 = false ∨ s.drillFits = false
      let refusal (st : Nat) : State :=
        (counted Reg.drDrillRefused { s with drill := { (if key.toNat ≠ d.key then lapsed else d) with result := st } }).raise 594 { status := st, arg0 := kind }
      let fired (arg : Nat) (lines : List Nat) : State :=
        (counted Reg.drDrillsFired { s with drill := { d with
          st := .active, key := 0, lastFire := some s.ran, result := 0, kind := kind, page := page, arg := arg, lines := lines,
          endAt := s.ran + bits (s.reg Reg.drDrillDuration) 13 0 * 1000000, frames := 0, declared := false } }).raise 592 { status := 0, arg0 := kind }
      (denied → exec (.drillFire key) s = .next (settle (refusal 0x03))) ∧
      (¬denied → s.boot.service ≠ .full → exec (.drillFire key) s = .next (settle (refusal 0x0C))) ∧
      (¬denied → s.boot.service = .full → busy → exec (.drillFire key) s = .next (settle (refusal 0x07))) ∧
      (¬denied → s.boot.service = .full → ¬busy → bad → exec (.drillFire key) s = .next (settle (refusal 0x05))) ∧
      (¬denied → s.boot.service = .full → ¬busy → ¬bad →
        (kind = 4 → exec (.drillFire key) s = .next (settle ((fired 0 []).declareDown (page - 0x2000)))) ∧
        (kind = 5 → exec (.drillFire key) s = .next (settle (fired
          ((if bits (s.reg Reg.drDrillParam) 31 16 = 0 then 65536 else bits (s.reg Reg.drDrillParam) 31 16) * 2 + bits target 28 28) []))) ∧
        (kind = 7 → exec (.drillFire key) s = .next (settle (fired 0 []))))) ∧
    (let ended : State := State.raise { s with drill := { d with st := if d.key = 0 then .idle else .armed, result := 0, lines := [] } }
       593 { status := 0, arg0 := d.kind }
     (d.st ≠ .active → exec .drillStop s = .next (settle s) ∧ exec .drillEnd s = .next (settle s)) ∧
     (d.st = .active → d.kind = 5 ∨ d.kind = 7 → exec .drillStop s = .next (settle ended) ∧
       (d.endAt ≤ s.ran → exec .drillEnd s = .next (settle ended)) ∧ (s.ran < d.endAt → exec .drillEnd s = .next (settle s))))

/-- REGISTER_WRITE by the codes of Table 0-3, and STAGED_WRITE (R59). -/
def Obligations.RegisterWrites : Prop :=
  ∀ (s : State) (page off : Nat) (v : BitVec 64), s.clocked = true →
    (findReg page off = none → exec (.registerWrite page off v) s = .next (settle s.progress)) ∧
    (s.present page = false → exec (.registerWrite page off v) s = .next (settle s.progress) ∧
      exec (.stagedWrite page off v) s = .next (settle s)) ∧
    (∀ mask, s.present page = true → (stagedWords page).find? (·.1 = off) = some (off, mask) →
      ∃ t : State, exec (.stagedWrite page off v) s = .next (settle t) ∧
        t = { s with ctl := { s.ctl with shadow := t.ctl.shadow, written := t.ctl.written, flags := t.ctl.flags } } ∧
        t.shadowReg (page * 4096 + off) = v.toNat &&& mask ∧
        (∀ a, a ≠ page * 4096 + off → t.shadowReg a = s.shadowReg a) ∧
        t.ctl.written.contains (page * 4096 + off) = true ∧ (t.flagsOf page).staged = true ∧
        (∀ p, p ≠ page → t.flagsOf p = s.flagsOf p) ∧ (∀ a, t.reg a = s.reg a)) ∧
    (∀ (u : UnitRef) (r : RegDef) (at_ : Nat), unitOf page = some u → findReg page off = some (r, at_) →
      findReg page at_ = some (r, at_) → s.present page = true →
      at_ ≠ 0x14 → (u.ty = .drill → drillStaging at_ = false) →
      let x := if r.wide then v.toNat else v.toNat % 2 ^ 32
      let a := page * 4096 + at_
      let put (n : Nat) : State := { s with ctl := { s.ctl with regs := s.ctl.regs.put a (BitVec.ofNat 64 n) } }
      (if at_ < 0x40 then none else s.writeOwn none u page a x) = none →
        (r.staged = true → exec (.registerWrite page off v) s = .next (settle (stagedWriteOp page at_ x s).progress)) ∧
        (r.staged = false →
          (r.acc = .rw ∨ r.acc = .rws ∨ r.acc = .wo → exec (.registerWrite page off v) s = .next (settle (put (x &&& r.mask)).progress)) ∧
          (r.acc = .ro → exec (.registerWrite page off v) s = .next (settle s.progress)) ∧
          (r.acc = .w1c → (at_ = 0x1C → isGroup page = false) → exec (.registerWrite page off v) s =
            .next (settle (put (s.reg a - (s.reg a &&& x))).progress))))

/-- CFG_COMMIT (R61, R62, R423, R426). -/
def Obligations.CommitOutcomes : Prop :=
  ∀ (s : State) (seq : BitVec 32), s.clocked = true →
    (s.boot.step ≠ .bulk ∨ s.boot.restarting = true → exec (.cfgCommit seq) s = .next (settle s)) ∧
    (s.boot.step = .bulk → s.boot.restarting = false →
      let crc := s.reg Reg.rootCfgCommitLo = s.cfgCrc
      let later := s.reg Reg.rootCfgSeq < seq.toNat
      let bad := s.offences s.shadowReg true
      let rejected (l : List (Nat × Nat)) : Prop := ∃ t : State, exec (.cfgCommit seq) s = .next (settle (t.raise 2)) ∧
        t.reg Reg.rootCfgStatus = 3 ∧
        (let first := (s.stagedPages.find? fun p => reasonOf l p != 0).getD 0
         t.reg Reg.rootCfgReason = (first * 4096 + reasonOf l first) % 2 ^ 64) ∧ t.boot.service = .darkHold ∧ t.ctl.shadow = s.ctl.shadow ∧ t.ctl.written = s.ctl.written ∧
        (∀ p, (t.flagsOf p).staged = (s.flagsOf p).staged ∧ (t.flagsOf p).committed = (s.flagsOf p).committed) ∧
        (∀ p, p ∈ s.stagedPages → (t.flagsOf p).rejected = (reasonOf l p != 0) ∧ (t.flagsOf p).reason = BitVec.ofNat 8 (reasonOf l p))
      (¬crc → rejected [(0, 1)]) ∧
      (crc → ¬later → rejected [(0, 2)]) ∧
      (crc → later → bad ≠ [] → rejected bad) ∧
      (crc → later → bad = [] → ∃ t : State, exec (.cfgCommit seq) s = .next (settle t) ∧
        t.reg Reg.rootCfgSeq = seq.toNat ∧ t.reg Reg.rootCfgStatus = 2 ∧ t.reg Reg.rootCfgReason = 0 ∧
        t.boot.service = .full ∧ t.ctl.shadow = [] ∧ t.ctl.written = [] ∧ (∀ p, (t.flagsOf p).staged = false) ∧
        (∃ copy, t.ctl.copies.head? = some copy ∧ copy.seq = seq.toNat)))

/-- LINK_DOWN (R70), LANE_FAULT (R71), LINK_TRAINED (R70, R71), MEMBER_REJOIN (R74, R75), LLDP_TRANSMIT (R69). -/
def Obligations.LinkRows : Prop :=
  ∀ (s : State) (p : Nat), s.clocked = true → s.hasPort p = true →
    let only (t : State) : Prop := t = { s with ctl := { s.ctl with regs := t.ctl.regs }, ev := t.ev, net := { s.net with ports := t.net.ports, groups := t.net.groups, conns := t.net.conns } }
    let isDown (t : State) : Prop := (t.portSt p).up = false ∧ (t.portSt p).lanes = 0 ∧ (t.portSt p).training = true ∧ (t.portSt p).downAt = some s.ran ∧
      (∀ g, s.groupOf p = some g → (t.groupSt g).removed.contains p = true)
    ((s.portSt p).up = true ∨ (s.portSt p).retraining = true → ∃ t : State, exec (.linkDown p) s = .next (settle t.progress) ∧ only t ∧ isDown t ∧
      t.reg (Reg.portLinkDowns (portPage p)) = satAdd 32 (s.reg (Reg.portLinkDowns (portPage p))) 1) ∧
    ((s.portSt p).up = false → (s.portSt p).retraining = false → exec (.linkDown p) s =
      .next (settle (s.onPort p fun q => { q with tried := q.tried || q.training }).progress)) ∧
    (∀ ok : BitVec 4, s.portDrilled p = false → let q := s.portSt p
      (q.up = false ∨ q.lanes &&& ~~~ok = 0 → exec (.laneFault p ok) s = .next (settle (s.onPort p fun q => { q with lanesGood := ok }).progress)) ∧
      (q.up = true → q.lanes &&& ~~~ok ≠ 0 → ∃ t : State, exec (.laneFault p ok) s = .next (settle t.progress) ∧ only t ∧ isDown t ∧
        (t.portSt p).lanesGood = ok ∧
        t.ev.counts.getD (16 + 4 * p + 1) 0 = min (s.ev.counts.getD (16 + 4 * p + 1) 0 + 1) 0xFFFF)) ∧
    (∀ r l, s.trainRate p = some (r, l) → (s.portSt p).training = true → (s.portSt p).serviceDown = false →
      ¬(s.portDrilled p = true ∧ s.drill.kind = 4) → s.enabled (portPage p) = true →
      ∃ t : State, exec (.linkTrained p) s = .next (settle t.progress) ∧ only t ∧
        (t.portSt p).up = true ∧ (t.portSt p).rate = r ∧ (t.portSt p).lanes = l ∧ (t.portSt p).training = false ∧ (t.portSt p).downAt = none) ∧
    ((s.portSt p).training = false → exec (.linkTrained p) s = .next (settle s.progress)) ∧
    (∀ g, (s.groupSt g).removed.contains p = true → (s.portSt p).up = true → (s.groupSt g).upSince.getD p 0 + 10000000 ≤ s.ran →
      ∃ t : State, exec (.memberRejoin g p) s = .next (settle t.progress) ∧ only t ∧
        t.groupSt g = { s.groupSt g with removed := (s.groupSt g).removed.filter (· != p) }) ∧
    (∀ g, (s.groupSt g).removed.contains p = false → exec (.memberRejoin g p) s = .next (settle s.progress)) ∧
    ((s.portSt p).up = true → bit (s.reg (Reg.portLldpCtrl (portPage p))) 0 = true →
      ((s.portSt p).nextLldp ≤ s.ran → exec (.lldpTransmit p) s = .next (settle ((s.onPort p fun q =>
        { q with nextLldp := s.ran + bits (s.reg (Reg.portLldpCtrl (portPage p))) 15 8 * 1000000000 }).onNet fun n =>
          { n with sent := n.sent ++ [.lldp p Config.lldpOui 0x01 (s.lldpInfo p)] }).progress)) ∧
      (s.ran < (s.portSt p).nextLldp → exec (.lldpTransmit p) s = .next (settle s.progress)))

/-- ACK_TIMER (R85), and what leaves the device for it (R76, Table 3-3). -/
def Obligations.AckTimer : Prop :=
  ∀ (s : State) (c : Nat) (k : Conn), s.clocked = true → s.conn? c = some k →
    (∀ t, k.unackedSince = some t → t + 2000 ≤ s.ran →
      ∃ u : State, exec (.ackTimer c) s = .next (settle u.progress) ∧ s.OnlySends u ∧
        (u.conn? c).any (fun k => k.unackedCount = 0 && k.unackedSince = none) = true ∧
        (∀ q p, Tbl.get? k.paths (s.anyPath c) = some q → s.outPort q = some p → s.CanSend p →
          ∃ g : Frame, u.net.sent = s.net.sent ++ [.jmt p q.aip (Config.sourcePort c (s.anyPath c)) s.udpPort g] ∧ g.ty = 0x53 ∧ g.ack = k.rxNext ∧ g.incarn = s.boot.incarn ∧
            has g fAckValid = true ∧ has g fUnseq = true ∧ has g fProbe = false ∧ has g fEce = q.echoEce ∧ has g fCwr = q.sendCwr)) ∧
    (∀ t, k.unackedSince = some t → s.ran < t + 2000 → exec (.ackTimer c) s = .next (settle s.progress)) ∧
    (k.unackedSince = none → exec (.ackTimer c) s = .next (settle s.progress))

/-- PROBE_TIMER, PROBE_LOST, REPROBE (R86), RTO_EXPIRY (R88, R89), CWND_UPDATE (R89), KEEPALIVE (R90). -/
def Obligations.TransportTimers : Prop :=
  ∀ (s : State) (c n : Nat) (k : Conn) (q : PathSt), s.clocked = true → s.conn? c = some k → Tbl.get? k.paths n = some q → k.active = true →
    (q.live = true → q.probeAt = none →
      (q.lastAcked + 25000 ≤ s.ran → exec (.probeTimer c n) s =
        .next (settle ((s.onPath c n fun q => { q with probeAt := some s.ran }).sendProbe c n).progress)) ∧
      (s.ran < q.lastAcked + 25000 → exec (.probeTimer c n) s = .next (settle s.progress))) ∧
    (∀ t, q.live = true → q.probeAt = some t →
      (exec (.probeTimer c n) s = .next (settle s.progress)) ∧
      (t + 25000 ≤ s.ran → q.lost < 2 → exec (.probeLost c n) s =
        .next (settle (s.onPath c n fun q => { q with probeAt := none, lost := q.lost + 1 }).progress)) ∧
      (t + 25000 ≤ s.ran → 2 ≤ q.lost → exec (.probeLost c n) s =
        .next (settle (s.onPath c n fun q => { q with probeAt := none, lost := 0, live := false, droppedAt := some s.ran }).progress)) ∧
      (s.ran < t + 25000 → exec (.probeLost c n) s = .next (settle s.progress))) ∧
    (∀ t, q.live = false → q.droppedAt = some t →
      (t + 10000000 ≤ s.ran → exec (.reprobe c n) s =
        .next (settle ((s.onPath c n fun q => { q with droppedAt := some s.ran }).sendProbe c n).progress)) ∧
      (s.ran < t + 10000000 → exec (.reprobe c n) s = .next (settle s.progress))) ∧
    (∀ (seq : BitVec 32) (e : TxEntry), Tbl.get? k.unacked seq.toNat = some e →
      (e.time + e.rto ≤ s.ran → exec (.rtoExpiry c seq) s =
        .next (settle ((((s.onPath c e.path fun q => { q with cwnd := 4352, sendCwr := true }).onConn c fun k =>
          { k with unacked := k.unacked.put seq.toNat { e with rto := min (2 * e.rto) 4000000, time := s.ran } }).resend c seq).progress))) ∧
      (s.ran < e.time + e.rto → exec (.rtoExpiry c seq) s = .next (settle s.progress))) ∧
    (q.sampled = true → q.roundAt + q.srtt ≤ s.ran →
      ∃ u : State, exec (.cwndUpdate c n) s = .next (settle u.progress) ∧ s.OnlySends u ∧ ∃ q' : PathSt,
        (u.conn? c).any (fun k => decide (Tbl.get? k.paths n = some q')) = true ∧
        q'.ackedAll = 0 ∧ q'.ackedEce = 0 ∧ q'.eceSeen = false ∧ q'.roundAt = s.ran ∧ 4352 ≤ q'.cwnd ∧ q'.cwnd ≤ 4194304 ∧
        q'.alpha = q.alpha + ((if q.ackedAll = 0 then 0 else (q.ackedEce : Rat) / (q.ackedAll : Rat)) - q.alpha) / 16 ∧
        (q.eceSeen = false → q.ackedEce = 0 → q'.cwnd = min (q.cwnd + 4352) 4194304 ∧ q'.sendCwr = q.sendCwr) ∧
        (q.eceSeen = true ∨ q.ackedEce ≠ 0 → q'.cwnd = min (max ((q.cwnd : Rat) * (1 - q'.alpha / 2)).floor.toNat 4352) 4194304 ∧ q'.sendCwr = true)) ∧
    (c ≠ twinConn →
      (k.lastKeep + 1000000 ≤ s.ran → exec (.keepalive c) s =
        .next (settle (((k.paths.filter fun e => e.2.live).map (·.1)).foldl (fun s n => s.sendAck c n)
          (s.onConn c fun k => { k with lastKeep := s.ran })).progress)) ∧
      (s.ran < k.lastKeep + 1000000 → exec (.keepalive c) s = .next (settle s.progress)))

/-- SILENCE_TIMEOUT, AGENT_KILL, LEAVING_DRAINED (R90), RECLAIM_COMPLETE (R90, R156). -/
def Obligations.ConnectionLife : Prop :=
  ∀ (s : State) (c : Nat) (k : Conn), s.clocked = true → s.conn? c = some k →
    (∀ counter left drill, (∀ e ∈ s.coh.dir, e.2.txn = none) → s.declareDead c counter left drill =
      ((s.onConn c fun k => { k with st := .reclaiming, left := left }).bump counter).onCoh fun x =>
        { x with reclaims := x.reclaims.put k.agent { conn := c, drill := drill }, lastReclaim := k.agent,
                 loose := x.loose.filter fun e => e.2.target != k.agent }) ∧
    (c ≠ twinConn →
      (k.lastHeard + 10000000 ≤ s.ran →
        (k.active = true → exec (.silenceTimeout c) s = .next (settle (s.declareDead c Reg.pgDeadSilence false false).progress)) ∧
        (k.st = .accepting → exec (.silenceTimeout c) s = .next (settle (s.dropConn c).progress)) ∧
        (k.st = .reclaiming → exec (.silenceTimeout c) s = .next (settle s.progress))) ∧
      (s.ran < k.lastHeard + 10000000 → exec (.silenceTimeout c) s = .next (settle s.progress))) ∧
    (∀ v : BitVec 32,
      (s.agentConns (bits v.toNat 31 20) (bits v.toNat 19 7) = [] → exec (.agentKill v) s = .next (settle s.progress)) ∧
      (s.agentConns (bits v.toNat 31 20) (bits v.toNat 19 7) = [(c, k)] →
        (k.active = true → exec (.agentKill v) s = .next (settle (s.declareDead c Reg.pgDeadKilled false false).progress)) ∧
        (k.st = .accepting → exec (.agentKill v) s = .next (settle (s.dropConn c).progress)) ∧
        (k.st = .reclaiming → exec (.agentKill v) s = .next (settle s.progress)))) ∧
    (k.st = .leaving → s.connAdmitted c = 0 → exec (.leavingDrained c) s = .next (settle (s.declareDead c Reg.pgLeft true false).progress)) ∧
    (k.st ≠ .leaving ∨ s.connAdmitted c ≠ 0 → exec (.leavingDrained c) s = .next (settle s.progress)) ∧
    (k.st = .reclaiming →
      let u := (((s.reclaimScan k.agent).onCoh fun x => { x with reclaims := x.reclaims.del k.agent }).bump Reg.dsReclaims).raise 272
      let accepted (t : State) : State := match (t.agentConns k.tenant k.agent).find? (·.2.st = .accepting) with
        | some (d, _) => (t.onConn d fun k => { k with st := .openC }).sendAccept d
        | none => t
      (∀ n id, k.left = true → k.leave = some (n, id) → exec (.reclaimComplete c) s = .next (settle (accepted
        ((u.sendUnseq c n { ty := 0x52, flags := BitVec.twoPow 12 fResp, opId := id }).dropConn c)).progress)) ∧
      (k.left = false → exec (.reclaimComplete c) s = .next (settle (accepted (u.dropConn c)).progress))) ∧
    (k.st ≠ .reclaiming → exec (.reclaimComplete c) s = .next (settle s.progress))

/-- JOIN (R91 to R93, Tables 3-9 and 3-11). -/
def Obligations.JoinHandling : Prop :=
  ∀ (s : State) (rx : Rx), s.Passes (asType 0x50 false rx) →
    let r := asType 0x50 false rx
    let u := s.counted r
    let f := r.f
    let n := beField f.payload 32 1
    let ten := f.tenant.toNat
    let mine := u.agentConns ten f.agent.toNat
    let refused (st : Status) (counter : Nat) : Prop := u.OnlySends (u.refuseJoin r st counter) ∧
      exec (.joinFrame rx) s = .next (settle (u.refuseJoin r st counter).progress)
    let formed : Prop := f.len = 40 ∧ f.payload.length = 40 ∧ 1 ≤ n ∧ n ≤ 8 ∧ f.path.toNat < n ∧ beField f.payload 33 7 = 0
    let served : Prop := u.boot.service ≠ .darkHold ∧ (u.boot.service = .greyscale →
      u.persisted ten = true ∧ (ten = 0 ∨ (u.boot.step ≠ .command ∧ u.boot.step ≠ .recovery)))
    let keyed : Prop := ∃ key, Tbl.get? u.net.joinKeys ten = some key ∧
      token key (beBytes 2 ten ++ beBytes 2 f.agent.toNat ++ beBytes 8 (beField f.payload 16 8)) = BitVec.ofNat 128 (beField f.payload 0 16)
    let fresh : Prop := u.now < beField f.payload 16 8
    let placed : Prop := if ten = 0 then u.role r.port = 0 else u.role r.port = 1
    let free : Prop := ∀ e ∈ u.net.conns, e.2.agent = f.agent.toNat → e.2.tenant = ten
    let room : Prop := u.net.conns.count (fun c _ => c != twinConn) < 8192
    (¬formed → refused .unsupported Reg.pgJoinBad) ∧
    (formed → ¬served → refused .held Reg.pgJoinHeld) ∧
    (formed → served → ¬(keyed ∧ fresh ∧ placed) → refused .denied Reg.pgJoinDenied) ∧
    (formed → served → keyed → fresh → placed → ¬free →
      exec (.joinFrame rx) s = .next (settle ((u.refuseJoin r .denied Reg.pgJoinDenied).bump Reg.pgJoinClash).progress)) ∧
    (formed → served → keyed → fresh → placed → free → ¬room → refused .busy Reg.pgJoinBusy) ∧
    (formed → served → keyed → fresh → placed → free → room →
      (mine = [] → exec (.joinFrame rx) s = .next (settle (u.newConn r .openC).progress)) ∧
      (∀ c k, mine = [(c, k)] →
        (k.st = .accepting → exec (.joinFrame rx) s = .next (settle (u.onConn c fun k => { k with lastHeard := u.ran }).progress)) ∧
        (k.st = .reclaiming → exec (.joinFrame rx) s = .next (settle (u.newConn r .accepting).progress)) ∧
        (k.active = true → k.nonce = BitVec.ofNat 64 (beField f.payload 24 8) →
          exec (.joinFrame rx) s = .next (settle (u.acceptAgain c r).progress)) ∧
        (k.active = true → k.nonce ≠ BitVec.ofNat 64 (beField f.payload 24 8) →
          exec (.joinFrame rx) s = .next (settle ((u.declareDead c Reg.pgRejoined false false).newConn r .accepting).progress))))

/-- HELLO (R86) and LEAVE (R90, Table 3-9). -/
def Obligations.HelloAndLeave : Prop :=
  ∀ (s : State) (c : Nat) (k : Conn) (rx : Rx), c ≠ twinConn →
    (∀ (row : Rx → Instr) (r : Rx), (row rx, r) ∈ [(.helloProbe rx, asFlag fProbe true (asType 0x53 false rx)),
        (.helloAnswer rx, asFlag fProbe true (asType 0x53 true rx)), (.hello rx, asFlag fProbe false (asType 0x53 false rx))] →
      s.Passes r → (s.counted r).OfConn c k r →
      let h := (s.counted r).heard c r
      let after (t : State) : State := if has r.f fUnseq then t else t.rxSeq c r
      (row rx = .helloProbe rx → ∀ k', h.conn? c = some k' →
        (k'.granted ≤ r.f.path.toNat → exec (.helloProbe rx) s = .next (settle (after (h.bump (Reg.portRxDropHdr (portPage r.port)))).progress)) ∧
        (r.f.path.toNat < k'.granted → h.stopping (portPage r.port) = true → exec (.helloProbe rx) s = .next (settle (after h).progress)) ∧
        (r.f.path.toNat < k'.granted → h.stopping (portPage r.port) = false → ∃ q : PathSt, q.live = true ∧ q.opened = true ∧ q.droppedAt = none ∧
          q.aip = r.src ∧ q.aport = r.sport ∧ q.dip = r.dst ∧ q.port = r.port ∧
          exec (.helloProbe rx) s = .next (settle (after ((h.onConn c fun k => { k with paths := k.paths.put r.f.path.toNat q }).sendUnseq c r.f.path.toNat
            (withFlag (withFlag { ty := 0x53, len := 16, payload := helloPayload h.now (beField r.f.payload 0 8) } fProbe) fResp))).progress))) ∧
      (row rx = .helloAnswer rx → (h.conn? c).any (fun k => (k.paths.getD r.f.path.toNat { }).opened) = true →
        exec (.helloAnswer rx) s = .next (settle (after (h.takeProbeAnswer c r)).progress)) ∧
      (row rx = .hello rx → exec (.hello rx) s = .next (settle (after h).progress))) ∧
    (let r := asType 0x52 false rx
     s.InTurn c k r → ∀ k', (s.turn c r).conn? c = some k' →
      (k'.st = .openC → k'.opPlace r.f.opId = .fresh → ∃ t : State, exec (.leave rx) s = .next (settle (t.done c r).progress) ∧
        t.conn? c = some { k'.noteOp r.f.opId with st := .leaving, leave := some (r.f.path.toNat, r.f.opId) } ∧
        t = { s.turn c r with net := { (s.turn c r).net with conns := t.net.conns } } ∧ ∀ d, d ≠ c → t.conn? d = (s.turn c r).conn? d) ∧
      (k'.st = .openC → k'.opPlace r.f.opId = .outside →
        exec (.leave rx) s = .next (settle (((s.turn c r).bump Reg.pgDupDropped).done c r).progress)) ∧
      (k'.st = .leaving → exec (.leave rx) s = .next (settle ((s.turn c r).closed c).progress)))

/-- The rows of plain accesses, atomics and coherence requests at admission (Table 3-7 step 11). -/
def Obligations.PlainRequests : Prop :=
  ∀ (s : State) (c : Nat) (k k' : Conn) (rx : Rx) (row : Instr) (r : Rx), c ≠ twinConn →
    (row, r) ∈ [(.read rx, asType 0x01 false rx), (.write rx, asFlag fCompress false (asType 0x02 false rx)),
      (.faddI32 rx, asAtomic 1 rx), (.faddI64 rx, asAtomic 2 rx), (.faddF32 rx, asAtomic 3 rx), (.atomicSwap rx, asAtomic 4 rx),
      (.atomicCas rx, asAtomic 5 rx), (.atomicSmin rx, asAtomic 6 rx), (.atomicSmax rx, asAtomic 7 rx), (.atomicUmin rx, asAtomic 8 rx),
      (.atomicUmax rx, asAtomic 9 rx), (.atomicAnd rx, asAtomic 10 rx), (.atomicOr rx, asAtomic 11 rx), (.atomicXor rx, asAtomic 12 rx),
      (.atomicBadOpcode rx, asAtomic (if 1 ≤ atomicOpcode rx.f && atomicOpcode rx.f ≤ 0x0C then 0 else atomicOpcode rx.f) rx),
      (.getS rx, asType 0x10 false rx), (.getM rx, asType 0x11 false rx), (.upgrade rx, asType 0x12 false rx),
      (.putM rx, asType 0x13 false rx), (.putO rx, asType 0x14 false rx), (.putE rx, asType 0x15 false rx)] →
    s.Request c k r → (s.asked c r).conn? c = some k' →
    let u := s.asked c r
    let f := r.f
    let off := offOf f.addr.toNat
    let coh := isCoh f.ty.toNat
    let after (t : State) : Host.Outcome State Fault Refusal := .next (settle (t.done c r).progress)
    let heldNow : Prop := u.boot.service = .darkHold ∨ (coh = true ∧ u.boot.service ≠ .full)
    (heldNow → exec row s = after (u.respond c f .held)) ∧
    (¬heldNow → wellFormed f = false → exec row s = after (u.respond c f .unsupported)) ∧
    (row = .atomicBadOpcode rx → wellFormed f = false) ∧
    (¬heldNow → wellFormed f = true →
      (devOf f.addr.toNat ≠ u.device → exec row s = after ((u.bump Reg.rootForeignAddr).respond c f .notPresent)) ∧
      (devOf f.addr.toNat = u.device →
        (u.accessHeld off = true → exec row s = after (u.respond c f .held)) ∧
        (u.accessHeld off = false →
          (∀ st, u.grantCheck k'.tenant off (spanOf f) (needsOf f) = some st → exec row s = after (u.respond c f st)) ∧
          (u.grantCheck k'.tenant off (spanOf f) (needsOf f) = none → (u.extent (extentOf off)).mirrored = true → coh = false →
            exec row s = after (u.takeMirrored c k'.tenant f)) ∧
          (u.grantCheck k'.tenant off (spanOf f) (needsOf f) = none → ((u.extent (extentOf off)).mirrored = false ∨ coh = true) →
            ((u.poolRefuses (homeDie off) k'.tenant).1 = true →
              exec row s = after ((u.poolRefuses (homeDie off) k'.tenant).2.respond c f .busy)) ∧
            ((u.poolRefuses (homeDie off) k'.tenant).1 = false →
              ∃ t : State, exec row s = after (t.startOp u.jobs.nextOp) ∧
                (t.op? u.jobs.nextOp).any (fun o => o.src = .agent && o.conn = c && decide (o.f = f) && o.tenant = k'.tenant && o.extent = extentOf off &&
                  o.half = homeDie off && o.left = linesOf off (spanOf f) && o.fence = has f fFence && !o.started && !o.finished) = true ∧
                (∀ j, j ≠ u.jobs.nextOp → t.op? j = u.op? j) ∧ t.store = (u.when (writesOf f) fun s => s.soil (extentOf off)).store ∧ t.coh = u.coh)))))

/-- COMPRESS writes (R275, R276, R282, R286). -/
def Obligations.CompressWrites : Prop :=
  ∀ (s : State) (c : Nat) (k k' : Conn) (rx : Rx), c ≠ twinConn →
    let r := asFlag fCompress true (asType 0x02 false rx)
    s.Request c k r → (s.asked c r).conn? c = some k' →
    let u := s.asked c r
    let f := r.f
    let off := offOf f.addr.toNat
    let n := leField f.payload 0 2 % 4096
    let fc := leField f.payload 2 1
    let x := Tbl.get? u.pal.slots n
    let after (t : State) : Host.Outcome State Fault Refusal := .next (settle (t.done c r).progress)
    (u.boot.service ≠ .full → exec (.compressWrite rx) s = after (u.respond c f .held)) ∧
    (u.boot.service = .full → (fmtOf fc).bind smodeOf = none → exec (.compressWrite rx) s = after (u.respond c f .unsupported)) ∧
    (u.boot.service = .full → ∀ fmt mode, fmtOf fc = some fmt → smodeOf fmt = some mode →
      let formed : Prop := f.len.toNat = 8 + fmt.rowBytes 512 ∧ f.payload.length = f.len.toNat ∧ n ≠ 0 ∧ off % 64 = 0 ∧ ∀ y, x = some y → y.smode = mode
      let grant := u.grantCheck k'.tenant off (frameSize mode (x.any (·.always))) { write := true }
      (¬formed → exec (.compressWrite rx) s = after (u.respond c f .unsupported)) ∧
      (formed →
        (devOf f.addr.toNat ≠ u.device → exec (.compressWrite rx) s = after ((u.bump Reg.rootForeignAddr).respond c f .notPresent)) ∧
        (devOf f.addr.toNat = u.device → u.accessHeld off = true → exec (.compressWrite rx) s = after (u.respond c f .held)) ∧
        (devOf f.addr.toNat = u.device → u.accessHeld off = false →
          (∀ st, grant = some st → exec (.compressWrite rx) s = after (u.respond c f st)) ∧
          (grant = none → u.serves (codecPage (homeDie off)) = false → exec (.compressWrite rx) s = after (u.respond c f .busy)) ∧
          (grant = none → u.serves (codecPage (homeDie off)) = true → (u.extent (extentOf off)).mirrored = true →
            exec (.compressWrite rx) s = after (u.takeMirrored c k'.tenant f)) ∧
          (grant = none → u.serves (codecPage (homeDie off)) = true → (u.extent (extentOf off)).mirrored = false →
            ((u.poolRefuses (homeDie off) k'.tenant).1 = true →
              exec (.compressWrite rx) s = after ((u.poolRefuses (homeDie off) k'.tenant).2.respond c f .busy)) ∧
            ((u.poolRefuses (homeDie off) k'.tenant).1 = false → ((u.compressFrame f).2.2.poolRefuses (homeDie off) k'.tenant).1 = false →
              let newest := (x.bind (·.newer)).map fun g => (g.num, g.lens)
              let block := (encodeBlock fmt fc newest n (x.any (·.always)) (f.payload.drop 8)).frame
              let i := (u.compressFrame f).2.2.jobs.nextOp
              ∃ t : State, exec (.compressWrite rx) s = after ((t.startOp i).onOp i fun o => { o with ref := newest.map fun g => { slot := n, gen := g.1 } }) ∧
                (t.op? i).any (fun o => o.src = .agent && o.conn = c && o.tenant = k'.tenant && o.extent = extentOf off && o.half = homeDie off &&
                  decide (o.f = { f with len := BitVec.ofNat 16 block.length, payload := block }) && o.fence = has f fFence && !o.started && !o.finished) = true)))))

/-- CTL_RD, CTL_WR (R38 to R41, R57, R58, R413), and frames of unknown types (R81). -/
def Obligations.ControlMessages : Prop :=
  ∀ (s : State) (c : Nat) (k k' : Conn) (rx r : Rx) (row : Instr), c ≠ twinConn →
    (row, r) ∈ [(.ctlRd rx, asType 0x30 false rx), (.ctlWr rx, asType 0x31 false rx),
      (.unknownType rx, if strayType rx.f.ty.toNat then rx else { rx with f := { rx.f with ty := 0xFF } })] →
    s.InTurn c k r → (∃ x, (s.turn c r).conn? c = some x ∧ x.st = .openC ∧ x.opPlace r.f.opId = .fresh) → (s.asked c r).conn? c = some k' →
    (s.asked c r).connAdmitted c < (s.asked c r).reg Reg.pgOpsMax → has r.f fResp = false →
    let u := s.asked c r
    let f := r.f
    let a := f.addr.toNat
    let n := f.len.toNat
    let page := a / 4096
    let off := a % 4096
    let after (t : State) : Host.Outcome State Fault Refusal := .next (settle (t.done c r).progress)
    let formed : Prop := a < 2 ^ 32 ∧ a % 4 = 0 ∧ n % 4 = 0 ∧ 4 ≤ n ∧ n ≤ 4096 ∧ off + n ≤ 4096 ∧ (row = .ctlWr rx → f.payload.length = n)
    let host : Prop := u.role r.port = 0 ∧ k'.tenant = 0
    let served : Prop := u.boot.step = .recovery → page = 0 ∨ page = 9
    (row = .unknownType rx → exec row s = after (u.respond c f .unsupported)) ∧
    (row ≠ .unknownType rx →
      (¬host → exec row s = after ((u.bump Reg.rootCtlBad).respond c f .denied)) ∧
      (host → ¬formed → exec row s = after ((u.bump Reg.rootCtlBad).respond c f .unsupported)) ∧
      (host → formed → ¬served → exec row s = after (u.respond c f .held)) ∧
      (host → formed → served → unitOf page = none → exec row s = after ((u.bump Reg.rootCtlBad).respond c f .notPresent)) ∧
      (host → formed → served → (unitOf page).isSome = true →
        (row = .ctlRd rx → exec row s = after ((u.readWords c page off (n / 4)).2.respond c f .ok (u.readWords c page off (n / 4)).1) ∧
          (∀ reg, n = 4 → findReg page off = some (reg, off) → reg.wide = false → isChannel page = false → (page, off) ≠ (0, 0x100) → (page, off) ≠ (0, 0x104) →
            u.readWords c page off 1 = (leBytes 4 (u.readReg page off % 2 ^ 32), u))) ∧
        (row = .ctlWr rx → u.present page = false → exec row s = after ((u.bump Reg.rootAbsentWrites).respond c f .ok)) ∧
        (row = .ctlWr rx → u.present page = true →
          let w := u.writeWords (some (c, f)) c page off f.payload (n / 4)
          exec row s = after ((if w.1.defer then w.2 else w.2.respond c f w.1.st).resetAsked w.1.reset))))

/-- INVAL (R193, R196), INVAL_ANSWER (R194), XLAT_APPLY (R178, R199). -/
def Obligations.Invalidations : Prop :=
  ∀ (s : State) (c : Nat) (k k' : Conn) (rx : Rx), c ≠ twinConn →
    let dropped (u t : State) (ten lo hi : Nat) : Prop :=
      (∀ e l, (e, l) ∈ t.xlat.tlbs ∨ (e, l) ∈ t.xlat.l2 → ∀ x ∈ l, ¬(x.tenant = ten ∧ x.va < hi ∧ lo < x.va + x.size)) ∧
      (∀ e l, (e, l) ∈ t.xlat.ptrs → ∀ x ∈ l, ¬(x.tenant = ten ∧ x.va < hi ∧ lo < x.va + x.size)) ∧
      (∀ e l, (e, l) ∈ u.xlat.tlbs → ∃ l', (e, l') ∈ t.xlat.tlbs ∧ ∀ x ∈ l, x.tenant ≠ ten → x ∈ l')
    (let r := asType 0x20 false rx
     s.Request c k r → (s.asked c r).conn? c = some k' →
      let u := s.asked c r
      let f := r.f
      let start := f.addr.toNat
      let len := beField f.payload 0 8
      let other := bit (beField f.payload 8 2) 0
      let ten := if other then beField f.payload 10 2 % 4096 else k'.tenant
      let lo := if len = 0 then 0 else start
      let hi := if len = 0 then 2 ^ 57 else start + len
      let after (t : State) : Host.Outcome State Fault Refusal := .next (settle (t.done c r).progress)
      let formed : Prop := f.len = 16 ∧ f.payload.length = 16 ∧ start % 4096 = 0 ∧ len % 4096 = 0 ∧ start < 2 ^ 57 ∧ start + len ≤ 2 ^ 57
      (u.boot.service = .darkHold → exec (.inval rx) s = after (u.respond c f .held)) ∧
      (u.boot.service ≠ .darkHold → ¬formed → exec (.inval rx) s = after (u.respond c f .unsupported)) ∧
      (u.boot.service ≠ .darkHold → formed → other = true → k'.tenant ≠ 0 → exec (.inval rx) s = after (u.respond c f .denied)) ∧
      (formed → (other = false ∨ k'.tenant = 0) →
        (u.boot.service = .greyscale → exec (.inval rx) s = after ((u.bump Reg.xlInvals).respond c f .ok)) ∧
        (u.boot.service = .full → ∃ t : State, exec (.inval rx) s = after (t.onXlat fun x =>
            { x with invals := x.invals.put x.nextInval { conn := c, f := f, since := t.ran, ops := t.usersOf ten lo hi, peers := t.peerUsersOf ten lo hi }, nextInval := x.nextInval + 1 }) ∧
          dropped u t ten lo hi))) ∧
    (s.clocked = true →
      (∀ i w, Tbl.get? s.xlat.invals i = some w →
        (s.invalHeld w = true → exec (.invalAnswer i) s = .next (settle s.progress)) ∧
        (s.invalHeld w = false → ∃ t : State, exec (.invalAnswer i) s = .next (settle (t.respond w.conn w.f .ok).progress) ∧
          Tbl.get? t.xlat.invals i = none ∧ t = { s with ctl := { s.ctl with regs := t.ctl.regs }, xlat := { s.xlat with invals := t.xlat.invals } } ∧
          (w.apply = false → t.reg Reg.xlInvals = satAdd 32 (s.reg Reg.xlInvals) 1) ∧ (w.apply = true → ∀ a, t.reg a = s.reg a))) ∧
      (let ten := s.reg Reg.xlXlatTenantSel % 4096
       let ctrl := ((Tbl.get? s.xlat.pendCtrl ten).getD 0).toNat
       let root := ((Tbl.get? s.xlat.pendRoot ten).getD 0).toNat
       let fits : Prop := bit ctrl 0 = true → 1 ≤ bits ctrl 12 8 ∧ bits ctrl 12 8 ≤ 18 ∧ devOf root = s.device
       (¬fits → exec .xlatApply s = .next (settle (s.setReg Reg.xlXlatResult Status.unsupported.code).progress)) ∧
       (fits → ∃ t : State, exec .xlatApply s = .next (settle (t.setReg Reg.xlXlatResult 0).progress) ∧ dropped s t ten 0 (2 ^ 57) ∧
         t.context ten = { en := bit ctrl 0, rootBits := bits ctrl 12 8, root := root / 4096 * 4096 } ∧ ∀ o, o ≠ ten → t.context o = s.context o)))

/-- WALK_START (R178, R181, R184, R185) and WALK_READ_DONE (R180, R181, R183). -/
def Obligations.Walks : Prop :=
  ∀ (s : State) (n : Nat) (w : Walk), s.clocked = true → s.walk? n = some w →
    let ok (t : State) : Host.Outcome State Fault Refusal := .next (settle t.progress)
    let c := s.context w.tenant
    (∀ h, (s.xlat.walks.find? fun e => !e.2.started && e.2.half = h && s.walkerFree e.2) = some (n, w) →
      let v := s.bump (Reg.xlWalks (xlatPage w.half))
      let hits := (Tbl.getD s.xlat.ptrs w.half []).filter fun p => p.tenant = w.tenant && p.va ≤ w.va && w.va < p.va + p.size
      (c.en = false → exec (.walkStart h) s = ok (w.waiters.foldl (fun t q => t.noRoot q.job) (s.endWalk n))) ∧
      (c.en = true → 2 ^ (39 + c.rootBits) ≤ w.va → exec (.walkStart h) s = ok (v.walkFault n 1 1)) ∧
      (c.en = true → w.va < 2 ^ (39 + c.rootBits) → devOf c.root ≠ s.device → exec (.walkStart h) s = ok (v.walkFault n 3 1)) ∧
      (c.en = true → w.va < 2 ^ (39 + c.rootBits) → devOf c.root = s.device → ∃ level table : Nat,
        exec (.walkStart h) s = ok (v.onWalk n fun w => { w with started := true, level := level, table := table }) ∧
        (hits = [] → level = 1 ∧ table = c.root) ∧
        (hits ≠ [] → ∃ p ∈ hits, level = p.level + 1 ∧ table = p.table ∧ ∀ q ∈ hits, q.level ≤ p.level))) ∧
    (∀ h, (s.xlat.walks.find? fun e => !e.2.started && e.2.half = h && s.walkerFree e.2) = none → exec (.walkStart h) s = ok s) ∧
    (∀ i o, w.reading = some i → s.op? i = some o →
      (o.finished = false → exec (.walkReadDone n) s = ok s) ∧
      (o.finished = true →
        let v := s.onJobs fun j => { j with ops := j.ops.del i }
        let e := leNat o.bytes
        let leaf := bit e 1
        let table := e / 4096 * 4096
        let size := if w.level = 4 && bit e 5 then 65536 else levelSize w.level
        let shape : Prop := (leaf = true → w.level ≠ 1) ∧ (leaf = false → w.level ≠ 4)
        (o.status ≠ .ok → exec (.walkReadDone n) s = ok (v.walkFault n 5 w.level)) ∧
        (o.status = .ok → bit e 0 = false → exec (.walkReadDone n) s = ok (v.walkFault n 1 w.level)) ∧
        (o.status = .ok → bit e 0 = true → ¬shape → exec (.walkReadDone n) s = ok (v.walkFault n 3 w.level)) ∧
        (o.status = .ok → bit e 0 = true → shape → leaf = false →
          (devOf table ≠ s.device → exec (.walkReadDone n) s = ok (v.walkFault n 3 w.level)) ∧
          (devOf table = s.device → ∃ t : State, exec (.walkReadDone n) s = ok t ∧
            t.walk? n = some { w with level := w.level + 1, table := table, reading := none } ∧
            (∃ p ∈ Tbl.getD t.xlat.ptrs w.half [], p = { tenant := w.tenant, level := w.level, va := w.va / levelSize w.level * levelSize w.level, size := levelSize w.level, table := table }))) ∧
        (o.status = .ok → bit e 0 = true → shape → leaf = true →
          (table % size ≠ 0 → exec (.walkReadDone n) s = ok (v.walkFault n 3 w.level)) ∧
          (table % size = 0 → exec (.walkReadDone n) s = ok (v.walkEnd n { tenant := w.tenant, va := w.va / size * size, size := size, pa := table, read := bit e 2, write := bit e 3, atomic := bit e 4 } w.level))))) ∧
    (w.reading = none → w.started = false → exec (.walkReadDone n) s = ok s) ∧
    (w.reading = none → w.started = true →
      let off := offOf (w.table + 8 * walkIndex c.rootBits w.level w.va)
      let v := s.bump (Reg.xlWalkReads (xlatPage w.half))
      (v.grantCheck 0 off 8 { read := true }).isSome = true → (v.grantCheck w.tenant off 8 { read := true }).isSome = true →
        exec (.walkReadDone n) s = ok (v.walkFault n 5 w.level))

/-- FAULT_BATCH_CLOSE (R188), FAULT_RESUME (R190), FAULT_LIMIT_CHECK (R191). -/
def Obligations.FaultBatches : Prop :=
  ∀ (s : State), s.clocked = true →
    let ok (t : State) : Host.Outcome State Fault Refusal := .next (settle t.progress)
    (∀ slot b, Tbl.get? s.xlat.batches slot = some b →
      (b.st = .collecting → b.firstAt + bits (s.reg Reg.xlFaultCtrl) 7 0 * 1000 ≤ s.ran → exec (.faultBatchClose slot) s =
        ok ((s.onXlat fun x => { x with batches := x.batches.put slot { b with st := .closed, closedAt := s.now } }).raise 280
          { arg0 := batchId slot b + b.tenant * 65536, arg1 := b.recs.length })) ∧
      (b.st ≠ .collecting ∨ s.ran < b.firstAt + bits (s.reg Reg.xlFaultCtrl) 7 0 * 1000 → exec (.faultBatchClose slot) s = ok s)) ∧
    (∀ (id : BitVec 16) (action : Nat),
      let slot := id.toNat % 1024
      let named : Prop := ∃ b, Tbl.get? s.xlat.batches slot = some b ∧ b.st = .closed ∧ b.gen % 64 = id.toNat / 1024 % 64
      let bad (st : Status) := ok ((s.bump Reg.xlResumeBad).setReg Reg.xlFaultResumeStat st.code)
      (¬named → exec (.faultResumeRetry id) s = bad .notPresent ∧ exec (.faultResumeAbort id) s = bad .notPresent ∧
        exec (.faultResumeBadAction id action) s = bad .notPresent) ∧
      (named → exec (.faultResumeRetry id) s = ok (((s.rewalk fun p => p.slot == some slot).freeSlot slot).setReg Reg.xlFaultResumeStat 0) ∧
        exec (.faultResumeAbort id) s = ok (((((s.xlat.parked.filter fun p => p.slot == some slot).map (·.who.job)).foldl (fun s i => s.faultJob i) s).freeSlot slot).setReg Reg.xlFaultResumeStat 0) ∧
        exec (.faultResumeBadAction id action) s = bad .unsupported)) ∧
    exec .faultLimitCheck s = ok ((s.xlat.parked.filter fun p => !p.walking && p.since + bits (s.reg Reg.xlFaultCtrl) 27 16 * 1000000 ≤ s.now / 1000000 * 1000000).foldl
      (fun s p => s.faultJob p.who.job) s) ∧
    (∀ (t : State) i j, Tbl.get? t.jobs.jobs i = some j →
      let counts : Prop := j.ty ≠ 0 ∧ ¬(j.phase = .done ∧ j.status = .faulted)
      (j.stopped = none → counts → t.faultJob i = ((t.bump Reg.xlFaultedJobs).raiseQuiet 281).stopJob i .faulted) ∧
      (j.stopped = none → ¬counts → t.faultJob i = t.stopJob i .faulted) ∧ (j.stopped ≠ none → t.faultJob i = t))

/-- INV_ACK, FWD_DONE, RECALL_ACK, NO_DATA and DATA (R149), RECV_DONE (R145), a direct DATA (R151). -/
def Obligations.HomeAnswers : Prop :=
  ∀ (s : State) (c : Nat) (k k' : Conn) (rx r : Rx) (row : Instr), c ≠ twinConn →
    (let u := s.turn c r
     let id := r.f.opId.toNat
     let data := slice r.f.payload 0 64
     let after (t : State) : Host.Outcome State Fault Refusal := .next (settle (t.closed c).progress)
     (row, r) ∈ [(.invAck rx, asAck 1 true rx), (.fwdDone rx, asAck 2 true rx), (.recallAck rx, asAck 4 true rx), (.noData rx, asAck 5 true rx),
        (.dataAnswer rx, asFlag fUnseq false (asType 0x1A true rx))] →
      s.InTurn c k r → u.conn? c = some k' →
      (u.findMsg id = none → (∀ e ∈ u.coh.loose, e.2.opId ≠ id) → exec row s = after u) ∧
      (∀ line m, u.findMsg id = some (line, m) →
        (m.target ≠ k'.agent → exec row s = after (u.protoErr line)) ∧
        (m.target = k'.agent →
          let answered (t : State) := after (State.run ((t.markAnswered line id).advance line))
          let lost := after (State.run ((u.protoErr line).txnAsh line 3 k'.agent))
          let fwd : Prop := m.kind = .fwdS ∨ m.kind = .fwdM
          (row = .invAck rx → (m.kind = .inv → exec row s = answered u) ∧ (m.kind ≠ .inv → exec row s = after (u.protoErr line))) ∧
          (row = .fwdDone rx →
            (fwd → exec row s = after (State.run (((u.markAnswered line id).onTxn line fun t => { t with fwdDone := true, fwdDoneAt := some u.ran }).advance line))) ∧
            (¬fwd → exec row s = after (u.protoErr line))) ∧
          (row = .recallAck rx → (m.kind = .recall → exec row s = answered u) ∧ (m.kind = .fetch → exec row s = lost) ∧
            (m.kind ≠ .recall → m.kind ≠ .fetch → exec row s = after (u.protoErr line))) ∧
          (row = .noData rx → (fwd ∨ m.kind = .fetch → exec row s = lost) ∧ (¬fwd → m.kind ≠ .fetch → exec row s = after (u.protoErr line))) ∧
          (row = .dataAnswer rx →
            (m.kind = .recall → exec row s = answered (u.writeInLine (line * 64) data)) ∧
            (m.kind = .fetch → exec row s = answered ((u.writeInLine (line * 64) data).onTxn line fun t => { t with got := some data })) ∧
            (m.kind ≠ .recall → m.kind ≠ .fetch → exec row s = after (u.protoErr line)))))) ∧
    (let r := asAck 3 false rx
     let u := s.turn c r
     let after (t : State) : Host.Outcome State Fault Refusal := .next (settle (t.closed c).progress)
     let waits (e : Nat × DirEntry) : Bool := e.2.txn.any fun t => t.kind = .forwarding && (u.op? t.req.op).any fun o => o.conn = c && o.f.opId = r.f.opId
     s.InTurn c k r →
      ((∀ e ∈ u.coh.dir, waits e = false) → exec (.recvDone rx) s = after u) ∧
      (∀ e ∈ u.coh.dir, waits e = true → ∃ line, (∃ x ∈ u.coh.dir, x.1 = line ∧ waits x = true) ∧
        exec (.recvDone rx) s = after (State.run ((u.onTxn line fun t => { t with recvDone := true }).advance line)))) ∧
    (let r := (fun rx : Rx => { rx with f := { rx.f with conn := 0xFFFFFF } }) (asFlag fUnseq true (asType 0x1A true rx))
     let u := s.counted r
     let after (t : State) : Host.Outcome State Fault Refusal := .next (settle t.progress)
     let waits (e : Nat × DirEntry) : Bool := e.2.txn.any fun t => t.kind = .forwarding && t.selfFwd = some r.f.opId.toNat
     s.Passes r → (s.role r.port = 2 → r.f.ty ≠ 0x60) →
      (r.f.incarn ≠ u.boot.incarn → exec (.directData rx) s = after (u.sendStale r)) ∧
      (r.f.incarn = u.boot.incarn →
        ((∀ e ∈ u.coh.dir, waits e = false) → exec (.directData rx) s = after u) ∧
        (∀ e ∈ u.coh.dir, waits e = true → ∃ line, (∃ x ∈ u.coh.dir, x.1 = line ∧ waits x = true) ∧
          exec (.directData rx) s = after (State.run ((u.onTxn line fun t => { t with recvDone := true, got := some (slice r.f.payload 0 64) }).closeTxn line)))))

/-- FWD_WAIT_EXPIRY (R148), COH_WAIT_EXPIRY (R152), CLEAR_ASH (R160), REHOME_WINDOW_CLOSE (R170, R171), messages on a peer
connection (R135). -/
def Obligations.CoherenceWaits : Prop :=
  ∀ s : State, s.clocked = true →
    let ok (t : State) : Host.Outcome State Fault Refusal := .next (settle t.progress)
    (∀ line t, (s.entry line).txn = some t →
      let due : Prop := ∃ at_, t.fwdDoneAt = some at_ ∧ t.kind = .forwarding ∧ t.recvDone = false ∧ at_ + bits (s.reg Reg.dsCohCtrl) 7 0 * 10000 ≤ s.ran
      (due → exec (.fwdWaitExpiry line) s = ok (State.run (s.startFetch line))) ∧ (¬due → exec (.fwdWaitExpiry line) s = ok s)) ∧
    (∀ line, (s.entry line).txn = none → exec (.fwdWaitExpiry line) s = ok s) ∧
    (∀ line op, let e := s.entry line
      let due (r : LineReq) : Prop := r.op = op ∧ r.at_ + bits (s.reg Reg.dsCohCtrl) 23 16 * 1000000 ≤ s.ran
      (∀ r ∈ e.queue, due r → ∃ r', r' ∈ e.queue ∧ due r' ∧ exec (.cohWaitExpiry line op) s =
        ok ((((s.setEntry line { e with queue := e.queue.filter (· != r') }).bump (Reg.dsCohTimeouts (linePage line))).raiseQuiet 275).opLine op line .timeout [])) ∧
      ((∀ r ∈ e.queue, ¬due r) → exec (.cohWaitExpiry line op) s = ok s)) ∧
    (let a := s.reg Reg.dsAshClrAddr
     let n := s.reg Reg.dsAshClrLines
     let good : Prop := a % 64 = 0 ∧ a < 2 ^ 48 ∧ 1 ≤ n ∧ n ≤ 16384 ∧ s.placed a = true ∧ extentOf a = extentOf (a + 64 * n - 1)
     (¬good → exec .clearAsh s = ok (s.setReg Reg.dsAshClrStat (Status.unsupported.code * 2 ^ 8))) ∧
     (good → let hit := (s.coh.dir.filter fun e => a / 64 ≤ e.1 && e.1 < a / 64 + n && e.2.st = .ash).map (·.1)
      exec .clearAsh s = ok ((hit.foldl (fun s line => (s.leaveAsh line).writeInLine (line * 64) (List.replicate 64 0)) s).setReg Reg.dsAshClrStat (hit.length * 2 ^ 16)))) ∧
    (s.coh.rehomeSt = .opened → s.coh.rehomeAt + 50000000 ≤ s.ran → ∃ t : State, exec .rehomeWindowClose s = ok (t.raise 274) ∧
      t.coh.rehomeSt = .closed ∧ t.coh.forcedHold = false ∧ t.reg Reg.dsRehomeAsh = (s.coh.dir.filter fun e => e.2.st = .rhm).length % 2 ^ 64 ∧
      t.store.mem = s.store.mem ∧ t.net = s.net ∧ t.jobs = s.jobs) ∧
    (s.coh.rehomeSt ≠ .opened ∨ s.ran < s.coh.rehomeAt + 50000000 → exec .rehomeWindowClose s = ok s) ∧
    (∀ (k : Nat) (f : Frame), let alive : Prop := (s.peer k).st = .opened ∨ (s.peer k).st = .closing
      let ack (kind : Nat) : Frame := { ty := 0x1B, flags := BitVec.twoPow 12 fResp, opId := f.opId, addr := f.addr &&& ~~~ 0x3F#64 ||| BitVec.ofNat 64 kind }
      (alive → exec (.peerInv k f) s = ok (s.sendPeer k (ack 1)) ∧ exec (.peerRecall k f) s = ok (s.sendPeer k (ack 4)) ∧
        exec (.peerFwd k f) s = ok (s.sendPeer k (ack 5))) ∧
      (¬alive → exec (.peerInv k f) s = ok s ∧ exec (.peerRecall k f) s = ok s ∧ exec (.peerFwd k f) s = ok s))

/-- GRANT, REVOKE, RELEASE, ADD_RIGHTS, SET_DRILL and an unused CMD (R114, R382, R383). -/
def Obligations.ExtentCommands : Prop :=
  ∀ s : State, s.clocked = true → s.present (tmPage 0) = true →
    let e := s.reg Reg.tmExtSel % 2 ^ 17
    let arg := s.reg Reg.tmExtArg
    let x := s.extent e
    let ok (t : State) : Host.Outcome State Fault Refusal := .next (settle t.progress)
    let result (st : Status) (t : State) := ok ((if st = .ok then t.leaseSync e else t).setReg Reg.tmExtStat (st.code * 256))
    let carried : Prop := x.mirrored = true ∧ x.st ≠ .free
    let rows : List (Instr × Nat) := [(.grant, 1), (.revoke, 2), (.release, 3), (.addRights, 4), (.setDrill, 5)]
    (∀ row cmd, (row, cmd) ∈ rows → ¬carried → (cmd = 1 → arg.testBit 18 = false) →
      exec row s = result (s.extLocal cmd e arg).1 (s.extLocal cmd e arg).2 ∧
      ((s.extLocal cmd e arg).1 ≠ .ok → (s.extLocal cmd e arg).2.store.extents = s.store.extents)) ∧
    (∀ row cmd, (row, cmd) ∈ rows → (carried ∨ (cmd = 1 ∧ arg.testBit 18 = true)) → (s.extLocal cmd e arg).1 = .ok →
      let lease := (Tbl.get? s.twin.leases e).map fun l => l.st
      (lease = some .lost ∨ (lease ≠ some .solo ∧ s.twinOpen = false) → exec row s = ok (s.setReg Reg.tmExtStat (Status.busy.code * 256))) ∧
      (lease ≠ some .lost → lease ≠ some .solo → s.twinOpen = true → exec row s = ok (State.sendTwin (s.onTwin fun t =>
        { t with carried := t.carried ++ [{ extent := e, cmd := cmd, arg := arg, wait := none }] })
        (twinFrame 0x50 e (s.lease e).gen 0 0 noKey 0 (beBytes 1 cmd ++ [0, 0, 0] ++ beBytes 4 arg))))) ∧
    (let new := argExtent arg x
     let fill : Prop := x.st = .free ∧ x.clean = false ∧ x.filling = false
     (new.tenant = bits arg 11 0 ∧ new.read = bit arg 12 ∧ new.write = bit arg 13 ∧ new.atomic = bit arg 14 ∧ new.cache = bit arg 15 ∧
       new.mirrored = bit arg 18 ∧ new.drillOk = bit arg 19 ∧ new.policy = bits arg 21 20 ∧ new.st = .granted ∧ new.clean = x.clean ∧ new.filling = x.filling) ∧
     (x.st = .free ∨ x.st = .revoked → arg.testBit 18 = false → (bits arg 21 20 = 0 ∨ 16384 ≤ e) →
       s.tierReady e = true → s.backed e = true → (fill → s.boot.service = .full) →
       (16384 ≤ e → x.st = .free → s.blendedHeld < s.reg Reg.tmBlendedMax) → (fill → e < 16384 → s.extActive < 64) →
       (x.st = .revoked ∧ x.tenant = new.tenant) ∨ s.extRoom e new.tenant = true →
       (s.extLocal 1 e arg).1 = .ok ∧
       (fill → (s.extLocal 1 e arg).2 = (s.onExtent e fun _ => new).startFill e) ∧ (¬fill → (s.extLocal 1 e arg).2 = s.onExtent e fun _ => new))) ∧
    (x.st = .granted → (64 ≤ s.extActive → x.filling = true) →
      s.extLocal 2 e arg = (.ok, State.recallLines ((s.onExtent e fun x => { x with st := .revoking }).onStore fun st =>
        { st with revs := st.revs.put e { tO := some (s.ran + (s.onExtent e fun x => { x with st := .revoking }).reg Reg.tmRevokeTimeout * 1000000) } })
        .revoke fun line x => extentOf (line * 64) = e && x.pendingHolders)) ∧
    (x.st = .revoked → s.boot.service = .full → (e < 16384 → 64 ≤ s.extActive → x.filling = true) →
      s.extLocal 3 e arg = (.ok, (s.onExtent e fun x => { filling := x.filling, clean := x.clean }).startFill e)) ∧
    (x.st = .granted → (x.mirrored = true → arg.testBit 15 = true → x.cache = true) →
      s.extLocal 4 e arg = (.ok, s.onExtent e fun x => { x with read := x.read || bit arg 12, write := x.write || bit arg 13, atomic := x.atomic || bit arg 14, cache := x.cache || bit arg 15 })) ∧
    (x.st = .granted ∨ x.st = .revoked → s.extLocal 5 e arg = (.ok, s.onExtent e fun x => { x with drillOk := bit arg 19 })) ∧
    (∀ cmd, cmd % 8 = 0 ∨ 6 ≤ cmd % 8 → exec (.extCmdUnused cmd) s = ok (s.setReg Reg.tmExtStat (Status.unsupported.code * 256)))

/-- The two writers of memory and its reads (R102); what memory reads as at reset is the model's choice (log entry 7). -/
def Obligations.StoreMemory : Prop :=
  (∀ (s : State) (a : Nat) (bs : List Byte), Memory.wf s.store.mem = true →
    Memory.wf (s.poke a bs).store.mem = true ∧ ∀ lo hi, Memory.wf (s.zero lo hi).store.mem = true) ∧
  (∀ (s : State) (a x : Nat) (bs : List Byte),
    (∀ i, i < bs.length → (s.poke a bs).byte (a + i) = bs.getD i 0) ∧ (x < a ∨ a + bs.length ≤ x → (s.poke a bs).byte x = s.byte x)) ∧
  (∀ (s : State) (lo hi x : Nat), (lo ≤ x → x < hi → (s.zero lo hi).byte x = 0) ∧ (x < lo ∨ hi ≤ x → (s.zero lo hi).byte x = s.byte x)) ∧
  (∀ (s : State) (a n : Nat), (s.bytes a n).length = n ∧ ∀ i, i < n → (s.bytes a n).getD i 0 = s.byte (a + i)) ∧
  Memory.wf State.reset.store.mem = true ∧ ∀ a, State.reset.byte a = 0

/-- ZERO_FILL_DONE (R115), REVOKE_COMPLETE and REVOKE_TIMEOUT (R119), QUOTA_NEAR and QUOTA_BULK (R121). -/
def Obligations.ExtentTimers : Prop :=
  ∀ s : State, s.clocked = true →
    let ok (t : State) : Host.Outcome State Fault Refusal := .next (settle t.progress)
    (∀ e, (s.extent e).filling = true → s.boot.service = .full → ∃ t : State, exec (.zeroFillDone e) s = ok t ∧
      t.extent e = { s.extent e with filling := false, clean := true } ∧ (∀ e', e' ≠ e → t.extent e' = s.extent e') ∧
      (∀ a, e * 2 ^ 30 ≤ a → a < (e + 1) * 2 ^ 30 → t.byte a = 0) ∧
      (∀ a, a < e * 2 ^ 30 ∨ (e + 1) * 2 ^ 30 ≤ a → t.byte a = s.byte a) ∧
      (∀ l ∈ t.store.flawed, extentOf (l.1 * 64) ≠ e) ∧ t.ev.counts.getD 200 0 = min (s.ev.counts.getD 200 0 + 1) 0xFFFF) ∧
    (∀ e, (s.extent e).filling = false ∨ s.boot.service ≠ .full → exec (.zeroFillDone e) s = ok s) ∧
    (∀ e r, s.store.revs.get? e = some r → s.admitted e = 0 → (∀ x ∈ s.coh.dir, extentOf (x.1 * 64) = e → x.2.pendingHolders = false) →
      (r.tO.isSome = true ∨ s.coh.rehomeSt ≠ .awaiting ∧ s.coh.rehomeSt ≠ .opened) → ∃ t : State, exec (.revokeComplete e) s = ok t ∧
      t.extent e = { s.extent e with st := .revoked } ∧ (∀ e', e' ≠ e → t.extent e' = s.extent e') ∧ t.store.revs.get? e = none ∧
      t.store.mem = s.store.mem ∧ t.ev.counts.getD 200 0 = min (s.ev.counts.getD 200 0 + 1) 0xFFFF) ∧
    (∀ e, s.store.revs.get? e = none ∨ 0 < s.admitted e → exec (.revokeComplete e) s = ok s) ∧
    (∀ e r at_, s.store.revs.get? e = some r → r.tO = some at_ →
      (at_ ≤ s.ran → ∃ t : State, exec (.revokeTimeout e) s = ok t ∧ (t.extent e).st = .revoked ∧ t.store.revs.get? e = none) ∧
      (s.ran < at_ → exec (.revokeTimeout e) s = ok s)) ∧
    (let sel := s.reg Reg.tmQuotaSel % 4096
     ∀ v : BitVec 32, let n := v.toNat % 2 ^ 20
      (n = 0xFFFFF ∨ n ≤ s.nearExtents → ∃ t : State, exec (.quotaNear v) s = .next (settle t) ∧ t.quota sel = { s.quota sel with near := n } ∧
        ∀ k, k ≠ sel → t.quota k = s.quota k) ∧
      (n ≠ 0xFFFFF → s.nearExtents < n → exec (.quotaNear v) s = .next (settle s)) ∧
      (n = 0xFFFFF ∨ s.bulkExtents = 0 ∨ n ≤ s.bulkExtents → ∃ t : State, exec (.quotaBulk v) s = .next (settle t) ∧ t.quota sel = { s.quota sel with bulk := n } ∧
        ∀ k, k ≠ sel → t.quota k = s.quota k) ∧
      (n ≠ 0xFFFFF → s.bulkExtents ≠ 0 → s.bulkExtents < n → exec (.quotaBulk v) s = .next (settle s)))

/-- TIER_WINDOW_END (R124), MOVE_COPY_PASS_DONE (R32, R126), MOVE_SOURCE_FREE (R33), UNMUTE_DONE (R127, R285), SCRUB_PASS (R112)
and CORRECTED_WRITEBACK (R110). -/
def Obligations.TierRows : Prop :=
  ∀ s : State, s.clocked = true →
    let ok (t : State) : Host.Outcome State Fault Refusal := .next (settle t.progress)
    (∀ d, let due : Prop := s.boot.service = .full ∧ s.store.windowAt.getD d 0 + s.reg Reg.tmWindow % 1024 * 1000000 ≤ s.ran ∧ s.serves (tmPage d) = true
      (due → ∃ t : State, exec (.tierWindowEnd d) s = ok t ∧ t.store.windowAt = s.store.windowAt.set d s.ran ∧
        (∀ k, tileDie k = d → (t.tile k).accesses = 0) ∧
        t.store.moves.length ≤ s.store.moves.length + s.reg Reg.tmMoveBudget % 65536 ∧
        ((s.reg Reg.tmMigrateCtrl).testBit 0 = false → t.store.moves = s.store.moves ∧
          (∀ k, tileDie k ≠ d → t.tile k = s.tile k) ∧
          ∀ k, tileDie k = d → (s.tile k).tier ≠ .unbacked → t.tile k = { s.tile k with
            seen := min ((s.tile k).seen + 1) 2, idle := if (s.tile k).accesses = 0 then min ((s.tile k).idle + 1) 16 else 0, accesses := 0 })) ∧
      (¬due → exec (.tierWindowEnd d) s = ok s)) ∧
    (∀ k m, s.store.moves.get? k = some m → m.cause ≠ .unmute → s.boot.service = .full →
      let r := (s.readTile k).2
      ((s.readTile k).1 = false → exec (.moveCopyPassDone k) s =
        ok (((r.bump (Reg.tmMoveAbandoned (tmPage (tileDie k)))).raise (tierSource (tileDie k))).endMove k m .failed)) ∧
      ((s.readTile k).1 = true → m.marked ≠ [] → exec (.moveCopyPassDone k) s =
        ok (r.onStore fun st => { st with moves := st.moves.put k { m with pass := m.pass + 1, marked := [] } })) ∧
      ((s.readTile k).1 = true → m.marked = [] → m.target ≠ .muted → (r.tile k).tier ≠ .muted →
        exec (.moveCopyPassDone k) s = ok (((r.switchTile k m).countMove k m (r.tile k).tier).endMove k m .moved) ∧
        ((r.switchTile k m).tile k).tier = m.target ∧ ((r.switchTile k m).tile k).location = m.location ∧ ((r.switchTile k m).tile k).moving = false) ∧
      ((s.readTile k).1 = true → m.marked = [] → m.target ≠ .muted → (r.tile k).tier = .muted →
        exec (.moveCopyPassDone k) s = match unmuteTile (r.tile k).coded with
          | some bs => ok ((((r.poke (k * 65536) bs).switchTile k m).countMove k m .muted).endMove k m .moved)
          | none => ok ((r.decodeFails k).endMove k m .failed)) ∧
      ((s.readTile k).1 = true → m.marked = [] → m.target = .muted → (r.tile k).tier ≠ .muted →
        (muteSectors (r.tileBytes k) = m.sectors → exec (.moveCopyPassDone k) s = ok (((r.switchTile k m).countMove k m (r.tile k).tier).endMove k m .moved)) ∧
        (muteSectors (r.tileBytes k) ≠ m.sectors → 15 < muteSectors (r.tileBytes k) → exec (.moveCopyPassDone k) s =
          ok ((r.bump (Reg.tmMuteNoGain (tmPage (tileDie k)))).endMove k m .noGain)))) ∧
    (∀ k, s.store.moves.get? k = none ∨ s.boot.service ≠ .full → exec (.moveCopyPassDone k) s = ok s) ∧
    (∀ k, ∃ t : State, exec (.moveSourceFree k) s = ok t ∧ (∀ j, j ≠ k → t.store.freeing.getD j [] = s.store.freeing.getD j []) ∧
      t.store.freeing.getD k [] = (s.store.freeing.getD k []).filter fun x => x.ops.any fun i => (s.op? i).any fun o => !o.finished) ∧
    (∀ k dec m g, s.store.moves.get? k = some m → m.cause = .unmute → s.boot.service = .full → m.codec = some g →
      let r := (s.readTile k).2
      ((s.readTile k).1 = false → exec (.unmuteDone k dec) s =
        ok (((r.bump (Reg.tmMoveAbandoned (tmPage (tileDie k)))).raise (tierSource (tileDie k))).endMove k m .failed)) ∧
      ((s.readTile k).1 = true → dec = false → exec (.unmuteDone k dec) s = ok ((r.decodeFails k).endMove k m .failed) ∧
        ((r.decodeFails k).tile k).bad = true) ∧
      ((s.readTile k).1 = true → dec = true → (r.tile k).tier = .muted → exec (.unmuteDone k dec) s = match unmuteTile (r.tile k).coded with
          | some bs => ok ((((r.poke (k * 65536) bs).switchTile k m).countMove k m .muted).endMove k m .moved)
          | none => ok ((r.decodeFails k).endMove k m .failed))) ∧
    (∀ k dec, s.store.moves.get? k = none ∨ s.boot.service ≠ .full → exec (.unmuteDone k dec) s = ok s) ∧
    (∀ page, let due : Prop := isChannel page = true ∧ (s.reg Reg.tmScrubCtrl).testBit 0 = true ∧ s.boot.service = .full ∧ (s.channel page).trained = true ∧
        s.serves page = true ∧ (s.channel page).scrubAt + bits (s.reg Reg.tmScrubCtrl) 15 8 * 3600000000000 ≤ s.ran
      (due → ∃ t : State, exec (.scrubPass page) s = ok (t.bump (Reg.chScrubPasses page)) ∧ (t.channel page).scrubAt = s.ran ∧ t.store.mem = s.store.mem ∧
        ∀ l ∈ t.store.flawed, l ∈ s.store.flawed) ∧
      (¬due → exec (.scrubPass page) s = ok s)) ∧
    (∀ line, (line ∈ s.store.corrected → ∃ t : State, exec (.correctedWriteback line) s = ok t ∧ t.store.flawed.get? line = none ∧ line ∉ t.store.corrected ∧ t.store.mem = s.store.mem) ∧
      (line ∉ s.store.corrected → exec (.correctedWriteback line) s = ok s))

/-- The rows of BULK and JOB (R202 to R208, Table 7-3). -/
def Obligations.JobAdmission : Prop :=
  let rows : List ((Rx → Instr) × (Rx → Rx) × Nat × Bool) :=
    [(.bulkFill, asJob 4 1, 1, true), (.bulkCopy, asJob 4 2, 2, true), (.bulkCompare, asJob 4 3, 3, true), (.bulkReduce, asJob 4 4, 4, true),
     (.tierPolicy, asJob 5 0x10, 0x10, false), (.recode, asJob 5 0x11, 0x11, false), (.matmul, asJob 5 0x100, 0x100, false), (.convert, asJob 5 0x101, 0x101, false),
     (.sessionOpen, asJob 5 0x200, 0x200, false), (.sessionClose, asJob 5 0x201, 0x201, false), (.kvAppend, asJob 5 0x202, 0x202, false),
     (.attend, asJob 5 0x203, 0x203, false), (.wake, asJob 5 0x204, 0x204, false), (.sleep, asJob 5 0x205, 0x205, false),
     (.tableOpen, asJob 5 0x300, 0x300, false), (.tableVersion, asJob 5 0x301, 0x301, false), (.tableClose, asJob 5 0x302, 0x302, false),
     (.gather, asJob 5 0x310, 0x310, false), (.mergeUpdate, asJob 5 0x311, 0x311, false), (.collOpen, asJob 5 0x400, 0x400, false),
     (.collClose, asJob 5 0x401, 0x401, false), (.insertJob, asJob 5 0x402, 0x402, false), (.deleteJob, asJob 5 0x403, 0x403, false),
     (.searchJob, asJob 5 0x404, 0x404, false), (.mergeColl, asJob 5 0x405, 0x405, false), (.mergeResume, asMergeAct 0, 0x406, false), (.mergeAbandon, asMergeAct 1, 0x406, false)]
  (∀ (s : State) (c : Nat) (k k' : Conn) (rx : Rx) row as code isBulk, c ≠ twinConn → (row, as, code, isBulk) ∈ rows →
    let r := as rx
    s.Request c k r → (s.asked c r).conn? c = some k' →
    let u := s.asked c r
    let j := jobOf c r.f isBulk
    let after (t : State) : Host.Outcome State Fault Refusal := .next (settle (t.done c r).progress)
    let foreign : Prop := k'.tenant ≠ 0 ∧ j.tenant ≠ k'.tenant
    let i := u.jobs.nextJob
    let v := u.onJobs fun x => { x with jobs := x.jobs.put i j, nextJob := i + 1 }
    let xlat (va : Nat) (a : Access) (p : Bool) := (Ctx.xlat { job := i, unit := 0, engine := 20 } va a 0 p).run v
    (2 ≤ rx.f.payload.length → j.ty = code) ∧
    (u.boot.service ≠ .full → exec (row rx) s = after (u.refuseJob j .held)) ∧
    (u.boot.service = .full → j.headOk = false → exec (row rx) s = after (u.refuseJob j .unsupported)) ∧
    (u.boot.service = .full → j.headOk = true → foreign → exec (row rx) s = after (u.refuseJob j .denied)) ∧
    (u.boot.service = .full → j.headOk = true → ¬foreign → u.kindsPresent j = false → exec (row rx) s = after (u.refuseJob j .unsupported)) ∧
    (u.boot.service = .full → j.headOk = true → ¬foreign → u.kindsPresent j = true →
      ((u.tenantJobs j.tenant).credits ≤ u.creditsUsed j.tenant →
        exec (row rx) s = after (((u.bump (Reg.jiRefusedCredit (ingressPage 0))).raiseQuiet 322).refuseJob j .busy)) ∧
      (u.creditsUsed j.tenant < (u.tenantJobs j.tenant).credits →
        (j.firstLine = none → exec (row rx) s = after (v.enterQueue i j.plainDie)) ∧
        (∀ va a p, j.firstLine = some (va, a, p) →
          (∀ pa w, xlat va a p = (.ok pa, w) → exec (row rx) s = after (w.enterQueue i (homeDie (offOf pa)))) ∧
          (∀ m w, xlat va a p = (.error (.wait m), w) → exec (row rx) s = after (w.onJob i fun j => { j with blocked := [{ unit := 0, engine := 20, misses := m }] })))))) ∧
  (∀ (w : State) (i d : Nat) (j : Job), w.job? i = some j →
    let pg := ingressPage d
    let j' := { j with die := d }
    let open_ : Prop := w.stopping pg = false ∧ w.ctl.resetting.contains pg = false
    (¬open_ → w.enterQueue i d = w.dropJob i j' .busy) ∧
    (open_ → w.queueCap ≤ w.queueUsed d → w.enterQueue i d = (w.bump (Reg.jiRefusedQueue pg)).dropJob i j' .busy) ∧
    (open_ → w.queueUsed d < w.queueCap →
      let p := (w.poolRefuses d j.tenant).2
      ((w.poolRefuses d j.tenant).1 = true → w.enterQueue i d = p.dropJob i j' .busy) ∧
      ((w.poolRefuses d j.tenant).1 = false →
        (p.descOk j' = false → w.enterQueue i d = (p.bump (Reg.jiRefusedDesc pg)).dropJob i j' .unsupported) ∧
        (p.descOk j' = true → p.kindsServe j' = false → w.enterQueue i d = p.dropJob i j' .busy) ∧
        (p.descOk j' = true → p.kindsServe j' = true →
          let n := (p.renumber i).1
          let q := (p.renumber i).2
          ∃ t : State, w.enterQueue i d = ((t.bump64 (Reg.jiJobsAdmitted pg)).notePool d).jobBegin n ∧
          (n = i ∨ n = p.jobs.nextJob) ∧
          t.job? n = (p.job? i).map fun x => { x with
            die := d, phase := .waiting, tag := (q.stampTag j.tenant j.f.len.toNat (q.weightOf j.tenant j.weight)).1, tAdmit := p.now, admitted := p.ran, blocked := [], held := [], kept := [] })))) ∧
  (∀ (s : State) (c : Nat) (k k' : Conn) (rx : Rx) (ty job : Nat), c ≠ twinConn → ty = (if rx.f.ty = 0x04 then 4 else 5) →
    job = (if (if ty = 4 then bulkType (leField rx.f.payload 0 2) else jobTypes.contains (leField rx.f.payload 0 2)) then 0 else leField rx.f.payload 0 2) →
    let r := asJob ty job rx
    s.Request c k r → (s.asked c r).conn? c = some k' → (s.asked c r).boot.service = .full →
    exec (.unassignedJobType rx) s = .next (settle ((((s.asked c r).refuseJob (jobOf c r.f (ty = 4)) .unsupported).done c r).progress)))

/-- TILE_DEAL (R248), PIECE_DEAL (R306), QUERY_DEAL, GATHER_DEAL (R324), MERGE_ENTRY_CLAIM (R326), SESSION_JOB_START (R296). -/
def Obligations.WorkDeals : Prop :=
  ∀ s : State, s.clocked = true →
    let ok (t : State) : Host.Outcome State Fault Refusal := .next (settle t.progress)
    (∀ (p : Job → Bool) (fits : Nat → Job → Bool),
      let waits (a : Nat) : Prop := s.arrayHeld a = false ∧ ∃ e ∈ s.jobs.jobs, p e.2 = true ∧ fits a e.2 = true ∧ e.2.nextUnit.isSome = true
      (s.dealArray p fits = none ↔ ∀ a, a < 8 → ¬waits a) ∧
      ∀ a i, s.dealArray p fits = some (a, i) → a < 8 ∧ s.arrayHeld a = false ∧ (∀ b, b < a → ¬waits b) ∧
        ∃ j, (i, j) ∈ s.jobs.jobs ∧ p j = true ∧ fits a j = true ∧ j.nextUnit.isSome = true) ∧
    (let failed (ms : List Nat) : Prop := ∃ n ∈ ms, 2 ≤ n
     let counted (a : Nat) (ms : List Nat) (t : State) : State := (ms.takeWhile (· < 2)).foldl (fun t n => if n = 1 then t.residue a else t) t
     let dealt (row : Instr) (p : Job → Bool) (fits : Nat → Job → Bool) (sums : Job → List Nat) (engine : Nat → Nat) (array : Nat → Option Nat)
        (unit : Job → Ctx → Eng Unit) (clear : State → State) : Prop :=
      (s.dealArray p fits = none → exec row s = ok s) ∧
      ∀ a i j u, s.dealArray p fits = some (a, i) → s.job? i = some j → j.nextUnit = some u →
        let d := clear (s.onJob i Job.dealt)
        let c : Ctx := { job := i, unit := u, engine := engine a, array := array a }
        (¬failed (sums j) → exec row s = ok ((counted a (sums j) d).runUnit c (failKey u 0) (unit j c))) ∧
        (failed (sums j) → exec row s = ok ((counted a (sums j) d).residueFail a i u))
     (∀ ms, dealt (.tileDeal ms) (fun j => j.ty = 0x100 || j.ty = 0x101) (fun a j => s.arrayServes a j.needsExpander)
        (fun j => if j.ty = 0x100 then ms else []) id (fun _ => none) (fun j => matrixUnit j.ty) id) ∧
     (∀ ms, dealt (.pieceDeal ms) (fun j => j.ty = 0x203) s.pieceArray (fun _ => ms) id (fun _ => none) (fun _ => attendUnit) id) ∧
     dealt .queryDeal (fun j => j.ty = 0x404) (fun a _ => s.arrayServes a false && s.serves (corePage (a / 4) 0x70))
        (fun _ => s.jobs.misfires) (fun a => 14 + a / 4) some (fun _ => queryUnit) (fun t => t.onJobs fun j => { j with misfires := [] })) ∧
    (let free (e : Nat) : Prop := e < 4 ∧ s.serves (gatherPage e) = true ∧ s.gatherHeld e = false
     ((∀ e, ¬free e) ∨ (∀ x ∈ s.jobs.jobs, s.embReady x.1 x.2 = false) → exec .gatherDeal s = ok s) ∧
     (∀ e before i j later, free e → (∀ b, b < e → ¬free b) → s.jobs.jobs = before ++ (i, j) :: later → (∀ x ∈ before, s.embReady x.1 x.2 = false) →
       s.embReady i j = true → exec .gatherDeal s = ok ((s.onJob i fun j => { j with phase := .running, engine := 10 + e }).embClaim i))) ∧
    (∀ i j, s.job? i = some j →
      let go : Prop := (j.ty = 0x310 ∨ j.ty = 0x311) ∧ j.phase = .running ∧ j.next = 0 ∧ j.stopped = none ∧ 4096 ≤ s.mergeFree
      (go → ∃ n, n = min (s.reg (if j.ty = 0x310 then Reg.geFilterMax else Reg.geMergeMax)) s.mergeFree ∧
        exec (.mergeEntryClaim i) s = ok (((s.onEmb fun e => { e with claims := e.claims.put i n }).onJob i fun j => { j with next := 1 }).runUnit
          { job := i, unit := 0, engine := j.engine } (failKey 0 0) (embUnit j.ty { job := i, unit := 0, engine := j.engine }))) ∧
      (¬go → exec (.mergeEntryClaim i) s = ok s)) ∧
    (∀ i j, s.job? i = some j →
      let waiting : Prop := j.phase = .waiting ∧ j.stopped = none ∧ 0x200 ≤ j.ty ∧ j.ty ≤ 0x205
      (¬waiting → exec (.sessionJobStart i) s = ok s) ∧
      (waiting → j.ty ≠ 0x200 → 0x201 ∈ s.sessionBefore i j → exec (.sessionJobStart i) s = ok (s.stopJob i .notPresent)) ∧
      (waiting → j.ty ≠ 0x200 → 0x201 ∉ s.sessionBefore i j → s.sessionWaits i j = true → exec (.sessionJobStart i) s = ok s) ∧
      (waiting → (j.ty = 0x200 ∨ 0x201 ∉ s.sessionBefore i j ∧ s.sessionWaits i j = false) → exec (.sessionJobStart i) s = ok (s.sessionBegin i j)))

/-- EMB_WINDOW_END (R338, R339), HOT_PROMOTION_BATCH (R340), TABLE_CLOSE_DONE (R321), MERGE_SWITCH and MERGE_DRAIN (R369, R370). -/
def Obligations.EngineOwnWork : Prop :=
  ∀ s : State, s.clocked = true →
    let ok (t : State) : Host.Outcome State Fault Refusal := .next (settle t.progress)
    (let span := s.reg Reg.geEmbCtrl % 1024 * 1000000
     (s.emb.windowAt + span ≤ s.ran → ∃ t : State, exec .embWindowEnd s = ok t ∧ t.emb.windowAt = s.ran ∧ t.store = s.store ∧ t.jobs = s.jobs ∧
       ∀ k ∈ s.emb.tables.keys, (s.table k).opened = true → (t.table k).opened = true ∧ (t.table k).winNow = 0 ∧ ∀ v ∈ (t.table k).versions, v.tracker = []) ∧
     (s.ran < s.emb.windowAt + span → exec .embWindowEnd s = ok s)) ∧
    (∀ t n,
      let busy : Prop := ∃ e ∈ s.jobs.jobs, e.2.stopped = none ∧ (e.2.bind = [0, t, n] ∨ e.2.bind = [t, n] ∧ e.2.ty = 0x311 ∧ e.2.phase = .running)
      (∀ v, (s.table t).version? n = some v → v.due ≠ [] → ¬busy → ∃ i w, s.ownBegin (s.table t).tenant 10 [0, t, n] = (i, w) ∧
        exec (.hotPromotionBatch t n) s = ok ((State.runUnit (w.onJob i fun j => { j with counts := v.due }) { job := i, unit := 0, engine := 10 } (failKey 0 0)
          (hotUnit { job := i, unit := 0, engine := 10 })).hotEnd i)) ∧
      ((∀ v, (s.table t).version? n = some v → v.due = []) ∨ busy → exec (.hotPromotionBatch t n) s = ok s)) ∧
    (∀ t i, (s.table t).closing = some i → (s.table t).versions = [] → ∃ w : State, exec (.tableCloseDone t) s = ok w ∧
      w.table t = { gen := (s.table t).gen } ∧ (∀ k, k ≠ t → w.table k = s.table k) ∧ w.job? i = (s.job? i).map fun j => { j with finished := 1 }) ∧
    (∀ t, (s.table t).closing = none ∨ (s.table t).versions ≠ [] → exec (.tableCloseDone t) s = ok s) ∧
    (∀ k, let x := s.coll k
      let own (kind : Nat) (unit : Ctx → Nat → Eng Unit) : State :=
        let b := s.ownBegin x.tenant (14 + k % 2) [kind, k]
        let c : Ctx := { job := b.1, unit := 0, engine := 14 + k % 2 }
        (b.2.runUnit c (failKey 0 0) (unit c k)).mergeOwnEnd b.1
      let free : Prop := s.ownBusy k = false ∧ s.boot.service = .full
      let drained : Prop := ∀ e ∈ s.jobs.jobs, e.2.ty = 0x404 → ∀ b, e.2.query = some b → ¬(b.k = k ∧ b.gen = x.merge.oldGen)
      (x.merge.st = .running → x.merge.complete = true → free → exec (.mergeSwitch k) s = ok (own 1 switchUnit)) ∧
      (x.merge.st ≠ .running ∨ x.merge.complete = false ∨ ¬free → exec (.mergeSwitch k) s = ok s) ∧
      (x.merge.st = .draining → drained → free → exec (.mergeDrain k) s = ok (own 2 drainUnit)) ∧
      (x.merge.st ≠ .draining ∨ ¬drained ∨ ¬free → exec (.mergeDrain k) s = ok s))

/-- JOB_COMPLETION (R208 to R210), TIME_LIMIT_EXPIRY (R211) and POOL_HIGH (R226). -/
def Obligations.JobEnds : Prop :=
  ∀ s : State, s.clocked = true →
    let ok (t : State) : Host.Outcome State Fault Refusal := .next (settle t.progress)
    (∀ i j, s.job? i = some j → j.ty ≠ 0 →
      let worked : Prop := j.stopped.isSome = true ∨ j.phase = .running ∧ j.finished = j.units ∧ j.blocked = [] ∧ j.todo = []
      let ready : Prop := worked ∧ j.peerLeft = [] ∧ s.jobBusy i = false ∧ j.phase ≠ .done
      (¬ready → exec (.jobCompletion i) s = ok s) ∧
      (ready → ∀ st result detail t, s.jobForm i j = (st, result, detail, t) →
        let j' := (t.job? i).getD j
        let record (w : Bool) : List Byte := j'.record st w t.now result.length detail ++ result
        let writes : Prop := bit j'.flags 1 = true ∧ j'.isBulk = false ∧ j'.phase ≠ .ingress
        (¬writes → exec (.jobCompletion i) s = ok (t.jobEnds i j' st (record false))) ∧
        (writes → ∃ u : State, exec (.jobCompletion i) s = ok (u.targetRun i) ∧ u.store = t.store ∧ u.net = t.net ∧
          ∀ x, u.job? i = some x → x.phase = .done ∧ x.status = st ∧ x.detail = detail ∧ x.result = record true ∧ x.stopped = none))) ∧
    (∀ i, s.job? i = none → exec (.jobCompletion i) s = ok s ∧ exec (.timeLimitExpiry i) s = ok s) ∧
    (∀ i j, s.job? i = some j →
      let due : Prop := j.ty ≠ 0 ∧ j.limit ≠ 0 ∧ j.phase ≠ .ingress ∧ j.admitted + j.limit * 1000 ≤ s.ran
      (due → ∃ t x, exec (.timeLimitExpiry i) s = ok t ∧ t.job? i = some x ∧ x.stopped = some (j.stopped.getD .timeout) ∧ x.blocked = [] ∧
        (∀ k, k ≠ i → t.job? k = s.job? k) ∧ t.jobs.ops = s.jobs.ops ∧ t.store = s.store ∧ t.net = s.net ∧
        (∀ p ∈ t.xlat.parked, p.who.job ≠ i) ∧ ∀ w ∈ t.xlat.walks, ∀ y ∈ w.2.waiters, y.job ≠ i) ∧
      (¬due → exec (.timeLimitExpiry i) s = ok s)) ∧
    (∀ h, ∃ t : State, exec (.poolHigh h) s = .next (settle t) ∧ t.reg (Reg.rpPoolHigh (poolPage (h % 2))) = s.poolUsed (h % 2) % 2 ^ 64 ∧
      (∀ a, a ≠ Reg.rpPoolHigh (poolPage (h % 2)) → t.reg a = s.reg a) ∧ t = { s with ctl := { s.ctl with regs := t.ctl.regs } })

/-- PEER_CMD OPEN and CLOSE (R227), PEER_ACCEPT (R217, R86), PEER_WRITE_RESPONSE (R217). -/
def Obligations.PeerConnections : Prop :=
  ∀ s : State, s.clocked = true →
    let ok (t : State) : Host.Outcome State Fault Refusal := .next (settle t.progress)
    let k := s.peerSel
    let x := s.peer k
    let only (n : Nat) (t : State) : Prop := (∀ j, j ≠ n → t.peer j = s.peer j) ∧ t.store = s.store ∧ t.jobs.jobs = s.jobs.jobs
    (let free : Prop := x.st = .idle ∧ s.pairTaken k (s.reg Reg.bePeerDev % 65536) (bits (s.reg Reg.bePeerId) 31 20) = false
     (free → ∃ t : State, exec .peerOpen s = ok t ∧ only k t ∧
       t.peer k = { x with dev := s.reg Reg.bePeerDev % 65536, ident := BitVec.ofNat 32 (s.reg Reg.bePeerId), ip := s.ip Reg.bePeerIp, st := .joining, since := s.ran, ports := s.peerPorts, txNext := 1, opNext := 1, live := [], writes := [], wait := none, conn := 0, incarn := 0 }) ∧
     (¬free → ∃ (t : State) (v : Nat), exec .peerOpen s = ok t ∧ only k t ∧ t.peer k = { x with result := v })) ∧
    (x.st = .opened → ∃ t : State, exec .peerClose s = ok t ∧ only k t ∧
      t.peer k = { x with st := .closing, since := s.ran, opNext := x.opNext + 1, txNext := x.txNext + 1 }) ∧
    (x.st ≠ .opened → exec .peerClose s = ok s) ∧
    (∀ n, let y := s.peer n
      let becomes (a : Option Frame) (z : Peer) : Prop := ∃ t : State, exec (.peerAccept n a) s = ok t ∧ only n t ∧ t.peer n = z
      (y.st = .joining →
        (∀ f, f.ty = 0x51 → becomes (some f) { y with st := .opened, result := 0, conn := BitVec.ofNat 24 (beField f.payload 0 4), incarn := BitVec.ofNat 8 (beField f.payload 6 1), ports := y.ports.take (beField f.payload 7 1), live := [0], wait := none }) ∧
        (∀ f, f.ty = 0x50 → has f fResp = true → becomes (some f) { y with st := .idle, result := f.status.toNat, wait := none }) ∧
        (y.since + 10000000 ≤ s.ran → becomes none { y with st := .idle, result := Status.timeout.code, wait := none }) ∧
        (s.ran < y.since + 10000000 → exec (.peerAccept n none) s = ok s)) ∧
      (y.st = .opened → ∀ f, f.ty = 0x53 → has f fProbe = true → has f fResp = true → f.path.toNat < y.ports.length → f.path.toNat ∉ y.live →
        becomes (some f) { y with live := y.live ++ [f.path.toNat] }) ∧
      (y.st = .closing →
        (∀ f, f.ty = 0x52 → has f fResp = true → becomes (some f) { y with st := .idle, result := Status.ok.code, wait := none }) ∧
        (y.since + 10000000 ≤ s.ran → becomes none { y with st := .idle, result := Status.ok.code, wait := none })) ∧
      (y.st = .idle → ∀ a, exec (.peerAccept n a) s = ok s)) ∧
    (∀ n f w, (s.peer n).writes.find? (fun w => w.opId = f.opId) = some w → f.ty = 0x02 → has f fResp = true →
      let st := statusOf f.status.toNat
      (st ≠ .staleIncarnation → ∃ t : State, exec (.peerWriteResponse n f) s = ok t ∧ t = s.peerWriteEnd n w st ∧
        (t.peer n).writes = (s.peer n).writes.filter (· != w) ∧ t.store = s.store ∧
        ∀ j, s.job? w.job = some j → ∃ j', t.job? w.job = some j' ∧ j'.peerLeft = j.peerLeft.filter (· != peerKey n w.opId) ∧
          j'.written = j.written + (if st = .ok then w.len else 0)) ∧
      (st = .staleIncarnation → ∃ t : State, exec (.peerWriteResponse n f) s = ok (t.raise 323) ∧ (t.peer n).st = .idle ∧ t.store = s.store)) ∧
    (∀ n f, (s.peer n).writes.find? (fun w => w.opId = f.opId) = none → exec (.peerWriteResponse n f) s = ok s)

/-- PAL_CMD (R268, R270, R290), BUILD_START (R274), PENDING_INSTALL (R270) and PENDING_INSTALL_WAIT (R291). -/
def Obligations.PaletteRows : Prop :=
  ∀ s : State, s.clocked = true →
    let ok (t : State) : Host.Outcome State Fault Refusal := .next (settle t.progress)
    let n := s.palSel
    let only (k : Nat) (t : State) : Prop := (∀ j, j ≠ k → t.palSlot? j = s.palSlot? j) ∧ t.store = s.store ∧ t.jobs = s.jobs
    let refused (row : Instr) (st : Status) : Prop := exec row s = ok (s.setReg Reg.tcPalResult st.code)
    let gives (row : Instr) (gen : Nat) (y : Option Slot) : Prop := ∃ t : State, exec row s = ok (t.setReg Reg.tcPalResult (Status.ok.code + gen * 256)) ∧ only n t ∧ t.palSlot? n = y
    let referred (g : Option Gen) : Prop := ∃ y, g = some y ∧ s.palRefs n y.num ≠ 0
    (s.palSlot? n = none → refused .palInstall .unsupported ∧ refused .palBuild .unsupported) ∧
    (∀ x, s.palSlot? n = some x →
      let k := symCount x.smode
      let all := lensOf s.palData
      let valid : Prop := lensValid (all.take k) = true ∧ ∀ l ∈ all.drop k, l = 0
      let num := match x.newer with | none => 1 | some g => if g.num = 255 then 1 else g.num + 1
      let ends : Prop := ∃ b, x.build = some b ∧ (b.st = .collecting ∨ b.st = .pending)
      (¬valid → refused .palInstall .unsupported) ∧
      (valid → referred x.older → refused .palInstall .busy) ∧
      (valid → ¬referred x.older →
        (ends → gives .palInstall num (some { x with newer := some { num := num, lens := all.take k }, older := x.newer, build := none })) ∧
        (¬ends → gives .palInstall num (some { x with newer := some { num := num, lens := all.take k }, older := x.newer }))) ∧
      (x.build.isSome = true → exec .palBuild s = ok (s.setReg Reg.tcPalResult 0)) ∧
      (x.build = none → ∃ (t : State) (b : Build), exec .palBuild s = ok (t.setReg Reg.tcPalResult 0) ∧ only n t ∧ t.palSlot? n = some { x with build := some b } ∧
        b.blocks = 0 ∧ (b.st = .waiting ∨ b.st = .collecting))) ∧
    (let cfg := s.reg Reg.tcPalCfg
     let mode := cfg % 4
     let always := bit cfg 4
     (n = 0 ∨ mode = 3 → refused .palConfig .unsupported) ∧
     (n ≠ 0 → mode ≠ 3 → s.palSlot? n = none → gives .palConfig 0 (some { smode := mode, always := always, auto := bit cfg 8 })) ∧
     (n ≠ 0 → mode ≠ 3 → ∀ x, s.palSlot? n = some x →
       let changes : Prop := x.smode ≠ mode ∨ x.always ≠ always
       (x.newer.isSome = true → changes → refused .palConfig .unsupported) ∧
       (x.newer = none ∨ ¬changes → (x.smode = mode ∨ x.build = none) → gives .palConfig 0 (some { x with smode := mode, always := always, auto := bit cfg 8 })) ∧
       (x.newer = none → x.smode ≠ mode → ∀ b, x.build = some b →
         gives .palConfig 0 (some { x with smode := mode, always := always, auto := bit cfg 8, build := some { b with counts := [], blocks := 0 } })))) ∧
    ((n = 0 → refused .palClear .unsupported) ∧
     (n ≠ 0 → s.palSlot? n = none → exec .palClear s = ok (s.setReg Reg.tcPalResult 0)) ∧
     (n ≠ 0 → ∀ x, s.palSlot? n = some x → (referred x.newer ∨ referred x.older → refused .palClear .busy) ∧
       (¬referred x.newer → ¬referred x.older → gives .palClear 0 none))) ∧
    (let g := if bit (s.reg Reg.tcPalSel) 16 then (s.palSlot? n).bind (·.older) else (s.palSlot? n).bind (·.newer)
     (∀ y, g = some y → ∃ t : State, exec .palRead s = .next (settle (t.setReg Reg.tcPalResult 0)) ∧ t.pal = s.pal ∧
       ∀ i, i < 32 → t.reg (Reg.tcPalData + 4 * i) = leField (lensBytes y.lens) (4 * i) 4 % 2 ^ 64) ∧
     (g = none → ∃ (t : State) (v : Nat), exec .palRead s = .next (settle (t.setReg Reg.tcPalResult v)) ∧ t.pal = s.pal ∧ ∀ a, t.reg a = s.reg a)) ∧
    (∀ k x b, s.palSlot? k = some x → x.build = some b →
      (b.st = .waiting → s.histTurn (k % 2) (.slot k) = true → ∃ t : State, exec (.buildStart k) s = ok t ∧ only k t ∧ t.palSlot? k = some { x with build := some { st := .collecting } }) ∧
      (b.st ≠ .waiting ∨ s.histTurn (k % 2) (.slot k) = false → exec (.buildStart k) s = ok s) ∧
      (b.st = .pending → s.palRoom k = true → ∃ t : State, exec (.pendingInstall k) s = ok t ∧ only k t ∧ t.palSlot? k = some { x.install b.lens with build := none } ∧
        t.ev.counts.getD 346 0 = min (s.ev.counts.getD 346 0 + 1) 0xFFFF) ∧
      (b.st ≠ .pending ∨ s.palRoom k = false → exec (.pendingInstall k) s = ok s) ∧
      (let due : Prop := b.st = .pending ∧ b.alarmed = false ∧ b.since + 10000000 ≤ s.ran ∧ s.palRoom k = false
       (due → ∃ t : State, exec (.pendingInstallWait k) s = ok t ∧ only k t ∧ t.palSlot? k = some { x with build := some { b with alarmed := true } } ∧
         t.ev.counts.getD 346 0 = min (s.ev.counts.getD 346 0 + 1) 0xFFFF) ∧
       (¬due → exec (.pendingInstallWait k) s = ok s)))

/-- PAIR_HELLO (R378, R380), BEAT (R395), RENEW and LEASE_LIST (R393), GIVE and TAKE (Table 13-5), COPY and CHECKPOINT (R400,
R401), RESET_NOTICE (R399), unknown kinds (R381). -/
def Obligations.TwinLeases : Prop :=
  ∀ (s : State) (rx : Rx),
    let ok (t : State) : Host.Outcome State Fault Refusal := .next (settle t.progress)
    let takes (kind : Nat) (row : Instr) (P : State → Frame → Nat → Nat → Nat → State → Prop) : Prop :=
      ∀ w1 w2 w3 : Word, twinExt (asTwin kind rx).f = some (kind, [w1, w2, w3]) → s.TwinTurn (asTwin kind rx) →
        ∃ t : State, exec row s = ok (t.closed twinConn) ∧
          P (s.twinTurn (asTwin kind rx)) (asTwin kind rx).f (w1.toNat % 2 ^ 17) w2.toNat (w3.toNat % 2 ^ 24) t
    let leaseOnly (e : Nat) (u t : State) : Prop := (∀ d, d ≠ e → t.twin.leases.get? d = u.twin.leases.get? d) ∧ t.store = u.store ∧ t.jobs = u.jobs
    (let r := asFlag fUnseq true (asTwin 0x01 rx)
     let u := s.counted r
     let f := r.f
     let n := u.twinPathOf r.port
     let nonce := beField f.payload 24 8
     let echo := beField f.payload 32 8
     let x := u.twin.paths.getD n { }
     let good (key : BitVec 256) : Prop := r.src = u.partnerIp ∧ BitVec.ofNat 128 (beField f.payload 0 16) =
       token key (tokenBytes (u.reg Reg.twPartnerDev % 65536) (1 - u.side) f.incarn.toNat (beField f.payload 16 8) nonce echo)
     let fresh : Prop := echo ≠ 0 ∧ ∃ e ∈ x.nonces, e.1.toNat = echo ∧ u.ran < e.2 + 10000001
     let soon : Prop := ∃ t, x.lastAnswer = some t ∧ u.ran < t + 1000000
     s.Passes r → u.role r.port = 2 → u.paired = true → u.boot.service ≠ .greyscale → (∃ ws, twinExt f = some (1, ws)) →
       (u.twin.key = none → exec (.pairHello rx) s = ok (u.bump Reg.twPairDenied)) ∧
       (∀ key, u.twin.key = some key →
         (¬good key → exec (.pairHello rx) s = ok (u.bump Reg.twPairDenied)) ∧
         (good key → ¬fresh → soon → exec (.pairHello rx) s = ok (u.bump Reg.twPairDenied)) ∧
         (good key → ¬fresh → ¬soon → exec (.pairHello rx) s =
           ok ((u.onTwin fun t => { t with paths := t.paths.put n { x with lastAnswer := some u.ran } }).sendPairHello n nonce)) ∧
         (good key → fresh → u.twin.partnerIncarn = some f.incarn →
           let v := u.twinHeard f
           let live := (v.conn? twinConn).any fun k => (k.paths.getD n { }).live
           (live = true → exec (.pairHello rx) s = ok v) ∧
           (live = false → v.twinOpen = true → exec (.pairHello rx) s = ok
             ((v.onPath twinConn n fun q => { q with live := true, opened := true, lost := 0, probeAt := none, droppedAt := none, lastAcked := v.ran }).sendPairHello n nonce))))) ∧
    (let r := asFlag fUnseq true (asTwin 0x02 rx)
     s.OfTwin r → exec (.beat rx) s = ok (s.twinHears r) ∧
       ∀ d, (s.twinHears r).lease d = let x := (s.counted r).lease d
         if x.st = .lost then { x with st := x.before, before := .none } else x) ∧
    takes 0x03 (.renew rx) (fun u f _ _ _ t =>
      let same : Prop := beField f.payload 0 4 = leaseDigest u.partnerLeases ∧ beField f.payload 4 4 = u.partnerLeases.length
      (u.twin.handed.filter (·.orphan) = [] →
        (same → t = u) ∧
        (¬same → u.twin.listSent = true → t = u.onTwin fun x => { x with listSent := true }) ∧
        (¬same → u.twin.listSent = false → t = u.sendLeaseList.onTwin fun x => { x with listSent := true }))) ∧
    takes 0x04 (.leaseList rx) (fun u f _ _ aux t =>
      let e := beField f.payload 0 4 % 2 ^ 17
      let code := beField f.payload 0 4 / 2 ^ 28
      let gen := beField f.payload 4 4
      aux = 1 → ∀ x, u.twin.leases.get? e = some x →
        let claims : Prop := code = 2 ∨ code = 4 ∨ code = 6
        let becomes (y : Lease) : Prop := t.twin.leases.get? e = some y ∧ leaseOnly e u t ∧ t.twin.listed = true ∧ t.twin.listSent = false
        let side := (if u.twin.listSent then u else u.sendLeaseList).side
        let fenced : Prop := x.st = .solo ∨ x.st = .fenced ∨ (code = 6 ∧ x.st ≠ .giving)
        let takeOver (st : LeaseSt) : Lease := { x with partner := code, st := st, gen := gen, holder := 1 - side, given := false }
        let clash : Prop := x.gen = gen ∧ ((x.st = .solo ∧ (code = 6 ∨ code = 2)) ∨ (x.st = .hold ∧ code = 6))
        (code = 7 → x.st = .conflict → becomes { x with partner := code, st := .solo, holder := side }) ∧
        (claims → x.gen < gen → x.st ≠ .lost → x.st ≠ .conflict → (fenced → becomes (takeOver .fenced)) ∧ (¬fenced → becomes (takeOver .shadow))) ∧
        (clash → becomes { x with partner := code, st := .conflict }) ∧
        (¬(code = 7 ∧ x.st = .conflict) → ¬(claims ∧ x.gen < gen ∧ x.st ≠ .lost ∧ x.st ≠ .conflict) → ¬clash → becomes { x with partner := code })) ∧
    takes 0x05 (.give rx) (fun u _ e gen _ t =>
      (∀ x, u.twin.leases.get? e = some x → x.st = .shadow →
        t = (u.onLease e fun x => { x with st := .hold, gen := gen, holder := u.side }).sendTwin (twinFrame 0x06 e gen 0 0 noKey 0 []) ∧
        t.twin.leases.get? e = some { x with st := .hold, gen := gen, holder := u.side } ∧ leaseOnly e u t) ∧
      ((u.lease e).st ≠ .shadow → t = u)) ∧
    takes 0x06 (.take rx) (fun u _ e gen _ t =>
      let waiting := (u.jobs.ops.filter fun o => o.2.extent = e && o.2.mirrored && !o.2.started).map (·.1)
      let v := u.onLease e fun x => { x with st := .shadow, gen := gen, holder := 1 - u.side, given := false }
      ((u.lease e).st = .giving → t = waiting.foldl (fun s i => s.mirrorStart i) v ∧
        (waiting = [] → leaseOnly e u t ∧ (t.lease e).st = .shadow ∧ (t.lease e).gen = gen)) ∧
      ((u.lease e).st ≠ .giving → t = u)) ∧
    takes 0x40 (.twinCopy rx) (fun u f e _ _ t =>
      let a := offOf f.addr.toNat
      let here : Prop := (u.lease e).st = .fenced ∧ extentOf a = e
      (here → t = u.copyWrite a (slice f.payload 0 4096)) ∧ (¬here → t = u)) ∧
    takes 0x41 (.checkpoint rx) (fun u _ e _ aux t =>
      ((u.lease e).st = .fenced → t = u.onTwin fun x => { x with resync := some { extent := e, source := false, ckpt := aux } }) ∧
      ((u.lease e).st ≠ .fenced → t = u)) ∧
    takes 0x60 (.resetNotice rx) (fun u _ _ _ _ t => t = u.partnerGone ∧
      (u.twin.shadows = [] → u.twin.holders = [] → u.twin.handed = [] → (u.twin.leases.map (·.1)).Nodup → ∀ d,
        t.twin.leases.get? d = (u.twin.leases.get? d).map fun x =>
          if x.st = .hold || x.st = .shadow || x.st = .giving || x.st = .lost then { x with st := .solo, gen := x.gen + 1, holder := u.side, before := .none, given := false }
          else x)) ∧
    (let kind := (rx.f.ext.headD 0).toNat % 256
     let r := asTwin (if twinKinds.contains kind then 0xFF else kind) rx
     let u := (s.drillDrop r.port 0).2.received r
     s.clocked = true → s.hasPort r.port = true → (s.portSt r.port).up = true → s.ownState (portPage r.port) ≠ .off → s.twinMuted r.port = false →
       (s.drillDrop r.port 0).1 = false → r.fecOk = true → r.fcsOk = true → (u.macsec r).1 = true →
       (∃ k ws, twinExt r.f = some (k, ws) ∧ k ∉ twinKinds) →
       exec (.twinUnknownKind rx) s = ok ((u.macsec r).2.dropHdr r.port))

/-- MIRROR, MIRROR_ACK and RETIRE (R385, R388), TAKEN, DONE and HANDOVER (R389, R390), ORPHAN_STATE (R391), EXT_CMD and EXT_DONE
(R383, R400). -/
def Obligations.TwinOperations : Prop :=
  ∀ (s : State) (rx : Rx),
    let takes (kind : Nat) (row : Instr) (P : State → Frame → Nat → Nat → State → Prop) : Prop :=
      ∀ w1 w2 w3 : Word, twinExt (asTwin kind rx).f = some (kind, [w1, w2, w3]) → s.TwinTurn (asTwin kind rx) →
        ∃ t : State, exec row s = .next (settle (t.closed twinConn).progress) ∧
          P (s.twinTurn (asTwin kind rx)) (asTwin kind rx).f (w1.toNat % 2 ^ 17) (w3.toNat % 2 ^ 24) t
    let held (u : State) (f : Frame) (e aux : Nat) (t : State) : Prop :=
      let key := frameKey f
      let front := u.twin.handed.find? fun h => h.key = key && h.front
      (∀ h, front = some h → t = (u.sendTaken key e).takeBack h) ∧
      (front = none → ∀ st p, u.keyResult key = some (st, p) → t = (u.sendTaken key e).sendDone key e st p) ∧
      (front = none → u.keyResult key = none → u.twinKnown key = true → t = u.sendTaken key e) ∧
      (front = none → u.keyResult key = none → u.twinKnown key = false → t = u.enterTwin key e (handedRequest u f aux))
    takes 0x20 (.mirror rx) (fun u f e _ t =>
      let key := frameKey f
      let a := offOf f.addr.toNat
      let n := if f.payload.length = f.len.toNat then f.payload.length else f.payload.length / 2
      let x (phase : Nat) : Shadow := { key := key, extent := e, addr := a, value := f.payload.take n, old := f.payload.drop n, phase := phase }
      let known := u.twin.shadows.find? fun x => x.key = key
      let entered (phase : Nat) : State := (u.onTwin fun t => { t with shadows := t.shadows ++ [x phase] }).notePool (homeDie a)
      (∀ y, known = some y → (y.phase = 2 → t = u.sendMirrorAck key e) ∧ (y.phase ≠ 2 → t = u)) ∧
      (known = none → u.shadowRoom a = false → t = entered 0) ∧
      (known = none → u.shadowRoom a = true → t = (((entered 1).copyWrite a (f.payload.take n)).onTwin fun t =>
        { t with shadows := t.shadows.map fun y => if y.key = key then { y with phase := 2 } else y }).sendMirrorAck key e)) ∧
    takes 0x21 (.mirrorAck rx) (fun u f _ _ t =>
      let waits := u.twin.holders.find? fun h => h.key = frameKey f && h.phase = 1
      (waits = none → t = u) ∧
      (∀ h, waits = some h → t = (((u.copyWrite h.addr h.value).onTwin fun t =>
        { t with holders := t.holders.map fun x => if x = h then { x with phase := 3 } else x }).bump64 Reg.twMirrorOps).mirrorEnd h.op .ok h.old)) ∧
    takes 0x22 (.retire rx) (fun u f _ _ t =>
      t.twin.shadows = u.twin.shadows.filter (fun x => x.key ≠ frameKey f) ∧ t = { u with twin := { u.twin with shadows := t.twin.shadows } }) ∧
    takes 0x11 (.taken rx) (fun u f _ _ t =>
      let waits := u.twin.handed.find? fun h => h.key = frameKey f
      let counted (h : Handed) : State := if h.orphan then u.bump Reg.twOrphansDiscarded else u
      (waits = none → t = u) ∧
      (∀ h, waits = some h →
        (h.front = true → t = (counted h).onTwin fun t => { t with handed := t.handed.map fun x => if x = h then { x with taken := true, orphan := false } else x }) ∧
        (h.front = false → t.twin.handed = u.twin.handed.filter (fun x => x ≠ h) ∧ t.store = u.store ∧ t.jobs.jobs = u.jobs.jobs ∧
          t.jobs.ops = if h.op = 0 then u.jobs.ops else u.jobs.ops.del h.op))) ∧
    takes 0x12 (.twinDone rx) (fun u f _ _ t =>
      let waits := u.twin.handed.find? fun h => h.key = frameKey f && h.front
      (waits = none → t = u) ∧
      (∀ h, waits = some h → t = (u.onTwin fun t => { t with handed := t.handed.filter fun x => x != h }).mirrorEnd h.op (statusOf f.status.toNat) f.payload)) ∧
    takes 0x10 (.handover rx) (fun u f e aux t =>
      (u.holds e = true → held u f e aux t) ∧
      (u.holds e = false →
        let key := frameKey f
        let h : Handed := { key := key, op := 0, extent := e, f := handedRequest u f aux, since := u.ran, front := false }
        t.twin.handed = (u.twin.handed.filter fun x => x.key != key || x.front) ++ [h] ∧ t.store = u.store ∧ t.jobs = u.jobs ∧ t.twin.leases = u.twin.leases ∧
        t = ((u.onTwin fun x => { x with handed := t.twin.handed }).bump Reg.twHandovers).sendTwin { twinFrame 0x10 e (u.lease e).gen 0 aux key 0 f.payload with len := f.len })) ∧
    takes 0x30 (.orphanState rx) (fun u f e aux t =>
      (u.holds e = true → held u.adopted f e aux t) ∧ (u.holds e = false → t = u)) ∧
    takes 0x50 (.twinExtCmd rx) (fun u f e _ t =>
      let cmd := beField f.payload 0 1
      let arg := beField f.payload 4 4
      let carried : Prop := cmd = 1 ∧ (u.lease e).st = .fenced ∧ (u.extent e).st = .free
      let done (v : State) (st : Status) : State := v.sendTwin (twinFrame 0x51 e (v.lease e).gen 0 0 noKey st.code [])
      (carried → t = done (u.onExtent e fun x => argExtent arg x) .ok) ∧
      (¬carried → t = done (u.extApply cmd e arg).2 (u.extApply cmd e arg).1)) ∧
    takes 0x51 (.extDone rx) (fun u f e _ t =>
      let waits := u.twin.carried.find? fun c => c.extent = e
      (waits = none → t = u) ∧
      (∀ c, waits = some c →
        let v := u.onTwin fun t => { t with carried := t.carried.erase c }
        let w := if f.status = 0 then (v.extApply c.cmd e c.arg).2.extResult (v.extApply c.cmd e c.arg).1 else v.setReg Reg.tmExtStat (f.status.toNat * 256)
        (c.wait = none → t = w) ∧ (∀ k g, c.wait = some (k, g) → t = w.respond k g .ok)))

/-- The timers of 13_duotone.md (R380, R387, R390, R393, R395, R398, R400), LEASE_CMD MOVE and LEASE_GIVE (Table 13-5), and
TWIN_WITNESS (R394). -/
def Obligations.TwinTimers : Prop :=
  ∀ s : State, s.clocked = true →
    let ok (t : State) : Host.Outcome State Fault Refusal := .next (settle t.progress)
    let same (row : Instr) : Prop := exec row s = ok s
    let lease (e : Nat) : Option Lease := s.twin.leases.get? e
    let leases (t : State) (f : Lease → Lease) : Prop := (∀ d, t.twin.leases.get? d = (lease d).map f) ∧ t.store = s.store ∧ t.jobs = s.jobs ∧ t.coh = s.coh
    let acts (row : Instr) (st : Status) (f : Lease → Lease) : Prop := ∃ t : State, exec row s = ok (t.setReg Reg.twWitnessResult st.code) ∧ leases t f
    (let hello (u : State) (n : Nat) : State :=
       let live := (u.conn? twinConn).any fun k => (k.paths.getD n { }).live
       let due := (u.twin.paths.getD n { }).lastHello.all fun t => u.since t 10000000
       if live || !due then u
       else (u.onTwin fun t => { t with paths := t.paths.put n { (u.twin.paths.getD n { }) with lastHello := some u.ran } }).sendPairHello n 0
     (s.paired = true → s.boot.service ≠ .greyscale → exec .pairHelloTimer s = ok (s.twinPaths.foldl (fun u e => hello u e.1) s)) ∧
     (s.paired = false ∨ s.boot.service = .greyscale → same .pairHelloTimer)) ∧
    (let live := ((s.conn? twinConn).elim [] fun k => k.paths.filter fun q => q.2.live).map (·.1)
     (s.twinOpen = true → s.twin.lastBeat + 100000 ≤ s.ran → ∃ t : State, exec .beatTimer s = ok t ∧ (s.onTwin fun x => { x with lastBeat := s.ran }).OnlySends t ∧
       t = live.foldl (fun u n => u.sendUnseq twinConn n ((u.conn? twinConn).elim (twinFrame 0x02 0 0 0 0 noKey 0 []) fun k => k.withAck (twinFrame 0x02 0 0 0 0 noKey 0 [])))
         (s.onTwin fun x => { x with lastBeat := s.ran })) ∧
     (s.twinOpen = false ∨ s.ran < s.twin.lastBeat + 100000 → same .beatTimer)) ∧
    (let orphans := (s.twin.handed.filter (·.orphan)).mergeSort fun a b => keyLe a.key b.key
     let body := beBytes 4 (leaseDigest s.heldLeases) ++ beBytes 4 s.heldLeases.length ++ orphans.flatMap fun h =>
       beBytes 4 (identOf h.key.tenant.toNat h.key.agent.toNat) ++ beBytes 4 h.key.opId.toNat ++ beBytes 4 h.extent
     (s.twinOpen = true → s.twin.lastRenew + 1000000 ≤ s.ran → ∃ t : State, exec .renewTimer s = ok t ∧ (s.onTwin fun x => { x with lastRenew := s.ran }).OnlySends t ∧
       t = (s.onTwin fun x => { x with lastRenew := s.ran }).sendTwin (twinFrame 0x03 0 0 0 orphans.length noKey 0 body)) ∧
     (s.twinOpen = false ∨ s.ran < s.twin.lastRenew + 1000000 → same .renewTimer)) ∧
    (let due : Prop := s.paired = true ∧ s.boot.service ≠ .greyscale ∧ s.twin.lastHeard + 2000000 ≤ s.ran
     (due → ∃ t : State, exec .twinSilenceTimeout s = ok t ∧
       leases t fun x => if x.st = .hold || x.st = .shadow || x.st = .giving then { x with st := .lost, before := x.st } else x) ∧
     (¬due → same .twinSilenceTimeout)) ∧
    (∃ t : State, exec .leaseMove s = ok t ∧ t.store = s.store ∧ t.jobs = s.jobs ∧ ∀ d, t.twin.leases.get? d = (lease d).map fun x =>
      if d = s.reg Reg.twLeaseSel % 2 ^ 17 ∧ x.st = .hold then { x with st := .giving, given := false } else x) ∧
    (∀ e x, lease e = some x →
      let due : Prop := x.st = .giving ∧ x.given = false ∧ (∀ h ∈ s.twin.holders, h.extent = e → 2 ≤ h.phase) ∧ s.twinOpen = true
      (due → ∃ t : State, exec (.leaseGive e) s = ok t ∧ t = (s.onLease e fun x => { x with given := true }).sendTwin (twinFrame 0x05 e (x.gen + 1) 0 0 noKey 0 []) ∧
        t.twin.leases.get? e = some { x with given := true } ∧ t.store = s.store ∧ t.jobs = s.jobs) ∧
      (¬due → same (.leaseGive e))) ∧
    ((s.twin.waiting = [] → same .mirrorQueueRoom) ∧
     ∀ i at_ rest, s.twin.waiting = (i, at_) :: rest →
       let v := s.onTwin fun x => { x with waiting := rest }
       (s.op? i = none → exec .mirrorQueueRoom s = ok v) ∧
       (∀ o, s.op? i = some o → (s.mirrorQueue + o.f.len.toNat ≤ 2 ^ 24 → exec .mirrorQueueRoom s = ok ((v.bump64 Reg.twMirrorWaitNs (s.ran - at_)).mirrorStart i)) ∧
         (2 ^ 24 < s.mirrorQueue + o.f.len.toNat → same .mirrorQueueRoom))) ∧
    (∀ key, ∃ t : State, exec (.orphanTimeout key) s = ok t ∧ t = { s with twin := { s.twin with handed := t.twin.handed } } ∧
      t.twin.handed = s.twin.handed.map fun h => if keyNames key h.key && !h.taken && decide (h.since + 200000 ≤ s.ran) then { h with orphan := true } else h) ∧
    (∀ e x, lease e = some x →
      (x.st = .solo → ∀ r, s.twin.resync = some r →
        let done : Prop := r.source = true ∧ r.extent = e ∧ r.pass = 6 ∧ r.todo = [] ∧ r.marked = [] ∧ r.suspended = false ∧ s.copiesOut = 0
        (done → ∃ v : State, exec (.resyncExtentDone e) s = ok ((if v.twin.dirty.isEmpty then v.raise 11 else v).resyncBegin) ∧ v.twin.leases.get? e = some { x with st := .hold } ∧
          v.twin.resync = none ∧ v.twin.dirty = s.twin.dirty.filter (· != e) ∧ v.reg Reg.twResyncDone = min (s.reg Reg.twResyncDone + 1) (2 ^ 32 - 1) ∧ v.store = s.store) ∧
        (¬done → same (.resyncExtentDone e))) ∧
      (x.st = .fenced →
        let due : Prop := (x.partner = 6 ∨ x.partner = 2) ∧ x.holder = 1 - s.side
        (due → ∃ t : State, exec (.resyncExtentDone e) s = ok t ∧ t.twin.leases.get? e = some { x with st := .shadow } ∧
          (∀ d, d ≠ e → t.twin.leases.get? d = lease d) ∧ t.store = s.store ∧ ∀ r, t.twin.resync = some r → r.extent ≠ e) ∧
        (¬due → same (.resyncExtentDone e))) ∧
      (x.st ≠ .solo → x.st ≠ .fenced → same (.resyncExtentDone e))) ∧
    (let due : Prop := s.twin.recordedAt + bits (s.reg Reg.twTakeoverHold) 13 0 * 1000000 ≤ s.ran
     (due → ∃ t : State, exec .takeoverHoldExpiry s = ok t ∧ t.twin.recorded = [] ∧ t = { s with twin := { s.twin with recorded := [] } }) ∧
     (¬due → same .takeoverHoldExpiry)) ∧
    (let silent : Prop := s.twinOpen = false ∨ s.twin.lastHeard + 2000000 ≤ s.ran
     let fit (x : Lease) : Prop := x.st = .none ∨ (x.st = .fenced ∧ (silent ∨ x.partner = 1))
     ((∃ e ∈ s.twin.leases, fit e.2) → ∃ t : State, exec .witnessForm s = ok (t.setReg Reg.twWitnessResult Status.ok.code) ∧ t.store = s.store ∧
       ∀ d, (∀ x, lease d = some x → fit x → t.twin.leases.get? d = some { x with st := .hold, gen := x.gen + 1, holder := s.side }) ∧
         (∀ x, lease d = some x → ¬fit x → t.twin.leases.get? d = some x)) ∧
     ((∀ e ∈ s.twin.leases, ¬fit e.2) → exec .witnessForm s = ok (s.setReg Reg.twWitnessResult Status.unsupported.code))) ∧
    (∀ incarn, let due : Prop := (∃ e ∈ s.twin.leases, e.2.st = .lost) ∧ s.twin.partnerIncarn = some incarn
      (due → ∃ t : State, exec (.witnessConfirm incarn) s = ok (t.setReg Reg.twWitnessResult Status.ok.code) ∧ t = s.takeover (fun x => decide (x.st = .lost)) ∧
        (s.twin.shadows = [] → s.twin.holders = [] → s.twin.handed = [] → (s.twin.leases.map (·.1)).Nodup → ∀ d,
          t.twin.leases.get? d = (lease d).map fun x => if x.st = .lost then { x with st := .solo, gen := x.gen + 1, holder := s.side, before := .none, given := false } else x)) ∧
      (¬due → exec (.witnessConfirm incarn) s = ok (s.setReg Reg.twWitnessResult Status.unsupported.code))) ∧
    acts .witnessFence .ok (fun x => { x with st := .fenced, given := false })
end

