-- ==== Sys2Proof/Laws/State.lean ====
section
/-! SUPPORT. What each update of one part of the state leaves and changes: one lemma per field and update, and the laws of
sparse tables. -/

namespace Sys2Proof

/-! ### Sparse tables -/

theorem Tbl.get?_put {α : Type} (t : Tbl α) (i j : Nat) (v : α) :
    Tbl.get? (Tbl.put t i v) j = if i = j then some v else Tbl.get? t j := by
  induction t with
  | nil => simp [Tbl.put, Tbl.get?]
  | cons e t ih =>
    obtain ⟨k, w⟩ := e
    simp only [Tbl.put]
    split
    · simp [Tbl.get?]
    · split
      · rename_i _ hk; subst hk; simp only [Tbl.get?]; split <;> simp_all
      · simp only [Tbl.get?, ih]; split
        · rename_i hk hj; subst hj; simp; intro h; exact absurd h.symm hk
        · rfl

theorem Tbl.get?_update {α : Type} (t : Tbl α) (i j : Nat) (f : α → α) :
    Tbl.get? (Tbl.update t i f) j = if i = j then (Tbl.get? t i).map f else Tbl.get? t j := by
  unfold Tbl.update
  cases h : Tbl.get? t i with
  | none => simp only [Option.map_none]; split <;> simp_all
  | some v => simp [Tbl.get?_put]

theorem Tbl.get?_del {α : Type} (t : Tbl α) (i j : Nat) :
    Tbl.get? (Tbl.del t i) j = if i = j then none else Tbl.get? t j := by
  induction t with
  | nil => simp [Tbl.del, Tbl.get?]
  | cons e t ih =>
    obtain ⟨k, w⟩ := e
    simp only [Tbl.del] at ih ⊢
    by_cases h : k = i
    · subst h; simp only [List.filter, bne_self_eq_false, ih, Tbl.get?]; split <;> simp_all
    · have : (k != i) = true := by simp [h]
      simp only [List.filter, this, Tbl.get?, ih]; split
      · rename_i hk; subst hk; simp [Ne.symm h]
      · rfl

namespace Machine

/-! ### onCtl -/

@[simp] theorem State.onCtl_pending (s : State) (f : Control → Control) : (s.onCtl f).pending = s.pending := rfl
@[simp] theorem State.onCtl_free (s : State) (f : Control → Control) : (s.onCtl f).free = s.free := rfl
@[simp] theorem State.onCtl_ctl (s : State) (f : Control → Control) : (s.onCtl f).ctl = f s.ctl := rfl
@[simp] theorem State.onCtl_boot (s : State) (f : Control → Control) : (s.onCtl f).boot = s.boot := rfl
@[simp] theorem State.onCtl_time (s : State) (f : Control → Control) : (s.onCtl f).time = s.time := rfl
@[simp] theorem State.onCtl_net (s : State) (f : Control → Control) : (s.onCtl f).net = s.net := rfl
@[simp] theorem State.onCtl_store (s : State) (f : Control → Control) : (s.onCtl f).store = s.store := rfl
@[simp] theorem State.onCtl_coh (s : State) (f : Control → Control) : (s.onCtl f).coh = s.coh := rfl
@[simp] theorem State.onCtl_xlat (s : State) (f : Control → Control) : (s.onCtl f).xlat = s.xlat := rfl
@[simp] theorem State.onCtl_jobs (s : State) (f : Control → Control) : (s.onCtl f).jobs = s.jobs := rfl
@[simp] theorem State.onCtl_pal (s : State) (f : Control → Control) : (s.onCtl f).pal = s.pal := rfl
@[simp] theorem State.onCtl_sess (s : State) (f : Control → Control) : (s.onCtl f).sess = s.sess := rfl
@[simp] theorem State.onCtl_emb (s : State) (f : Control → Control) : (s.onCtl f).emb = s.emb := rfl
@[simp] theorem State.onCtl_srch (s : State) (f : Control → Control) : (s.onCtl f).srch = s.srch := rfl
@[simp] theorem State.onCtl_twin (s : State) (f : Control → Control) : (s.onCtl f).twin = s.twin := rfl
@[simp] theorem State.onCtl_ev (s : State) (f : Control → Control) : (s.onCtl f).ev = s.ev := rfl
@[simp] theorem State.onCtl_mon (s : State) (f : Control → Control) : (s.onCtl f).mon = s.mon := rfl
@[simp] theorem State.onCtl_drill (s : State) (f : Control → Control) : (s.onCtl f).drill = s.drill := rfl
@[simp] theorem State.onCtl_pwr (s : State) (f : Control → Control) : (s.onCtl f).pwr = s.pwr := rfl
@[simp] theorem State.onCtl_quiet (s : State) (f : Control → Control) : (s.onCtl f).quiet = s.quiet := rfl

/-! ### onBoot -/

@[simp] theorem State.onBoot_pending (s : State) (f : Boot → Boot) : (s.onBoot f).pending = s.pending := rfl
@[simp] theorem State.onBoot_free (s : State) (f : Boot → Boot) : (s.onBoot f).free = s.free := rfl
@[simp] theorem State.onBoot_ctl (s : State) (f : Boot → Boot) : (s.onBoot f).ctl = s.ctl := rfl
@[simp] theorem State.onBoot_boot (s : State) (f : Boot → Boot) : (s.onBoot f).boot = f s.boot := rfl
@[simp] theorem State.onBoot_time (s : State) (f : Boot → Boot) : (s.onBoot f).time = s.time := rfl
@[simp] theorem State.onBoot_net (s : State) (f : Boot → Boot) : (s.onBoot f).net = s.net := rfl
@[simp] theorem State.onBoot_store (s : State) (f : Boot → Boot) : (s.onBoot f).store = s.store := rfl
@[simp] theorem State.onBoot_coh (s : State) (f : Boot → Boot) : (s.onBoot f).coh = s.coh := rfl
@[simp] theorem State.onBoot_xlat (s : State) (f : Boot → Boot) : (s.onBoot f).xlat = s.xlat := rfl
@[simp] theorem State.onBoot_jobs (s : State) (f : Boot → Boot) : (s.onBoot f).jobs = s.jobs := rfl
@[simp] theorem State.onBoot_pal (s : State) (f : Boot → Boot) : (s.onBoot f).pal = s.pal := rfl
@[simp] theorem State.onBoot_sess (s : State) (f : Boot → Boot) : (s.onBoot f).sess = s.sess := rfl
@[simp] theorem State.onBoot_emb (s : State) (f : Boot → Boot) : (s.onBoot f).emb = s.emb := rfl
@[simp] theorem State.onBoot_srch (s : State) (f : Boot → Boot) : (s.onBoot f).srch = s.srch := rfl
@[simp] theorem State.onBoot_twin (s : State) (f : Boot → Boot) : (s.onBoot f).twin = s.twin := rfl
@[simp] theorem State.onBoot_ev (s : State) (f : Boot → Boot) : (s.onBoot f).ev = s.ev := rfl
@[simp] theorem State.onBoot_mon (s : State) (f : Boot → Boot) : (s.onBoot f).mon = s.mon := rfl
@[simp] theorem State.onBoot_drill (s : State) (f : Boot → Boot) : (s.onBoot f).drill = s.drill := rfl
@[simp] theorem State.onBoot_pwr (s : State) (f : Boot → Boot) : (s.onBoot f).pwr = s.pwr := rfl
@[simp] theorem State.onBoot_quiet (s : State) (f : Boot → Boot) : (s.onBoot f).quiet = s.quiet := rfl

/-! ### onTime -/

@[simp] theorem State.onTime_pending (s : State) (f : TimeBase → TimeBase) : (s.onTime f).pending = s.pending := rfl
@[simp] theorem State.onTime_free (s : State) (f : TimeBase → TimeBase) : (s.onTime f).free = s.free := rfl
@[simp] theorem State.onTime_ctl (s : State) (f : TimeBase → TimeBase) : (s.onTime f).ctl = s.ctl := rfl
@[simp] theorem State.onTime_boot (s : State) (f : TimeBase → TimeBase) : (s.onTime f).boot = s.boot := rfl
@[simp] theorem State.onTime_time (s : State) (f : TimeBase → TimeBase) : (s.onTime f).time = f s.time := rfl
@[simp] theorem State.onTime_net (s : State) (f : TimeBase → TimeBase) : (s.onTime f).net = s.net := rfl
@[simp] theorem State.onTime_store (s : State) (f : TimeBase → TimeBase) : (s.onTime f).store = s.store := rfl
@[simp] theorem State.onTime_coh (s : State) (f : TimeBase → TimeBase) : (s.onTime f).coh = s.coh := rfl
@[simp] theorem State.onTime_xlat (s : State) (f : TimeBase → TimeBase) : (s.onTime f).xlat = s.xlat := rfl
@[simp] theorem State.onTime_jobs (s : State) (f : TimeBase → TimeBase) : (s.onTime f).jobs = s.jobs := rfl
@[simp] theorem State.onTime_pal (s : State) (f : TimeBase → TimeBase) : (s.onTime f).pal = s.pal := rfl
@[simp] theorem State.onTime_sess (s : State) (f : TimeBase → TimeBase) : (s.onTime f).sess = s.sess := rfl
@[simp] theorem State.onTime_emb (s : State) (f : TimeBase → TimeBase) : (s.onTime f).emb = s.emb := rfl
@[simp] theorem State.onTime_srch (s : State) (f : TimeBase → TimeBase) : (s.onTime f).srch = s.srch := rfl
@[simp] theorem State.onTime_twin (s : State) (f : TimeBase → TimeBase) : (s.onTime f).twin = s.twin := rfl
@[simp] theorem State.onTime_ev (s : State) (f : TimeBase → TimeBase) : (s.onTime f).ev = s.ev := rfl
@[simp] theorem State.onTime_mon (s : State) (f : TimeBase → TimeBase) : (s.onTime f).mon = s.mon := rfl
@[simp] theorem State.onTime_drill (s : State) (f : TimeBase → TimeBase) : (s.onTime f).drill = s.drill := rfl
@[simp] theorem State.onTime_pwr (s : State) (f : TimeBase → TimeBase) : (s.onTime f).pwr = s.pwr := rfl
@[simp] theorem State.onTime_quiet (s : State) (f : TimeBase → TimeBase) : (s.onTime f).quiet = s.quiet := rfl

/-! ### onNet -/

@[simp] theorem State.onNet_pending (s : State) (f : Net → Net) : (s.onNet f).pending = s.pending := rfl
@[simp] theorem State.onNet_free (s : State) (f : Net → Net) : (s.onNet f).free = s.free := rfl
@[simp] theorem State.onNet_ctl (s : State) (f : Net → Net) : (s.onNet f).ctl = s.ctl := rfl
@[simp] theorem State.onNet_boot (s : State) (f : Net → Net) : (s.onNet f).boot = s.boot := rfl
@[simp] theorem State.onNet_time (s : State) (f : Net → Net) : (s.onNet f).time = s.time := rfl
@[simp] theorem State.onNet_net (s : State) (f : Net → Net) : (s.onNet f).net = f s.net := rfl
@[simp] theorem State.onNet_store (s : State) (f : Net → Net) : (s.onNet f).store = s.store := rfl
@[simp] theorem State.onNet_coh (s : State) (f : Net → Net) : (s.onNet f).coh = s.coh := rfl
@[simp] theorem State.onNet_xlat (s : State) (f : Net → Net) : (s.onNet f).xlat = s.xlat := rfl
@[simp] theorem State.onNet_jobs (s : State) (f : Net → Net) : (s.onNet f).jobs = s.jobs := rfl
@[simp] theorem State.onNet_pal (s : State) (f : Net → Net) : (s.onNet f).pal = s.pal := rfl
@[simp] theorem State.onNet_sess (s : State) (f : Net → Net) : (s.onNet f).sess = s.sess := rfl
@[simp] theorem State.onNet_emb (s : State) (f : Net → Net) : (s.onNet f).emb = s.emb := rfl
@[simp] theorem State.onNet_srch (s : State) (f : Net → Net) : (s.onNet f).srch = s.srch := rfl
@[simp] theorem State.onNet_twin (s : State) (f : Net → Net) : (s.onNet f).twin = s.twin := rfl
@[simp] theorem State.onNet_ev (s : State) (f : Net → Net) : (s.onNet f).ev = s.ev := rfl
@[simp] theorem State.onNet_mon (s : State) (f : Net → Net) : (s.onNet f).mon = s.mon := rfl
@[simp] theorem State.onNet_drill (s : State) (f : Net → Net) : (s.onNet f).drill = s.drill := rfl
@[simp] theorem State.onNet_pwr (s : State) (f : Net → Net) : (s.onNet f).pwr = s.pwr := rfl
@[simp] theorem State.onNet_quiet (s : State) (f : Net → Net) : (s.onNet f).quiet = s.quiet := rfl

/-! ### onStore -/

@[simp] theorem State.onStore_pending (s : State) (f : Store → Store) : (s.onStore f).pending = s.pending := rfl
@[simp] theorem State.onStore_free (s : State) (f : Store → Store) : (s.onStore f).free = s.free := rfl
@[simp] theorem State.onStore_ctl (s : State) (f : Store → Store) : (s.onStore f).ctl = s.ctl := rfl
@[simp] theorem State.onStore_boot (s : State) (f : Store → Store) : (s.onStore f).boot = s.boot := rfl
@[simp] theorem State.onStore_time (s : State) (f : Store → Store) : (s.onStore f).time = s.time := rfl
@[simp] theorem State.onStore_net (s : State) (f : Store → Store) : (s.onStore f).net = s.net := rfl
@[simp] theorem State.onStore_store (s : State) (f : Store → Store) : (s.onStore f).store = f s.store := rfl
@[simp] theorem State.onStore_coh (s : State) (f : Store → Store) : (s.onStore f).coh = s.coh := rfl
@[simp] theorem State.onStore_xlat (s : State) (f : Store → Store) : (s.onStore f).xlat = s.xlat := rfl
@[simp] theorem State.onStore_jobs (s : State) (f : Store → Store) : (s.onStore f).jobs = s.jobs := rfl
@[simp] theorem State.onStore_pal (s : State) (f : Store → Store) : (s.onStore f).pal = s.pal := rfl
@[simp] theorem State.onStore_sess (s : State) (f : Store → Store) : (s.onStore f).sess = s.sess := rfl
@[simp] theorem State.onStore_emb (s : State) (f : Store → Store) : (s.onStore f).emb = s.emb := rfl
@[simp] theorem State.onStore_srch (s : State) (f : Store → Store) : (s.onStore f).srch = s.srch := rfl
@[simp] theorem State.onStore_twin (s : State) (f : Store → Store) : (s.onStore f).twin = s.twin := rfl
@[simp] theorem State.onStore_ev (s : State) (f : Store → Store) : (s.onStore f).ev = s.ev := rfl
@[simp] theorem State.onStore_mon (s : State) (f : Store → Store) : (s.onStore f).mon = s.mon := rfl
@[simp] theorem State.onStore_drill (s : State) (f : Store → Store) : (s.onStore f).drill = s.drill := rfl
@[simp] theorem State.onStore_pwr (s : State) (f : Store → Store) : (s.onStore f).pwr = s.pwr := rfl
@[simp] theorem State.onStore_quiet (s : State) (f : Store → Store) : (s.onStore f).quiet = s.quiet := rfl

/-! ### onCoh -/

@[simp] theorem State.onCoh_pending (s : State) (f : Coherence → Coherence) : (s.onCoh f).pending = s.pending := rfl
@[simp] theorem State.onCoh_free (s : State) (f : Coherence → Coherence) : (s.onCoh f).free = s.free := rfl
@[simp] theorem State.onCoh_ctl (s : State) (f : Coherence → Coherence) : (s.onCoh f).ctl = s.ctl := rfl
@[simp] theorem State.onCoh_boot (s : State) (f : Coherence → Coherence) : (s.onCoh f).boot = s.boot := rfl
@[simp] theorem State.onCoh_time (s : State) (f : Coherence → Coherence) : (s.onCoh f).time = s.time := rfl
@[simp] theorem State.onCoh_net (s : State) (f : Coherence → Coherence) : (s.onCoh f).net = s.net := rfl
@[simp] theorem State.onCoh_store (s : State) (f : Coherence → Coherence) : (s.onCoh f).store = s.store := rfl
@[simp] theorem State.onCoh_coh (s : State) (f : Coherence → Coherence) : (s.onCoh f).coh = f s.coh := rfl
@[simp] theorem State.onCoh_xlat (s : State) (f : Coherence → Coherence) : (s.onCoh f).xlat = s.xlat := rfl
@[simp] theorem State.onCoh_jobs (s : State) (f : Coherence → Coherence) : (s.onCoh f).jobs = s.jobs := rfl
@[simp] theorem State.onCoh_pal (s : State) (f : Coherence → Coherence) : (s.onCoh f).pal = s.pal := rfl
@[simp] theorem State.onCoh_sess (s : State) (f : Coherence → Coherence) : (s.onCoh f).sess = s.sess := rfl
@[simp] theorem State.onCoh_emb (s : State) (f : Coherence → Coherence) : (s.onCoh f).emb = s.emb := rfl
@[simp] theorem State.onCoh_srch (s : State) (f : Coherence → Coherence) : (s.onCoh f).srch = s.srch := rfl
@[simp] theorem State.onCoh_twin (s : State) (f : Coherence → Coherence) : (s.onCoh f).twin = s.twin := rfl
@[simp] theorem State.onCoh_ev (s : State) (f : Coherence → Coherence) : (s.onCoh f).ev = s.ev := rfl
@[simp] theorem State.onCoh_mon (s : State) (f : Coherence → Coherence) : (s.onCoh f).mon = s.mon := rfl
@[simp] theorem State.onCoh_drill (s : State) (f : Coherence → Coherence) : (s.onCoh f).drill = s.drill := rfl
@[simp] theorem State.onCoh_pwr (s : State) (f : Coherence → Coherence) : (s.onCoh f).pwr = s.pwr := rfl
@[simp] theorem State.onCoh_quiet (s : State) (f : Coherence → Coherence) : (s.onCoh f).quiet = s.quiet := rfl

/-! ### onXlat -/

@[simp] theorem State.onXlat_pending (s : State) (f : Xlat → Xlat) : (s.onXlat f).pending = s.pending := rfl
@[simp] theorem State.onXlat_free (s : State) (f : Xlat → Xlat) : (s.onXlat f).free = s.free := rfl
@[simp] theorem State.onXlat_ctl (s : State) (f : Xlat → Xlat) : (s.onXlat f).ctl = s.ctl := rfl
@[simp] theorem State.onXlat_boot (s : State) (f : Xlat → Xlat) : (s.onXlat f).boot = s.boot := rfl
@[simp] theorem State.onXlat_time (s : State) (f : Xlat → Xlat) : (s.onXlat f).time = s.time := rfl
@[simp] theorem State.onXlat_net (s : State) (f : Xlat → Xlat) : (s.onXlat f).net = s.net := rfl
@[simp] theorem State.onXlat_store (s : State) (f : Xlat → Xlat) : (s.onXlat f).store = s.store := rfl
@[simp] theorem State.onXlat_coh (s : State) (f : Xlat → Xlat) : (s.onXlat f).coh = s.coh := rfl
@[simp] theorem State.onXlat_xlat (s : State) (f : Xlat → Xlat) : (s.onXlat f).xlat = f s.xlat := rfl
@[simp] theorem State.onXlat_jobs (s : State) (f : Xlat → Xlat) : (s.onXlat f).jobs = s.jobs := rfl
@[simp] theorem State.onXlat_pal (s : State) (f : Xlat → Xlat) : (s.onXlat f).pal = s.pal := rfl
@[simp] theorem State.onXlat_sess (s : State) (f : Xlat → Xlat) : (s.onXlat f).sess = s.sess := rfl
@[simp] theorem State.onXlat_emb (s : State) (f : Xlat → Xlat) : (s.onXlat f).emb = s.emb := rfl
@[simp] theorem State.onXlat_srch (s : State) (f : Xlat → Xlat) : (s.onXlat f).srch = s.srch := rfl
@[simp] theorem State.onXlat_twin (s : State) (f : Xlat → Xlat) : (s.onXlat f).twin = s.twin := rfl
@[simp] theorem State.onXlat_ev (s : State) (f : Xlat → Xlat) : (s.onXlat f).ev = s.ev := rfl
@[simp] theorem State.onXlat_mon (s : State) (f : Xlat → Xlat) : (s.onXlat f).mon = s.mon := rfl
@[simp] theorem State.onXlat_drill (s : State) (f : Xlat → Xlat) : (s.onXlat f).drill = s.drill := rfl
@[simp] theorem State.onXlat_pwr (s : State) (f : Xlat → Xlat) : (s.onXlat f).pwr = s.pwr := rfl
@[simp] theorem State.onXlat_quiet (s : State) (f : Xlat → Xlat) : (s.onXlat f).quiet = s.quiet := rfl

/-! ### onJobs -/

@[simp] theorem State.onJobs_pending (s : State) (f : Jobs → Jobs) : (s.onJobs f).pending = s.pending := rfl
@[simp] theorem State.onJobs_free (s : State) (f : Jobs → Jobs) : (s.onJobs f).free = s.free := rfl
@[simp] theorem State.onJobs_ctl (s : State) (f : Jobs → Jobs) : (s.onJobs f).ctl = s.ctl := rfl
@[simp] theorem State.onJobs_boot (s : State) (f : Jobs → Jobs) : (s.onJobs f).boot = s.boot := rfl
@[simp] theorem State.onJobs_time (s : State) (f : Jobs → Jobs) : (s.onJobs f).time = s.time := rfl
@[simp] theorem State.onJobs_net (s : State) (f : Jobs → Jobs) : (s.onJobs f).net = s.net := rfl
@[simp] theorem State.onJobs_store (s : State) (f : Jobs → Jobs) : (s.onJobs f).store = s.store := rfl
@[simp] theorem State.onJobs_coh (s : State) (f : Jobs → Jobs) : (s.onJobs f).coh = s.coh := rfl
@[simp] theorem State.onJobs_xlat (s : State) (f : Jobs → Jobs) : (s.onJobs f).xlat = s.xlat := rfl
@[simp] theorem State.onJobs_jobs (s : State) (f : Jobs → Jobs) : (s.onJobs f).jobs = f s.jobs := rfl
@[simp] theorem State.onJobs_pal (s : State) (f : Jobs → Jobs) : (s.onJobs f).pal = s.pal := rfl
@[simp] theorem State.onJobs_sess (s : State) (f : Jobs → Jobs) : (s.onJobs f).sess = s.sess := rfl
@[simp] theorem State.onJobs_emb (s : State) (f : Jobs → Jobs) : (s.onJobs f).emb = s.emb := rfl
@[simp] theorem State.onJobs_srch (s : State) (f : Jobs → Jobs) : (s.onJobs f).srch = s.srch := rfl
@[simp] theorem State.onJobs_twin (s : State) (f : Jobs → Jobs) : (s.onJobs f).twin = s.twin := rfl
@[simp] theorem State.onJobs_ev (s : State) (f : Jobs → Jobs) : (s.onJobs f).ev = s.ev := rfl
@[simp] theorem State.onJobs_mon (s : State) (f : Jobs → Jobs) : (s.onJobs f).mon = s.mon := rfl
@[simp] theorem State.onJobs_drill (s : State) (f : Jobs → Jobs) : (s.onJobs f).drill = s.drill := rfl
@[simp] theorem State.onJobs_pwr (s : State) (f : Jobs → Jobs) : (s.onJobs f).pwr = s.pwr := rfl
@[simp] theorem State.onJobs_quiet (s : State) (f : Jobs → Jobs) : (s.onJobs f).quiet = s.quiet := rfl

/-! ### onPal -/

@[simp] theorem State.onPal_pending (s : State) (f : Palettes → Palettes) : (s.onPal f).pending = s.pending := rfl
@[simp] theorem State.onPal_free (s : State) (f : Palettes → Palettes) : (s.onPal f).free = s.free := rfl
@[simp] theorem State.onPal_ctl (s : State) (f : Palettes → Palettes) : (s.onPal f).ctl = s.ctl := rfl
@[simp] theorem State.onPal_boot (s : State) (f : Palettes → Palettes) : (s.onPal f).boot = s.boot := rfl
@[simp] theorem State.onPal_time (s : State) (f : Palettes → Palettes) : (s.onPal f).time = s.time := rfl
@[simp] theorem State.onPal_net (s : State) (f : Palettes → Palettes) : (s.onPal f).net = s.net := rfl
@[simp] theorem State.onPal_store (s : State) (f : Palettes → Palettes) : (s.onPal f).store = s.store := rfl
@[simp] theorem State.onPal_coh (s : State) (f : Palettes → Palettes) : (s.onPal f).coh = s.coh := rfl
@[simp] theorem State.onPal_xlat (s : State) (f : Palettes → Palettes) : (s.onPal f).xlat = s.xlat := rfl
@[simp] theorem State.onPal_jobs (s : State) (f : Palettes → Palettes) : (s.onPal f).jobs = s.jobs := rfl
@[simp] theorem State.onPal_pal (s : State) (f : Palettes → Palettes) : (s.onPal f).pal = f s.pal := rfl
@[simp] theorem State.onPal_sess (s : State) (f : Palettes → Palettes) : (s.onPal f).sess = s.sess := rfl
@[simp] theorem State.onPal_emb (s : State) (f : Palettes → Palettes) : (s.onPal f).emb = s.emb := rfl
@[simp] theorem State.onPal_srch (s : State) (f : Palettes → Palettes) : (s.onPal f).srch = s.srch := rfl
@[simp] theorem State.onPal_twin (s : State) (f : Palettes → Palettes) : (s.onPal f).twin = s.twin := rfl
@[simp] theorem State.onPal_ev (s : State) (f : Palettes → Palettes) : (s.onPal f).ev = s.ev := rfl
@[simp] theorem State.onPal_mon (s : State) (f : Palettes → Palettes) : (s.onPal f).mon = s.mon := rfl
@[simp] theorem State.onPal_drill (s : State) (f : Palettes → Palettes) : (s.onPal f).drill = s.drill := rfl
@[simp] theorem State.onPal_pwr (s : State) (f : Palettes → Palettes) : (s.onPal f).pwr = s.pwr := rfl
@[simp] theorem State.onPal_quiet (s : State) (f : Palettes → Palettes) : (s.onPal f).quiet = s.quiet := rfl

/-! ### onSess -/

@[simp] theorem State.onSess_pending (s : State) (f : Tbl Session → Tbl Session) : (s.onSess f).pending = s.pending := rfl
@[simp] theorem State.onSess_free (s : State) (f : Tbl Session → Tbl Session) : (s.onSess f).free = s.free := rfl
@[simp] theorem State.onSess_ctl (s : State) (f : Tbl Session → Tbl Session) : (s.onSess f).ctl = s.ctl := rfl
@[simp] theorem State.onSess_boot (s : State) (f : Tbl Session → Tbl Session) : (s.onSess f).boot = s.boot := rfl
@[simp] theorem State.onSess_time (s : State) (f : Tbl Session → Tbl Session) : (s.onSess f).time = s.time := rfl
@[simp] theorem State.onSess_net (s : State) (f : Tbl Session → Tbl Session) : (s.onSess f).net = s.net := rfl
@[simp] theorem State.onSess_store (s : State) (f : Tbl Session → Tbl Session) : (s.onSess f).store = s.store := rfl
@[simp] theorem State.onSess_coh (s : State) (f : Tbl Session → Tbl Session) : (s.onSess f).coh = s.coh := rfl
@[simp] theorem State.onSess_xlat (s : State) (f : Tbl Session → Tbl Session) : (s.onSess f).xlat = s.xlat := rfl
@[simp] theorem State.onSess_jobs (s : State) (f : Tbl Session → Tbl Session) : (s.onSess f).jobs = s.jobs := rfl
@[simp] theorem State.onSess_pal (s : State) (f : Tbl Session → Tbl Session) : (s.onSess f).pal = s.pal := rfl
@[simp] theorem State.onSess_sess (s : State) (f : Tbl Session → Tbl Session) : (s.onSess f).sess = f s.sess := rfl
@[simp] theorem State.onSess_emb (s : State) (f : Tbl Session → Tbl Session) : (s.onSess f).emb = s.emb := rfl
@[simp] theorem State.onSess_srch (s : State) (f : Tbl Session → Tbl Session) : (s.onSess f).srch = s.srch := rfl
@[simp] theorem State.onSess_twin (s : State) (f : Tbl Session → Tbl Session) : (s.onSess f).twin = s.twin := rfl
@[simp] theorem State.onSess_ev (s : State) (f : Tbl Session → Tbl Session) : (s.onSess f).ev = s.ev := rfl
@[simp] theorem State.onSess_mon (s : State) (f : Tbl Session → Tbl Session) : (s.onSess f).mon = s.mon := rfl
@[simp] theorem State.onSess_drill (s : State) (f : Tbl Session → Tbl Session) : (s.onSess f).drill = s.drill := rfl
@[simp] theorem State.onSess_pwr (s : State) (f : Tbl Session → Tbl Session) : (s.onSess f).pwr = s.pwr := rfl
@[simp] theorem State.onSess_quiet (s : State) (f : Tbl Session → Tbl Session) : (s.onSess f).quiet = s.quiet := rfl

/-! ### onEmb -/

@[simp] theorem State.onEmb_pending (s : State) (f : Embeddings → Embeddings) : (s.onEmb f).pending = s.pending := rfl
@[simp] theorem State.onEmb_free (s : State) (f : Embeddings → Embeddings) : (s.onEmb f).free = s.free := rfl
@[simp] theorem State.onEmb_ctl (s : State) (f : Embeddings → Embeddings) : (s.onEmb f).ctl = s.ctl := rfl
@[simp] theorem State.onEmb_boot (s : State) (f : Embeddings → Embeddings) : (s.onEmb f).boot = s.boot := rfl
@[simp] theorem State.onEmb_time (s : State) (f : Embeddings → Embeddings) : (s.onEmb f).time = s.time := rfl
@[simp] theorem State.onEmb_net (s : State) (f : Embeddings → Embeddings) : (s.onEmb f).net = s.net := rfl
@[simp] theorem State.onEmb_store (s : State) (f : Embeddings → Embeddings) : (s.onEmb f).store = s.store := rfl
@[simp] theorem State.onEmb_coh (s : State) (f : Embeddings → Embeddings) : (s.onEmb f).coh = s.coh := rfl
@[simp] theorem State.onEmb_xlat (s : State) (f : Embeddings → Embeddings) : (s.onEmb f).xlat = s.xlat := rfl
@[simp] theorem State.onEmb_jobs (s : State) (f : Embeddings → Embeddings) : (s.onEmb f).jobs = s.jobs := rfl
@[simp] theorem State.onEmb_pal (s : State) (f : Embeddings → Embeddings) : (s.onEmb f).pal = s.pal := rfl
@[simp] theorem State.onEmb_sess (s : State) (f : Embeddings → Embeddings) : (s.onEmb f).sess = s.sess := rfl
@[simp] theorem State.onEmb_emb (s : State) (f : Embeddings → Embeddings) : (s.onEmb f).emb = f s.emb := rfl
@[simp] theorem State.onEmb_srch (s : State) (f : Embeddings → Embeddings) : (s.onEmb f).srch = s.srch := rfl
@[simp] theorem State.onEmb_twin (s : State) (f : Embeddings → Embeddings) : (s.onEmb f).twin = s.twin := rfl
@[simp] theorem State.onEmb_ev (s : State) (f : Embeddings → Embeddings) : (s.onEmb f).ev = s.ev := rfl
@[simp] theorem State.onEmb_mon (s : State) (f : Embeddings → Embeddings) : (s.onEmb f).mon = s.mon := rfl
@[simp] theorem State.onEmb_drill (s : State) (f : Embeddings → Embeddings) : (s.onEmb f).drill = s.drill := rfl
@[simp] theorem State.onEmb_pwr (s : State) (f : Embeddings → Embeddings) : (s.onEmb f).pwr = s.pwr := rfl
@[simp] theorem State.onEmb_quiet (s : State) (f : Embeddings → Embeddings) : (s.onEmb f).quiet = s.quiet := rfl

/-! ### onSrch -/

@[simp] theorem State.onSrch_pending (s : State) (f : Searches → Searches) : (s.onSrch f).pending = s.pending := rfl
@[simp] theorem State.onSrch_free (s : State) (f : Searches → Searches) : (s.onSrch f).free = s.free := rfl
@[simp] theorem State.onSrch_ctl (s : State) (f : Searches → Searches) : (s.onSrch f).ctl = s.ctl := rfl
@[simp] theorem State.onSrch_boot (s : State) (f : Searches → Searches) : (s.onSrch f).boot = s.boot := rfl
@[simp] theorem State.onSrch_time (s : State) (f : Searches → Searches) : (s.onSrch f).time = s.time := rfl
@[simp] theorem State.onSrch_net (s : State) (f : Searches → Searches) : (s.onSrch f).net = s.net := rfl
@[simp] theorem State.onSrch_store (s : State) (f : Searches → Searches) : (s.onSrch f).store = s.store := rfl
@[simp] theorem State.onSrch_coh (s : State) (f : Searches → Searches) : (s.onSrch f).coh = s.coh := rfl
@[simp] theorem State.onSrch_xlat (s : State) (f : Searches → Searches) : (s.onSrch f).xlat = s.xlat := rfl
@[simp] theorem State.onSrch_jobs (s : State) (f : Searches → Searches) : (s.onSrch f).jobs = s.jobs := rfl
@[simp] theorem State.onSrch_pal (s : State) (f : Searches → Searches) : (s.onSrch f).pal = s.pal := rfl
@[simp] theorem State.onSrch_sess (s : State) (f : Searches → Searches) : (s.onSrch f).sess = s.sess := rfl
@[simp] theorem State.onSrch_emb (s : State) (f : Searches → Searches) : (s.onSrch f).emb = s.emb := rfl
@[simp] theorem State.onSrch_srch (s : State) (f : Searches → Searches) : (s.onSrch f).srch = f s.srch := rfl
@[simp] theorem State.onSrch_twin (s : State) (f : Searches → Searches) : (s.onSrch f).twin = s.twin := rfl
@[simp] theorem State.onSrch_ev (s : State) (f : Searches → Searches) : (s.onSrch f).ev = s.ev := rfl
@[simp] theorem State.onSrch_mon (s : State) (f : Searches → Searches) : (s.onSrch f).mon = s.mon := rfl
@[simp] theorem State.onSrch_drill (s : State) (f : Searches → Searches) : (s.onSrch f).drill = s.drill := rfl
@[simp] theorem State.onSrch_pwr (s : State) (f : Searches → Searches) : (s.onSrch f).pwr = s.pwr := rfl
@[simp] theorem State.onSrch_quiet (s : State) (f : Searches → Searches) : (s.onSrch f).quiet = s.quiet := rfl

/-! ### onTwin -/

@[simp] theorem State.onTwin_pending (s : State) (f : Twin → Twin) : (s.onTwin f).pending = s.pending := rfl
@[simp] theorem State.onTwin_free (s : State) (f : Twin → Twin) : (s.onTwin f).free = s.free := rfl
@[simp] theorem State.onTwin_ctl (s : State) (f : Twin → Twin) : (s.onTwin f).ctl = s.ctl := rfl
@[simp] theorem State.onTwin_boot (s : State) (f : Twin → Twin) : (s.onTwin f).boot = s.boot := rfl
@[simp] theorem State.onTwin_time (s : State) (f : Twin → Twin) : (s.onTwin f).time = s.time := rfl
@[simp] theorem State.onTwin_net (s : State) (f : Twin → Twin) : (s.onTwin f).net = s.net := rfl
@[simp] theorem State.onTwin_store (s : State) (f : Twin → Twin) : (s.onTwin f).store = s.store := rfl
@[simp] theorem State.onTwin_coh (s : State) (f : Twin → Twin) : (s.onTwin f).coh = s.coh := rfl
@[simp] theorem State.onTwin_xlat (s : State) (f : Twin → Twin) : (s.onTwin f).xlat = s.xlat := rfl
@[simp] theorem State.onTwin_jobs (s : State) (f : Twin → Twin) : (s.onTwin f).jobs = s.jobs := rfl
@[simp] theorem State.onTwin_pal (s : State) (f : Twin → Twin) : (s.onTwin f).pal = s.pal := rfl
@[simp] theorem State.onTwin_sess (s : State) (f : Twin → Twin) : (s.onTwin f).sess = s.sess := rfl
@[simp] theorem State.onTwin_emb (s : State) (f : Twin → Twin) : (s.onTwin f).emb = s.emb := rfl
@[simp] theorem State.onTwin_srch (s : State) (f : Twin → Twin) : (s.onTwin f).srch = s.srch := rfl
@[simp] theorem State.onTwin_twin (s : State) (f : Twin → Twin) : (s.onTwin f).twin = f s.twin := rfl
@[simp] theorem State.onTwin_ev (s : State) (f : Twin → Twin) : (s.onTwin f).ev = s.ev := rfl
@[simp] theorem State.onTwin_mon (s : State) (f : Twin → Twin) : (s.onTwin f).mon = s.mon := rfl
@[simp] theorem State.onTwin_drill (s : State) (f : Twin → Twin) : (s.onTwin f).drill = s.drill := rfl
@[simp] theorem State.onTwin_pwr (s : State) (f : Twin → Twin) : (s.onTwin f).pwr = s.pwr := rfl
@[simp] theorem State.onTwin_quiet (s : State) (f : Twin → Twin) : (s.onTwin f).quiet = s.quiet := rfl

/-! ### onEv -/

@[simp] theorem State.onEv_pending (s : State) (f : Events → Events) : (s.onEv f).pending = s.pending := rfl
@[simp] theorem State.onEv_free (s : State) (f : Events → Events) : (s.onEv f).free = s.free := rfl
@[simp] theorem State.onEv_ctl (s : State) (f : Events → Events) : (s.onEv f).ctl = s.ctl := rfl
@[simp] theorem State.onEv_boot (s : State) (f : Events → Events) : (s.onEv f).boot = s.boot := rfl
@[simp] theorem State.onEv_time (s : State) (f : Events → Events) : (s.onEv f).time = s.time := rfl
@[simp] theorem State.onEv_net (s : State) (f : Events → Events) : (s.onEv f).net = s.net := rfl
@[simp] theorem State.onEv_store (s : State) (f : Events → Events) : (s.onEv f).store = s.store := rfl
@[simp] theorem State.onEv_coh (s : State) (f : Events → Events) : (s.onEv f).coh = s.coh := rfl
@[simp] theorem State.onEv_xlat (s : State) (f : Events → Events) : (s.onEv f).xlat = s.xlat := rfl
@[simp] theorem State.onEv_jobs (s : State) (f : Events → Events) : (s.onEv f).jobs = s.jobs := rfl
@[simp] theorem State.onEv_pal (s : State) (f : Events → Events) : (s.onEv f).pal = s.pal := rfl
@[simp] theorem State.onEv_sess (s : State) (f : Events → Events) : (s.onEv f).sess = s.sess := rfl
@[simp] theorem State.onEv_emb (s : State) (f : Events → Events) : (s.onEv f).emb = s.emb := rfl
@[simp] theorem State.onEv_srch (s : State) (f : Events → Events) : (s.onEv f).srch = s.srch := rfl
@[simp] theorem State.onEv_twin (s : State) (f : Events → Events) : (s.onEv f).twin = s.twin := rfl
@[simp] theorem State.onEv_ev (s : State) (f : Events → Events) : (s.onEv f).ev = f s.ev := rfl
@[simp] theorem State.onEv_mon (s : State) (f : Events → Events) : (s.onEv f).mon = s.mon := rfl
@[simp] theorem State.onEv_drill (s : State) (f : Events → Events) : (s.onEv f).drill = s.drill := rfl
@[simp] theorem State.onEv_pwr (s : State) (f : Events → Events) : (s.onEv f).pwr = s.pwr := rfl
@[simp] theorem State.onEv_quiet (s : State) (f : Events → Events) : (s.onEv f).quiet = s.quiet := rfl

/-! ### onMon -/

@[simp] theorem State.onMon_pending (s : State) (f : Tbl MonSlot → Tbl MonSlot) : (s.onMon f).pending = s.pending := rfl
@[simp] theorem State.onMon_free (s : State) (f : Tbl MonSlot → Tbl MonSlot) : (s.onMon f).free = s.free := rfl
@[simp] theorem State.onMon_ctl (s : State) (f : Tbl MonSlot → Tbl MonSlot) : (s.onMon f).ctl = s.ctl := rfl
@[simp] theorem State.onMon_boot (s : State) (f : Tbl MonSlot → Tbl MonSlot) : (s.onMon f).boot = s.boot := rfl
@[simp] theorem State.onMon_time (s : State) (f : Tbl MonSlot → Tbl MonSlot) : (s.onMon f).time = s.time := rfl
@[simp] theorem State.onMon_net (s : State) (f : Tbl MonSlot → Tbl MonSlot) : (s.onMon f).net = s.net := rfl
@[simp] theorem State.onMon_store (s : State) (f : Tbl MonSlot → Tbl MonSlot) : (s.onMon f).store = s.store := rfl
@[simp] theorem State.onMon_coh (s : State) (f : Tbl MonSlot → Tbl MonSlot) : (s.onMon f).coh = s.coh := rfl
@[simp] theorem State.onMon_xlat (s : State) (f : Tbl MonSlot → Tbl MonSlot) : (s.onMon f).xlat = s.xlat := rfl
@[simp] theorem State.onMon_jobs (s : State) (f : Tbl MonSlot → Tbl MonSlot) : (s.onMon f).jobs = s.jobs := rfl
@[simp] theorem State.onMon_pal (s : State) (f : Tbl MonSlot → Tbl MonSlot) : (s.onMon f).pal = s.pal := rfl
@[simp] theorem State.onMon_sess (s : State) (f : Tbl MonSlot → Tbl MonSlot) : (s.onMon f).sess = s.sess := rfl
@[simp] theorem State.onMon_emb (s : State) (f : Tbl MonSlot → Tbl MonSlot) : (s.onMon f).emb = s.emb := rfl
@[simp] theorem State.onMon_srch (s : State) (f : Tbl MonSlot → Tbl MonSlot) : (s.onMon f).srch = s.srch := rfl
@[simp] theorem State.onMon_twin (s : State) (f : Tbl MonSlot → Tbl MonSlot) : (s.onMon f).twin = s.twin := rfl
@[simp] theorem State.onMon_ev (s : State) (f : Tbl MonSlot → Tbl MonSlot) : (s.onMon f).ev = s.ev := rfl
@[simp] theorem State.onMon_mon (s : State) (f : Tbl MonSlot → Tbl MonSlot) : (s.onMon f).mon = f s.mon := rfl
@[simp] theorem State.onMon_drill (s : State) (f : Tbl MonSlot → Tbl MonSlot) : (s.onMon f).drill = s.drill := rfl
@[simp] theorem State.onMon_pwr (s : State) (f : Tbl MonSlot → Tbl MonSlot) : (s.onMon f).pwr = s.pwr := rfl
@[simp] theorem State.onMon_quiet (s : State) (f : Tbl MonSlot → Tbl MonSlot) : (s.onMon f).quiet = s.quiet := rfl

/-! ### onDrill -/

@[simp] theorem State.onDrill_pending (s : State) (f : Drill → Drill) : (s.onDrill f).pending = s.pending := rfl
@[simp] theorem State.onDrill_free (s : State) (f : Drill → Drill) : (s.onDrill f).free = s.free := rfl
@[simp] theorem State.onDrill_ctl (s : State) (f : Drill → Drill) : (s.onDrill f).ctl = s.ctl := rfl
@[simp] theorem State.onDrill_boot (s : State) (f : Drill → Drill) : (s.onDrill f).boot = s.boot := rfl
@[simp] theorem State.onDrill_time (s : State) (f : Drill → Drill) : (s.onDrill f).time = s.time := rfl
@[simp] theorem State.onDrill_net (s : State) (f : Drill → Drill) : (s.onDrill f).net = s.net := rfl
@[simp] theorem State.onDrill_store (s : State) (f : Drill → Drill) : (s.onDrill f).store = s.store := rfl
@[simp] theorem State.onDrill_coh (s : State) (f : Drill → Drill) : (s.onDrill f).coh = s.coh := rfl
@[simp] theorem State.onDrill_xlat (s : State) (f : Drill → Drill) : (s.onDrill f).xlat = s.xlat := rfl
@[simp] theorem State.onDrill_jobs (s : State) (f : Drill → Drill) : (s.onDrill f).jobs = s.jobs := rfl
@[simp] theorem State.onDrill_pal (s : State) (f : Drill → Drill) : (s.onDrill f).pal = s.pal := rfl
@[simp] theorem State.onDrill_sess (s : State) (f : Drill → Drill) : (s.onDrill f).sess = s.sess := rfl
@[simp] theorem State.onDrill_emb (s : State) (f : Drill → Drill) : (s.onDrill f).emb = s.emb := rfl
@[simp] theorem State.onDrill_srch (s : State) (f : Drill → Drill) : (s.onDrill f).srch = s.srch := rfl
@[simp] theorem State.onDrill_twin (s : State) (f : Drill → Drill) : (s.onDrill f).twin = s.twin := rfl
@[simp] theorem State.onDrill_ev (s : State) (f : Drill → Drill) : (s.onDrill f).ev = s.ev := rfl
@[simp] theorem State.onDrill_mon (s : State) (f : Drill → Drill) : (s.onDrill f).mon = s.mon := rfl
@[simp] theorem State.onDrill_drill (s : State) (f : Drill → Drill) : (s.onDrill f).drill = f s.drill := rfl
@[simp] theorem State.onDrill_pwr (s : State) (f : Drill → Drill) : (s.onDrill f).pwr = s.pwr := rfl
@[simp] theorem State.onDrill_quiet (s : State) (f : Drill → Drill) : (s.onDrill f).quiet = s.quiet := rfl

/-! ### onPwr -/

@[simp] theorem State.onPwr_pending (s : State) (f : Power → Power) : (s.onPwr f).pending = s.pending := rfl
@[simp] theorem State.onPwr_free (s : State) (f : Power → Power) : (s.onPwr f).free = s.free := rfl
@[simp] theorem State.onPwr_ctl (s : State) (f : Power → Power) : (s.onPwr f).ctl = s.ctl := rfl
@[simp] theorem State.onPwr_boot (s : State) (f : Power → Power) : (s.onPwr f).boot = s.boot := rfl
@[simp] theorem State.onPwr_time (s : State) (f : Power → Power) : (s.onPwr f).time = s.time := rfl
@[simp] theorem State.onPwr_net (s : State) (f : Power → Power) : (s.onPwr f).net = s.net := rfl
@[simp] theorem State.onPwr_store (s : State) (f : Power → Power) : (s.onPwr f).store = s.store := rfl
@[simp] theorem State.onPwr_coh (s : State) (f : Power → Power) : (s.onPwr f).coh = s.coh := rfl
@[simp] theorem State.onPwr_xlat (s : State) (f : Power → Power) : (s.onPwr f).xlat = s.xlat := rfl
@[simp] theorem State.onPwr_jobs (s : State) (f : Power → Power) : (s.onPwr f).jobs = s.jobs := rfl
@[simp] theorem State.onPwr_pal (s : State) (f : Power → Power) : (s.onPwr f).pal = s.pal := rfl
@[simp] theorem State.onPwr_sess (s : State) (f : Power → Power) : (s.onPwr f).sess = s.sess := rfl
@[simp] theorem State.onPwr_emb (s : State) (f : Power → Power) : (s.onPwr f).emb = s.emb := rfl
@[simp] theorem State.onPwr_srch (s : State) (f : Power → Power) : (s.onPwr f).srch = s.srch := rfl
@[simp] theorem State.onPwr_twin (s : State) (f : Power → Power) : (s.onPwr f).twin = s.twin := rfl
@[simp] theorem State.onPwr_ev (s : State) (f : Power → Power) : (s.onPwr f).ev = s.ev := rfl
@[simp] theorem State.onPwr_mon (s : State) (f : Power → Power) : (s.onPwr f).mon = s.mon := rfl
@[simp] theorem State.onPwr_drill (s : State) (f : Power → Power) : (s.onPwr f).drill = s.drill := rfl
@[simp] theorem State.onPwr_pwr (s : State) (f : Power → Power) : (s.onPwr f).pwr = f s.pwr := rfl
@[simp] theorem State.onPwr_quiet (s : State) (f : Power → Power) : (s.onPwr f).quiet = s.quiet := rfl

/-! ### onQuiet -/

@[simp] theorem State.onQuiet_pending (s : State) (f : QuietEdges → QuietEdges) : (s.onQuiet f).pending = s.pending := rfl
@[simp] theorem State.onQuiet_free (s : State) (f : QuietEdges → QuietEdges) : (s.onQuiet f).free = s.free := rfl
@[simp] theorem State.onQuiet_ctl (s : State) (f : QuietEdges → QuietEdges) : (s.onQuiet f).ctl = s.ctl := rfl
@[simp] theorem State.onQuiet_boot (s : State) (f : QuietEdges → QuietEdges) : (s.onQuiet f).boot = s.boot := rfl
@[simp] theorem State.onQuiet_time (s : State) (f : QuietEdges → QuietEdges) : (s.onQuiet f).time = s.time := rfl
@[simp] theorem State.onQuiet_net (s : State) (f : QuietEdges → QuietEdges) : (s.onQuiet f).net = s.net := rfl
@[simp] theorem State.onQuiet_store (s : State) (f : QuietEdges → QuietEdges) : (s.onQuiet f).store = s.store := rfl
@[simp] theorem State.onQuiet_coh (s : State) (f : QuietEdges → QuietEdges) : (s.onQuiet f).coh = s.coh := rfl
@[simp] theorem State.onQuiet_xlat (s : State) (f : QuietEdges → QuietEdges) : (s.onQuiet f).xlat = s.xlat := rfl
@[simp] theorem State.onQuiet_jobs (s : State) (f : QuietEdges → QuietEdges) : (s.onQuiet f).jobs = s.jobs := rfl
@[simp] theorem State.onQuiet_pal (s : State) (f : QuietEdges → QuietEdges) : (s.onQuiet f).pal = s.pal := rfl
@[simp] theorem State.onQuiet_sess (s : State) (f : QuietEdges → QuietEdges) : (s.onQuiet f).sess = s.sess := rfl
@[simp] theorem State.onQuiet_emb (s : State) (f : QuietEdges → QuietEdges) : (s.onQuiet f).emb = s.emb := rfl
@[simp] theorem State.onQuiet_srch (s : State) (f : QuietEdges → QuietEdges) : (s.onQuiet f).srch = s.srch := rfl
@[simp] theorem State.onQuiet_twin (s : State) (f : QuietEdges → QuietEdges) : (s.onQuiet f).twin = s.twin := rfl
@[simp] theorem State.onQuiet_ev (s : State) (f : QuietEdges → QuietEdges) : (s.onQuiet f).ev = s.ev := rfl
@[simp] theorem State.onQuiet_mon (s : State) (f : QuietEdges → QuietEdges) : (s.onQuiet f).mon = s.mon := rfl
@[simp] theorem State.onQuiet_drill (s : State) (f : QuietEdges → QuietEdges) : (s.onQuiet f).drill = s.drill := rfl
@[simp] theorem State.onQuiet_pwr (s : State) (f : QuietEdges → QuietEdges) : (s.onQuiet f).pwr = s.pwr := rfl
@[simp] theorem State.onQuiet_quiet (s : State) (f : QuietEdges → QuietEdges) : (s.onQuiet f).quiet = f s.quiet := rfl

/-! ### What reads one part only -/

@[simp] theorem State.reg_onBoot (s : State) (f : Boot → Boot) (a : Nat) : (s.onBoot f).reg a = s.reg a := rfl
@[simp] theorem State.reg_onTime (s : State) (f : TimeBase → TimeBase) (a : Nat) : (s.onTime f).reg a = s.reg a := rfl
@[simp] theorem State.reg_onNet (s : State) (f : Net → Net) (a : Nat) : (s.onNet f).reg a = s.reg a := rfl
@[simp] theorem State.reg_onStore (s : State) (f : Store → Store) (a : Nat) : (s.onStore f).reg a = s.reg a := rfl
@[simp] theorem State.reg_onCoh (s : State) (f : Coherence → Coherence) (a : Nat) : (s.onCoh f).reg a = s.reg a := rfl
@[simp] theorem State.reg_onXlat (s : State) (f : Xlat → Xlat) (a : Nat) : (s.onXlat f).reg a = s.reg a := rfl
@[simp] theorem State.reg_onJobs (s : State) (f : Jobs → Jobs) (a : Nat) : (s.onJobs f).reg a = s.reg a := rfl
@[simp] theorem State.reg_onPal (s : State) (f : Palettes → Palettes) (a : Nat) : (s.onPal f).reg a = s.reg a := rfl
@[simp] theorem State.reg_onSess (s : State) (f : Tbl Session → Tbl Session) (a : Nat) : (s.onSess f).reg a = s.reg a := rfl
@[simp] theorem State.reg_onEmb (s : State) (f : Embeddings → Embeddings) (a : Nat) : (s.onEmb f).reg a = s.reg a := rfl
@[simp] theorem State.reg_onSrch (s : State) (f : Searches → Searches) (a : Nat) : (s.onSrch f).reg a = s.reg a := rfl
@[simp] theorem State.reg_onTwin (s : State) (f : Twin → Twin) (a : Nat) : (s.onTwin f).reg a = s.reg a := rfl
@[simp] theorem State.reg_onEv (s : State) (f : Events → Events) (a : Nat) : (s.onEv f).reg a = s.reg a := rfl
@[simp] theorem State.reg_onMon (s : State) (f : Tbl MonSlot → Tbl MonSlot) (a : Nat) : (s.onMon f).reg a = s.reg a := rfl
@[simp] theorem State.reg_onDrill (s : State) (f : Drill → Drill) (a : Nat) : (s.onDrill f).reg a = s.reg a := rfl
@[simp] theorem State.reg_onPwr (s : State) (f : Power → Power) (a : Nat) : (s.onPwr f).reg a = s.reg a := rfl
@[simp] theorem State.reg_onQuiet (s : State) (f : QuietEdges → QuietEdges) (a : Nat) : (s.onQuiet f).reg a = s.reg a := rfl
@[simp] theorem State.conn?_onCtl (s : State) (f : Control → Control) (c : Nat) : (s.onCtl f).conn? c = s.conn? c := rfl
@[simp] theorem State.conn?_onBoot (s : State) (f : Boot → Boot) (c : Nat) : (s.onBoot f).conn? c = s.conn? c := rfl
@[simp] theorem State.conn?_onTime (s : State) (f : TimeBase → TimeBase) (c : Nat) : (s.onTime f).conn? c = s.conn? c := rfl
@[simp] theorem State.conn?_onStore (s : State) (f : Store → Store) (c : Nat) : (s.onStore f).conn? c = s.conn? c := rfl
@[simp] theorem State.conn?_onCoh (s : State) (f : Coherence → Coherence) (c : Nat) : (s.onCoh f).conn? c = s.conn? c := rfl
@[simp] theorem State.conn?_onXlat (s : State) (f : Xlat → Xlat) (c : Nat) : (s.onXlat f).conn? c = s.conn? c := rfl
@[simp] theorem State.conn?_onJobs (s : State) (f : Jobs → Jobs) (c : Nat) : (s.onJobs f).conn? c = s.conn? c := rfl
@[simp] theorem State.conn?_onPal (s : State) (f : Palettes → Palettes) (c : Nat) : (s.onPal f).conn? c = s.conn? c := rfl
@[simp] theorem State.conn?_onSess (s : State) (f : Tbl Session → Tbl Session) (c : Nat) : (s.onSess f).conn? c = s.conn? c := rfl
@[simp] theorem State.conn?_onEmb (s : State) (f : Embeddings → Embeddings) (c : Nat) : (s.onEmb f).conn? c = s.conn? c := rfl
@[simp] theorem State.conn?_onSrch (s : State) (f : Searches → Searches) (c : Nat) : (s.onSrch f).conn? c = s.conn? c := rfl
@[simp] theorem State.conn?_onTwin (s : State) (f : Twin → Twin) (c : Nat) : (s.onTwin f).conn? c = s.conn? c := rfl
@[simp] theorem State.conn?_onEv (s : State) (f : Events → Events) (c : Nat) : (s.onEv f).conn? c = s.conn? c := rfl
@[simp] theorem State.conn?_onMon (s : State) (f : Tbl MonSlot → Tbl MonSlot) (c : Nat) : (s.onMon f).conn? c = s.conn? c := rfl
@[simp] theorem State.conn?_onDrill (s : State) (f : Drill → Drill) (c : Nat) : (s.onDrill f).conn? c = s.conn? c := rfl
@[simp] theorem State.conn?_onPwr (s : State) (f : Power → Power) (c : Nat) : (s.onPwr f).conn? c = s.conn? c := rfl
@[simp] theorem State.conn?_onQuiet (s : State) (f : QuietEdges → QuietEdges) (c : Nat) : (s.onQuiet f).conn? c = s.conn? c := rfl
@[simp] theorem State.now_onCtl (s : State) (f : Control → Control) : (s.onCtl f).now = s.now := rfl
@[simp] theorem State.ran_onCtl (s : State) (f : Control → Control) : (s.onCtl f).ran = s.ran := rfl
@[simp] theorem State.now_onBoot (s : State) (f : Boot → Boot) : (s.onBoot f).now = s.now := rfl
@[simp] theorem State.ran_onBoot (s : State) (f : Boot → Boot) : (s.onBoot f).ran = s.ran := rfl
@[simp] theorem State.now_onNet (s : State) (f : Net → Net) : (s.onNet f).now = s.now := rfl
@[simp] theorem State.ran_onNet (s : State) (f : Net → Net) : (s.onNet f).ran = s.ran := rfl
@[simp] theorem State.now_onStore (s : State) (f : Store → Store) : (s.onStore f).now = s.now := rfl
@[simp] theorem State.ran_onStore (s : State) (f : Store → Store) : (s.onStore f).ran = s.ran := rfl
@[simp] theorem State.now_onCoh (s : State) (f : Coherence → Coherence) : (s.onCoh f).now = s.now := rfl
@[simp] theorem State.ran_onCoh (s : State) (f : Coherence → Coherence) : (s.onCoh f).ran = s.ran := rfl
@[simp] theorem State.now_onXlat (s : State) (f : Xlat → Xlat) : (s.onXlat f).now = s.now := rfl
@[simp] theorem State.ran_onXlat (s : State) (f : Xlat → Xlat) : (s.onXlat f).ran = s.ran := rfl
@[simp] theorem State.now_onJobs (s : State) (f : Jobs → Jobs) : (s.onJobs f).now = s.now := rfl
@[simp] theorem State.ran_onJobs (s : State) (f : Jobs → Jobs) : (s.onJobs f).ran = s.ran := rfl
@[simp] theorem State.now_onPal (s : State) (f : Palettes → Palettes) : (s.onPal f).now = s.now := rfl
@[simp] theorem State.ran_onPal (s : State) (f : Palettes → Palettes) : (s.onPal f).ran = s.ran := rfl
@[simp] theorem State.now_onSess (s : State) (f : Tbl Session → Tbl Session) : (s.onSess f).now = s.now := rfl
@[simp] theorem State.ran_onSess (s : State) (f : Tbl Session → Tbl Session) : (s.onSess f).ran = s.ran := rfl
@[simp] theorem State.now_onEmb (s : State) (f : Embeddings → Embeddings) : (s.onEmb f).now = s.now := rfl
@[simp] theorem State.ran_onEmb (s : State) (f : Embeddings → Embeddings) : (s.onEmb f).ran = s.ran := rfl
@[simp] theorem State.now_onSrch (s : State) (f : Searches → Searches) : (s.onSrch f).now = s.now := rfl
@[simp] theorem State.ran_onSrch (s : State) (f : Searches → Searches) : (s.onSrch f).ran = s.ran := rfl
@[simp] theorem State.now_onTwin (s : State) (f : Twin → Twin) : (s.onTwin f).now = s.now := rfl
@[simp] theorem State.ran_onTwin (s : State) (f : Twin → Twin) : (s.onTwin f).ran = s.ran := rfl
@[simp] theorem State.now_onEv (s : State) (f : Events → Events) : (s.onEv f).now = s.now := rfl
@[simp] theorem State.ran_onEv (s : State) (f : Events → Events) : (s.onEv f).ran = s.ran := rfl
@[simp] theorem State.now_onMon (s : State) (f : Tbl MonSlot → Tbl MonSlot) : (s.onMon f).now = s.now := rfl
@[simp] theorem State.ran_onMon (s : State) (f : Tbl MonSlot → Tbl MonSlot) : (s.onMon f).ran = s.ran := rfl
@[simp] theorem State.now_onDrill (s : State) (f : Drill → Drill) : (s.onDrill f).now = s.now := rfl
@[simp] theorem State.ran_onDrill (s : State) (f : Drill → Drill) : (s.onDrill f).ran = s.ran := rfl
@[simp] theorem State.now_onPwr (s : State) (f : Power → Power) : (s.onPwr f).now = s.now := rfl
@[simp] theorem State.ran_onPwr (s : State) (f : Power → Power) : (s.onPwr f).ran = s.ran := rfl
@[simp] theorem State.now_onQuiet (s : State) (f : QuietEdges → QuietEdges) : (s.onQuiet f).now = s.now := rfl
@[simp] theorem State.ran_onQuiet (s : State) (f : QuietEdges → QuietEdges) : (s.onQuiet f).ran = s.ran := rfl
@[simp] theorem State.clocked_onCtl (s : State) (f : Control → Control) : (s.onCtl f).clocked = s.clocked := rfl
@[simp] theorem State.clocked_onTime (s : State) (f : TimeBase → TimeBase) : (s.onTime f).clocked = s.clocked := rfl
@[simp] theorem State.clocked_onNet (s : State) (f : Net → Net) : (s.onNet f).clocked = s.clocked := rfl
@[simp] theorem State.clocked_onStore (s : State) (f : Store → Store) : (s.onStore f).clocked = s.clocked := rfl
@[simp] theorem State.clocked_onCoh (s : State) (f : Coherence → Coherence) : (s.onCoh f).clocked = s.clocked := rfl
@[simp] theorem State.clocked_onXlat (s : State) (f : Xlat → Xlat) : (s.onXlat f).clocked = s.clocked := rfl
@[simp] theorem State.clocked_onJobs (s : State) (f : Jobs → Jobs) : (s.onJobs f).clocked = s.clocked := rfl
@[simp] theorem State.clocked_onPal (s : State) (f : Palettes → Palettes) : (s.onPal f).clocked = s.clocked := rfl
@[simp] theorem State.clocked_onSess (s : State) (f : Tbl Session → Tbl Session) : (s.onSess f).clocked = s.clocked := rfl
@[simp] theorem State.clocked_onEmb (s : State) (f : Embeddings → Embeddings) : (s.onEmb f).clocked = s.clocked := rfl
@[simp] theorem State.clocked_onSrch (s : State) (f : Searches → Searches) : (s.onSrch f).clocked = s.clocked := rfl
@[simp] theorem State.clocked_onTwin (s : State) (f : Twin → Twin) : (s.onTwin f).clocked = s.clocked := rfl
@[simp] theorem State.clocked_onEv (s : State) (f : Events → Events) : (s.onEv f).clocked = s.clocked := rfl
@[simp] theorem State.clocked_onMon (s : State) (f : Tbl MonSlot → Tbl MonSlot) : (s.onMon f).clocked = s.clocked := rfl
@[simp] theorem State.clocked_onDrill (s : State) (f : Drill → Drill) : (s.onDrill f).clocked = s.clocked := rfl
@[simp] theorem State.clocked_onPwr (s : State) (f : Power → Power) : (s.onPwr f).clocked = s.clocked := rfl
@[simp] theorem State.clocked_onQuiet (s : State) (f : QuietEdges → QuietEdges) : (s.onQuiet f).clocked = s.clocked := rfl

theorem State.conn?_onConn (s : State) (c d : Nat) (f : Conn → Conn) :
    (s.onConn c f).conn? d = if c = d then (s.conn? c).map f else s.conn? d := by
  simp [State.onConn, State.conn?, State.onNet, Tbl.get?_update]

theorem State.reg_setReg (s : State) (a b v : Nat) :
    (s.setReg a v).reg b = if a = b then v % 2 ^ 64 else s.reg b := by
  by_cases h : a = b
  · simp [State.setReg, State.reg, State.onCtl, Tbl.get?_put, h]
  · simp only [State.setReg, State.reg, State.onCtl, Tbl.get?_put, if_neg h]

@[simp] theorem State.when_true (s : State) (f : State → State) : s.when true f = f s := rfl
@[simp] theorem State.when_false (s : State) (f : State → State) : s.when false f = s := rfl

end Machine
end Sys2Proof
end

