-- ==== Sys2Proof/Laws/Exec.lean ====
section
/-! SUPPORT. The form of every command's answer: act of some effect, for all but the three of the power logic. -/

namespace Sys2Proof.Machine

set_option maxHeartbeats 2000000 in
theorem exec_act (c : Instr) (s : State) (h : needsNoClock c = false) : ∃ f, exec c s = act s f := by
  cases c
  case powerGood => simp [needsNoClock] at h
  case coldResetN => simp [needsNoClock] at h
  case powerDown => simp [needsNoClock] at h
  case warmResetN => rw [exec, execWarmResetN]; exact ⟨_, rfl⟩
  case resetCmdWarm => rw [exec, execResetCmdWarm]; exact ⟨_, rfl⟩
  case resetCmdCold => rw [exec, execResetCmdCold]; exact ⟨_, rfl⟩
  case refclkLost => rw [exec, execRefclkLost]; exact ⟨_, rfl⟩
  case bootImageVerified => rw [exec, execBootImageVerified]; exact ⟨_, rfl⟩
  case nearTierTrained => rw [exec, execNearTierTrained]; exact ⟨_, rfl⟩
  case bulkTierTrained => rw [exec, execBulkTierTrained]; exact ⟨_, rfl⟩
  case carveChange => rw [exec, execCarveChange]; exact ⟨_, rfl⟩
  case watchdogExpiry => rw [exec, execWatchdogExpiry]; exact ⟨_, rfl⟩
  case deviceFatal => rw [exec, execDeviceFatal]; exact ⟨_, rfl⟩
  case paceWindow => rw [exec, execPaceWindow]; exact ⟨_, rfl⟩
  case ptpSync => rw [exec, execPtpSync]; exact ⟨_, rfl⟩
  case holdoverTimeout => rw [exec, execHoldoverTimeout]; exact ⟨_, rfl⟩
  case timeSetHi => rw [exec, execTimeSetHi]; exact ⟨_, rfl⟩
  case ctlRd => rw [exec, execCtlRd]; exact ⟨_, rfl⟩
  case ctlWr => rw [exec, execCtlWr]; exact ⟨_, rfl⟩
  case registerWrite => rw [exec, execRegisterWrite]; exact ⟨_, rfl⟩
  case stagedWrite => rw [exec, execStagedWrite]; exact ⟨_, rfl⟩
  case quiesce => rw [exec, execQuiesce]; exact ⟨_, rfl⟩
  case enable => rw [exec, execEnable]; exact ⟨_, rfl⟩
  case unitReset => rw [exec, execUnitReset]; exact ⟨_, rfl⟩
  case drainDone => rw [exec, execDrainDone]; exact ⟨_, rfl⟩
  case unitResetDone => rw [exec, execUnitResetDone]; exact ⟨_, rfl⟩
  case cfgCommit => rw [exec, execCfgCommit]; exact ⟨_, rfl⟩
  case cfgDiscard => rw [exec, execCfgDiscard]; exact ⟨_, rfl⟩
  case agentKill => rw [exec, execAgentKill]; exact ⟨_, rfl⟩
  case joinKeyInstall => rw [exec, execJoinKeyInstall]; exact ⟨_, rfl⟩
  case joinKeyErase => rw [exec, execJoinKeyErase]; exact ⟨_, rfl⟩
  case saInstall => rw [exec, execSaInstall]; exact ⟨_, rfl⟩
  case saRetire => rw [exec, execSaRetire]; exact ⟨_, rfl⟩
  case linkDown => rw [exec, execLinkDown]; exact ⟨_, rfl⟩
  case laneFault => rw [exec, execLaneFault]; exact ⟨_, rfl⟩
  case linkTrained => rw [exec, execLinkTrained]; exact ⟨_, rfl⟩
  case memberRejoin => rw [exec, execMemberRejoin]; exact ⟨_, rfl⟩
  case lldpTransmit => rw [exec, execLldpTransmit]; exact ⟨_, rfl⟩
  case joinFrame => rw [exec, execJoinFrame]; exact ⟨_, rfl⟩
  case leave => rw [exec, execLeave]; exact ⟨_, rfl⟩
  case leavingDrained => rw [exec, execLeavingDrained]; exact ⟨_, rfl⟩
  case reclaimComplete => rw [exec, execReclaimComplete]; exact ⟨_, rfl⟩
  case helloProbe => rw [exec, execHelloProbe]; exact ⟨_, rfl⟩
  case helloAnswer => rw [exec, execHelloAnswer]; exact ⟨_, rfl⟩
  case hello => rw [exec, execHello]; exact ⟨_, rfl⟩
  case unknownType => rw [exec, execUnknownType]; exact ⟨_, rfl⟩
  case ackTimer => rw [exec, execAckTimer]; exact ⟨_, rfl⟩
  case probeTimer => rw [exec, execProbeTimer]; exact ⟨_, rfl⟩
  case probeLost => rw [exec, execProbeLost]; exact ⟨_, rfl⟩
  case reprobe => rw [exec, execReprobe]; exact ⟨_, rfl⟩
  case rtoExpiry => rw [exec, execRtoExpiry]; exact ⟨_, rfl⟩
  case cwndUpdate => rw [exec, execCwndUpdate]; exact ⟨_, rfl⟩
  case keepalive => rw [exec, execKeepalive]; exact ⟨_, rfl⟩
  case silenceTimeout => rw [exec, execSilenceTimeout]; exact ⟨_, rfl⟩
  case read => rw [exec, execRead]; exact ⟨_, rfl⟩
  case write => rw [exec, execWrite]; exact ⟨_, rfl⟩
  case compressWrite => rw [exec, execCompressWrite]; exact ⟨_, rfl⟩
  case faddI32 => rw [exec, execFaddI32]; exact ⟨_, rfl⟩
  case faddI64 => rw [exec, execFaddI64]; exact ⟨_, rfl⟩
  case faddF32 => rw [exec, execFaddF32]; exact ⟨_, rfl⟩
  case atomicSwap => rw [exec, execAtomicSwap]; exact ⟨_, rfl⟩
  case atomicCas => rw [exec, execAtomicCas]; exact ⟨_, rfl⟩
  case atomicSmin => rw [exec, execAtomicSmin]; exact ⟨_, rfl⟩
  case atomicSmax => rw [exec, execAtomicSmax]; exact ⟨_, rfl⟩
  case atomicUmin => rw [exec, execAtomicUmin]; exact ⟨_, rfl⟩
  case atomicUmax => rw [exec, execAtomicUmax]; exact ⟨_, rfl⟩
  case atomicAnd => rw [exec, execAtomicAnd]; exact ⟨_, rfl⟩
  case atomicOr => rw [exec, execAtomicOr]; exact ⟨_, rfl⟩
  case atomicXor => rw [exec, execAtomicXor]; exact ⟨_, rfl⟩
  case getS => rw [exec, execGetS]; exact ⟨_, rfl⟩
  case getM => rw [exec, execGetM]; exact ⟨_, rfl⟩
  case upgrade => rw [exec, execUpgrade]; exact ⟨_, rfl⟩
  case putM => rw [exec, execPutM]; exact ⟨_, rfl⟩
  case putO => rw [exec, execPutO]; exact ⟨_, rfl⟩
  case putE => rw [exec, execPutE]; exact ⟨_, rfl⟩
  case invAck => rw [exec, execInvAck]; exact ⟨_, rfl⟩
  case fwdDone => rw [exec, execFwdDone]; exact ⟨_, rfl⟩
  case recvDone => rw [exec, execRecvDone]; exact ⟨_, rfl⟩
  case recallAck => rw [exec, execRecallAck]; exact ⟨_, rfl⟩
  case noData => rw [exec, execNoData]; exact ⟨_, rfl⟩
  case dataAnswer => rw [exec, execDataAnswer]; exact ⟨_, rfl⟩
  case directData => rw [exec, execDirectData]; exact ⟨_, rfl⟩
  case fwdWaitExpiry => rw [exec, execFwdWaitExpiry]; exact ⟨_, rfl⟩
  case cohWaitExpiry => rw [exec, execCohWaitExpiry]; exact ⟨_, rfl⟩
  case peerInv => rw [exec, execPeerInv]; exact ⟨_, rfl⟩
  case peerRecall => rw [exec, execPeerRecall]; exact ⟨_, rfl⟩
  case peerFwd => rw [exec, execPeerFwd]; exact ⟨_, rfl⟩
  case clearAsh => rw [exec, execClearAsh]; exact ⟨_, rfl⟩
  case rehomeWindowClose => rw [exec, execRehomeWindowClose]; exact ⟨_, rfl⟩
  case grant => rw [exec, execGrant]; exact ⟨_, rfl⟩
  case revoke => rw [exec, execRevoke]; exact ⟨_, rfl⟩
  case release => rw [exec, execRelease]; exact ⟨_, rfl⟩
  case addRights => rw [exec, execAddRights]; exact ⟨_, rfl⟩
  case setDrill => rw [exec, execSetDrill]; exact ⟨_, rfl⟩
  case zeroFillDone => rw [exec, execZeroFillDone]; exact ⟨_, rfl⟩
  case revokeComplete => rw [exec, execRevokeComplete]; exact ⟨_, rfl⟩
  case revokeTimeout => rw [exec, execRevokeTimeout]; exact ⟨_, rfl⟩
  case quotaNear => rw [exec, execQuotaNear]; exact ⟨_, rfl⟩
  case quotaBulk => rw [exec, execQuotaBulk]; exact ⟨_, rfl⟩
  case tierWindowEnd => rw [exec, execTierWindowEnd]; exact ⟨_, rfl⟩
  case moveCopyPassDone => rw [exec, execMoveCopyPassDone]; exact ⟨_, rfl⟩
  case moveSourceFree => rw [exec, execMoveSourceFree]; exact ⟨_, rfl⟩
  case unmuteDone => rw [exec, execUnmuteDone]; exact ⟨_, rfl⟩
  case scrubPass => rw [exec, execScrubPass]; exact ⟨_, rfl⟩
  case correctedWriteback => rw [exec, execCorrectedWriteback]; exact ⟨_, rfl⟩
  case xlatApply => rw [exec, execXlatApply]; exact ⟨_, rfl⟩
  case inval => rw [exec, execInval]; exact ⟨_, rfl⟩
  case invalAnswer => rw [exec, execInvalAnswer]; exact ⟨_, rfl⟩
  case walkStart => rw [exec, execWalkStart]; exact ⟨_, rfl⟩
  case walkReadDone => rw [exec, execWalkReadDone]; exact ⟨_, rfl⟩
  case faultBatchClose => rw [exec, execFaultBatchClose]; exact ⟨_, rfl⟩
  case faultResumeRetry => rw [exec, execFaultResumeRetry]; exact ⟨_, rfl⟩
  case faultResumeAbort => rw [exec, execFaultResumeAbort]; exact ⟨_, rfl⟩
  case faultLimitCheck => rw [exec, execFaultLimitCheck]; exact ⟨_, rfl⟩
  case bulkFill => rw [exec, execBulkFill]; exact ⟨_, rfl⟩
  case bulkCopy => rw [exec, execBulkCopy]; exact ⟨_, rfl⟩
  case bulkCompare => rw [exec, execBulkCompare]; exact ⟨_, rfl⟩
  case bulkReduce => rw [exec, execBulkReduce]; exact ⟨_, rfl⟩
  case tierPolicy => rw [exec, execTierPolicy]; exact ⟨_, rfl⟩
  case recode => rw [exec, execRecode]; exact ⟨_, rfl⟩
  case matmul => rw [exec, execMatmul]; exact ⟨_, rfl⟩
  case convert => rw [exec, execConvert]; exact ⟨_, rfl⟩
  case tileDeal => rw [exec, execTileDeal]; exact ⟨_, rfl⟩
  case sessionOpen => rw [exec, execSessionOpen]; exact ⟨_, rfl⟩
  case sessionClose => rw [exec, execSessionClose]; exact ⟨_, rfl⟩
  case kvAppend => rw [exec, execKvAppend]; exact ⟨_, rfl⟩
  case attend => rw [exec, execAttend]; exact ⟨_, rfl⟩
  case wake => rw [exec, execWake]; exact ⟨_, rfl⟩
  case sleep => rw [exec, execSleep]; exact ⟨_, rfl⟩
  case sessionJobStart => rw [exec, execSessionJobStart]; exact ⟨_, rfl⟩
  case pieceDeal => rw [exec, execPieceDeal]; exact ⟨_, rfl⟩
  case tableOpen => rw [exec, execTableOpen]; exact ⟨_, rfl⟩
  case tableVersion => rw [exec, execTableVersion]; exact ⟨_, rfl⟩
  case tableClose => rw [exec, execTableClose]; exact ⟨_, rfl⟩
  case tableCloseDone => rw [exec, execTableCloseDone]; exact ⟨_, rfl⟩
  case gather => rw [exec, execGather]; exact ⟨_, rfl⟩
  case mergeUpdate => rw [exec, execMergeUpdate]; exact ⟨_, rfl⟩
  case gatherDeal => rw [exec, execGatherDeal]; exact ⟨_, rfl⟩
  case mergeEntryClaim => rw [exec, execMergeEntryClaim]; exact ⟨_, rfl⟩
  case embWindowEnd => rw [exec, execEmbWindowEnd]; exact ⟨_, rfl⟩
  case hotPromotionBatch => rw [exec, execHotPromotionBatch]; exact ⟨_, rfl⟩
  case collOpen => rw [exec, execCollOpen]; exact ⟨_, rfl⟩
  case collClose => rw [exec, execCollClose]; exact ⟨_, rfl⟩
  case insertJob => rw [exec, execInsertJob]; exact ⟨_, rfl⟩
  case deleteJob => rw [exec, execDeleteJob]; exact ⟨_, rfl⟩
  case searchJob => rw [exec, execSearchJob]; exact ⟨_, rfl⟩
  case queryDeal => rw [exec, execQueryDeal]; exact ⟨_, rfl⟩
  case mergeColl => rw [exec, execMergeColl]; exact ⟨_, rfl⟩
  case mergeSwitch => rw [exec, execMergeSwitch]; exact ⟨_, rfl⟩
  case mergeDrain => rw [exec, execMergeDrain]; exact ⟨_, rfl⟩
  case mergeResume => rw [exec, execMergeResume]; exact ⟨_, rfl⟩
  case mergeAbandon => rw [exec, execMergeAbandon]; exact ⟨_, rfl⟩
  case jobCompletion => rw [exec, execJobCompletion]; exact ⟨_, rfl⟩
  case timeLimitExpiry => rw [exec, execTimeLimitExpiry]; exact ⟨_, rfl⟩
  case poolHigh => rw [exec, execPoolHigh]; exact ⟨_, rfl⟩
  case peerOpen => rw [exec, execPeerOpen]; exact ⟨_, rfl⟩
  case peerClose => rw [exec, execPeerClose]; exact ⟨_, rfl⟩
  case peerAccept => rw [exec, execPeerAccept]; exact ⟨_, rfl⟩
  case peerWriteResponse => rw [exec, execPeerWriteResponse]; exact ⟨_, rfl⟩
  case palInstall => rw [exec, execPalInstall]; exact ⟨_, rfl⟩
  case palBuild => rw [exec, execPalBuild]; exact ⟨_, rfl⟩
  case palConfig => rw [exec, execPalConfig]; exact ⟨_, rfl⟩
  case palClear => rw [exec, execPalClear]; exact ⟨_, rfl⟩
  case palRead => rw [exec, execPalRead]; exact ⟨_, rfl⟩
  case buildStart => rw [exec, execBuildStart]; exact ⟨_, rfl⟩
  case pendingInstall => rw [exec, execPendingInstall]; exact ⟨_, rfl⟩
  case pendingInstallWait => rw [exec, execPendingInstallWait]; exact ⟨_, rfl⟩
  case pairKeyInstall => rw [exec, execPairKeyInstall]; exact ⟨_, rfl⟩
  case pairKeyErase => rw [exec, execPairKeyErase]; exact ⟨_, rfl⟩
  case pairHello => rw [exec, execPairHello]; exact ⟨_, rfl⟩
  case pairHelloTimer => rw [exec, execPairHelloTimer]; exact ⟨_, rfl⟩
  case beat => rw [exec, execBeat]; exact ⟨_, rfl⟩
  case beatTimer => rw [exec, execBeatTimer]; exact ⟨_, rfl⟩
  case twinSilenceTimeout => rw [exec, execTwinSilenceTimeout]; exact ⟨_, rfl⟩
  case renewTimer => rw [exec, execRenewTimer]; exact ⟨_, rfl⟩
  case renew => rw [exec, execRenew]; exact ⟨_, rfl⟩
  case leaseList => rw [exec, execLeaseList]; exact ⟨_, rfl⟩
  case leaseMove => rw [exec, execLeaseMove]; exact ⟨_, rfl⟩
  case leaseGive => rw [exec, execLeaseGive]; exact ⟨_, rfl⟩
  case give => rw [exec, execGive]; exact ⟨_, rfl⟩
  case take => rw [exec, execTake]; exact ⟨_, rfl⟩
  case handover => rw [exec, execHandover]; exact ⟨_, rfl⟩
  case taken => rw [exec, execTaken]; exact ⟨_, rfl⟩
  case twinDone => rw [exec, execTwinDone]; exact ⟨_, rfl⟩
  case mirror => rw [exec, execMirror]; exact ⟨_, rfl⟩
  case mirrorAck => rw [exec, execMirrorAck]; exact ⟨_, rfl⟩
  case retire => rw [exec, execRetire]; exact ⟨_, rfl⟩
  case mirrorQueueRoom => rw [exec, execMirrorQueueRoom]; exact ⟨_, rfl⟩
  case orphanTimeout => rw [exec, execOrphanTimeout]; exact ⟨_, rfl⟩
  case orphanState => rw [exec, execOrphanState]; exact ⟨_, rfl⟩
  case twinCopy => rw [exec, execTwinCopy]; exact ⟨_, rfl⟩
  case checkpoint => rw [exec, execCheckpoint]; exact ⟨_, rfl⟩
  case resyncExtentDone => rw [exec, execResyncExtentDone]; exact ⟨_, rfl⟩
  case twinExtCmd => rw [exec, execTwinExtCmd]; exact ⟨_, rfl⟩
  case extDone => rw [exec, execExtDone]; exact ⟨_, rfl⟩
  case resetNotice => rw [exec, execResetNotice]; exact ⟨_, rfl⟩
  case witnessForm => rw [exec, execWitnessForm]; exact ⟨_, rfl⟩
  case witnessConfirm => rw [exec, execWitnessConfirm]; exact ⟨_, rfl⟩
  case witnessFence => rw [exec, execWitnessFence]; exact ⟨_, rfl⟩
  case takeoverHoldExpiry => rw [exec, execTakeoverHoldExpiry]; exact ⟨_, rfl⟩
  case getVersion => rw [exec, execGetVersion]; exact ⟨_, rfl⟩
  case getCapabilities => rw [exec, execGetCapabilities]; exact ⟨_, rfl⟩
  case negotiateAlgorithms => rw [exec, execNegotiateAlgorithms]; exact ⟨_, rfl⟩
  case getDigests => rw [exec, execGetDigests]; exact ⟨_, rfl⟩
  case getCertificate => rw [exec, execGetCertificate]; exact ⟨_, rfl⟩
  case challenge => rw [exec, execChallenge]; exact ⟨_, rfl⟩
  case getMeasurements => rw [exec, execGetMeasurements]; exact ⟨_, rfl⟩
  case fwErase => rw [exec, execFwErase]; exact ⟨_, rfl⟩
  case fwWrite => rw [exec, execFwWrite]; exact ⟨_, rfl⟩
  case fwVerify => rw [exec, execFwVerify]; exact ⟨_, rfl⟩
  case fwActivate => rw [exec, execFwActivate]; exact ⟨_, rfl⟩
  case svnBurn => rw [exec, execSvnBurn]; exact ⟨_, rfl⟩
  case eventRecord => rw [exec, execEventRecord]; exact ⟨_, rfl⟩
  case beaconRepeat => rw [exec, execBeaconRepeat]; exact ⟨_, rfl⟩
  case beaconDeferred => rw [exec, execBeaconDeferred]; exact ⟨_, rfl⟩
  case evDone => rw [exec, execEvDone]; exact ⟨_, rfl⟩
  case evCountClr => rw [exec, execEvCountClr]; exact ⟨_, rfl⟩
  case evMask => rw [exec, execEvMask]; exact ⟨_, rfl⟩
  case evPend => rw [exec, execEvPend]; exact ⟨_, rfl⟩
  case evHead => rw [exec, execEvHead]; exact ⟨_, rfl⟩
  case evRingCtrl => rw [exec, execEvRingCtrl]; exact ⟨_, rfl⟩
  case monCtrl => rw [exec, execMonCtrl]; exact ⟨_, rfl⟩
  case monSample => rw [exec, execMonSample]; exact ⟨_, rfl⟩
  case monWindowClose => rw [exec, execMonWindowClose]; exact ⟨_, rfl⟩
  case histUnitGrant => rw [exec, execHistUnitGrant]; exact ⟨_, rfl⟩
  case drillArm => rw [exec, execDrillArm]; exact ⟨_, rfl⟩
  case drillArmLapse => rw [exec, execDrillArmLapse]; exact ⟨_, rfl⟩
  case drillFire => rw [exec, execDrillFire]; exact ⟨_, rfl⟩
  case drillStop => rw [exec, execDrillStop]; exact ⟨_, rfl⟩
  case drillEnd => rw [exec, execDrillEnd]; exact ⟨_, rfl⟩
  case vcoreTick => rw [exec, execVcoreTick]; exact ⟨_, rfl⟩
  case pmbusPoll => rw [exec, execPmbusPoll]; exact ⟨_, rfl⟩
  case thermtrip => rw [exec, execThermtrip]; exact ⟨_, rfl⟩
  case throttleCrossing => rw [exec, execThrottleCrossing]; exact ⟨_, rfl⟩
  case unassignedJobType => rw [exec, execUnassignedJobType]; exact ⟨_, rfl⟩
  case atomicBadOpcode => rw [exec, execAtomicBadOpcode]; exact ⟨_, rfl⟩
  case spdmUnsupportedRequest => rw [exec, execSpdmUnsupportedRequest]; exact ⟨_, rfl⟩
  case twinUnknownKind => rw [exec, execTwinUnknownKind]; exact ⟨_, rfl⟩
  case extCmdUnused => rw [exec, execExtCmdUnused]; exact ⟨_, rfl⟩
  case faultResumeBadAction => rw [exec, execFaultResumeBadAction]; exact ⟨_, rfl⟩
  case resetCmdBadKey => rw [exec, execResetCmdBadKey]; exact ⟨_, rfl⟩
  case joinKeyInstallRefused => rw [exec, execJoinKeyInstallRefused]; exact ⟨_, rfl⟩

theorem act_clocked {s : State} (h : s.clocked = true) (f : State → State) : act s f = .next (settle (f s)) := by
  simp [act, h]

theorem act_stopped {s : State} (h : s.clocked = false) (f : State → State) : act s f = .next s := by
  simp [act, h]

theorem work_clocked {s : State} (h : s.clocked = true) (f : State → State) : work s f = .next (settle (f s).progress) := by
  simp [work, act, h]

end Sys2Proof.Machine
end

