-- ==== Sys2Proof/Laws/Frames.lean ====
section
/-! SUPPORT. What an arriving frame comes to: steps 1 to 5, steps 6 to 8, its SEQ place, and the request that it carries. -/

namespace Sys2Proof.Machine

theorem rxFrame_passes {s : State} {rx : Rx} (h : s.Passes rx) : s.rxFrame rx = (s.counted rx).rxAccepted rx := by
  obtain ⟨h0, h1, h2, h3, h4, h5, h6, h7, h8, h9, h10⟩ := h
  unfold State.rxFrame
  simp only [h1, h2, h3, h4, h5, h6.1, h6.2, Bool.not_true, decide_false, Bool.or_false, Bool.false_eq_true, if_false]
  simp [h7, h8, h9, h10, State.counted]

theorem rxAccepted_ofConn {s : State} {c : Nat} {k : Conn} {rx : Rx} (h : s.OfConn c k rx) :
    s.rxAccepted rx = s.rxConn c rx := by
  obtain ⟨h1, h2, h3, h4, h5, h6, h7, h8, h9⟩ := h
  replace h7 : rx.f.ty ≠ 80#8 := h7
  have h8' : (decide (s.role rx.port = 2) && (decide (rx.f.ty = 0x60) || decide (rx.f.ty = 0x53))) = false := by
    by_contra hc
    simp only [Bool.not_eq_false, Bool.and_eq_true, Bool.or_eq_true, decide_eq_true_eq] at hc
    exact h8 hc
  have hd : (decide (rx.f.ty = 26#8) && decide (rx.f.conn = 0xFFFFFF#24) && has rx.f fUnseq) = false := by
    by_contra hc
    simp only [Bool.not_eq_false, Bool.and_eq_true, decide_eq_true_eq] at hc
    exact h9 ⟨hc.1.1, hc.1.2, hc.2⟩
  subst h1
  unfold State.rxAccepted
  simp only [h8', Bool.false_eq_true, if_false, h2, Option.filter, h3, if_true]
  simp [h7, h6, h4, h5]
  intro a b c; simp [a, b, c] at hd

theorem rxSeq_next {s : State} {c : Nat} {rx : Rx} (h : s.NextInSeq c rx) (hc : c ≠ twinConn) :
    s.rxSeq c rx = ((s.seated c rx).takeSeq c rx.port rx.f).closed c := by
  obtain ⟨h1, h2, ⟨k, hk, hs, hg⟩, k', hk', hs'⟩ := h
  unfold State.rxSeq
  simp only [hk, hs]
  rw [show (257 : Nat) = 256 + 1 from rfl, State.drain]
  simp only [State.conn?_onConn, if_true, hk', Option.map_some, hs', Tbl.get?_put, hc, if_false, hg, BitVec.sub_self,
    Option.isSome_none, Bool.or_false]
  rfl

theorem rxSeq_twin {s : State} {rx : Rx} (h : s.NextInSeq twinConn rx) :
    s.rxSeq twinConn rx = ((s.seated twinConn rx).takeTwin rx.f).closed twinConn := by
  obtain ⟨h1, h2, ⟨k, hk, hs, hg⟩, k', hk', hs'⟩ := h
  unfold State.rxSeq
  simp only [hk, hs]
  rw [show (257 : Nat) = 256 + 1 from rfl, State.drain]
  simp only [State.conn?_onConn, if_true, hk', Option.map_some, hs', Tbl.get?_put, hg, BitVec.sub_self, Option.isSome_none,
    Bool.or_false]
  rfl

/-- A frame of the twin connection is heard, whatever it carries. -/
theorem rxFrame_ofTwin {s : State} {rx : Rx} (h : s.OfTwin rx) :
    s.rxFrame rx = ((s.counted rx).twinHeard rx.f).rxConn twinConn rx := by
  rw [rxFrame_passes h.passes]
  have h1 := h.role
  have h2 : rx.f.ty = 96#8 := h.type
  have h3 := h.paired
  have h4 := h.kind
  have h5 := h.opened
  have h6 := h.incarn
  have h7 : rx.f.conn = 1#24 := h.conn
  have h8 := h.service
  generalize s.counted rx = u at h1 h3 h5 h6 h8 ⊢
  unfold State.rxAccepted State.rxTwin
  simp only [h1, h2, h3, h4, h5, h6, h7, h8]
  simp

theorem rxFrame_twin {s : State} {rx : Rx} (h : s.TwinTurn rx) :
    s.rxFrame rx = ((s.twinTurn rx).takeTwin rx.f).closed twinConn := by
  rw [rxFrame_ofTwin h.ofTwin, State.twinTurn, ← rxSeq_twin h.next]
  have h1 := h.next.unseq
  have h2 : rx.f.ty = 96#8 := h.ofTwin.type
  unfold State.rxConn State.twinHears State.heard
  simp [h1, h2]

theorem rxFrame_turn {s : State} {c : Nat} {k : Conn} {rx : Rx} (h : s.InTurn c k rx) (hc : c ≠ twinConn) :
    s.rxFrame rx = ((s.turn c rx).takeSeq c rx.port rx.f).closed c := by
  rw [rxFrame_passes h.passes, rxAccepted_ofConn h.ofConn, State.turn, ← rxSeq_next h.next hc]
  have h1 := h.next.unseq
  have h2 : rx.f.ty ≠ 83#8 := h.next.hello
  unfold State.rxConn State.heard
  simp [h1, h2]

theorem takeReq_fresh {s : State} {c port : Nat} {f : Frame} {k : Conn} (hk : s.conn? c = some k) (ho : k.opPlace f.opId = .fresh)
    (hl : f.ty ≠ 0x52) :
    s.takeReq c port f = ((s.onConn c fun k => k.noteOp f.opId).admitReq c port f).when (has f fCmdEnd)
      fun s => s.onConn c fun k => { k with cmd := k.cmd + 1 } := by
  replace hl : f.ty ≠ 82#8 := hl
  unfold State.takeReq; simp [hk, ho, hl]

/-- A frame that is a request of an agent: neither HELLO nor an answer. -/
theorem takeSeq_request {s : State} {c port : Nat} {f : Frame} {k : Conn} (hk : s.conn? c = some k) (ho : k.st = .openC)
    (h1 : f.ty ≠ 0x53) (h2 : f.ty ≠ 0x1A) (h3 : f.ty ≠ 0x1B) (hr : has f fResp = false) :
    s.takeSeq c port f = s.takeReq c port f := by
  have e : ∀ n : Nat, n < 256 → f.ty ≠ BitVec.ofNat 8 n → f.ty.toNat ≠ n := by
    intro n hn h hh; apply h; rw [← hh]; simp
  have a1 : f.ty.toNat ≠ 83 := e 83 (by decide) h1
  have a2 : f.ty.toNat ≠ 26 := e 26 (by decide) h2
  have a3 : f.ty.toNat ≠ 27 := e 27 (by decide) h3
  unfold State.takeSeq
  simp [hk, ho, a1, a2, a3, hr]

/-- A request that arrives in its turn and is admitted is executed, and CMD_END and held frames follow. -/
theorem rxFrame_request {s : State} {c : Nat} {k : Conn} {rx : Rx} (h : s.Request c k rx) (hc : c ≠ twinConn)
    (h2 : rx.f.ty ≠ 0x1A) (h3 : rx.f.ty ≠ 0x1B) (h4 : rx.f.ty ≠ 0x52) (hr : has rx.f fResp = false) :
    s.rxFrame rx = ((s.asked c rx).admitReq c rx.port rx.f).done c rx := by
  obtain ⟨k', hk', ho, hp⟩ := h.admits.conn
  rw [rxFrame_turn h.turn hc, takeSeq_request hk' ho h.turn.next.hello h2 h3 hr, takeReq_fresh hk' hp h4]
  rfl

theorem admit_access {s : State} {c port : Nat} {f : Frame} (hroom : s.connAdmitted c < s.reg Reg.pgOpsMax)
    (hb : s.boot.step = .near ∨ s.boot.step = .bulk) (hw : ¬(s.boot.service = .full ∧ s.boot.carveWait = true))
    (ht : f.ty.toNat ∈ [0x01, 0x02, 0x03, 0x10, 0x11, 0x12, 0x13, 0x14, 0x15]) : s.admitReq c port f = s.takeAccess c f := by
  unfold State.admitReq
  have a : strayType f.ty.toNat = false ∧ f.ty.toNat ≠ 0x30 ∧ f.ty.toNat ≠ 0x31 ∧ f.ty.toNat ≠ 4 ∧ f.ty.toNat ≠ 5 ∧ f.ty.toNat ≠ 0x20 := by
    simp only [List.mem_cons, List.not_mem_nil, or_false] at ht
    rcases ht with h | h | h | h | h | h | h | h | h <;> rw [h] <;> decide
  have b : (decide (s.boot.step = .rom) || decide (s.boot.step = .recovery) || decide (s.boot.step = .command)) = false := by
    rcases hb with h | h <;> rw [h] <;> decide
  have w : (decide (s.boot.service = .full) && s.boot.carveWait) = false := by
    by_contra hh; apply hw; simpa using hh
  rw [if_neg (by omega)]
  simp only [a.1, a.2.1, a.2.2.1, b, w, decide_false, Bool.or_self, Bool.false_eq_true, if_false]
  split
  · next h => exact absurd h a.2.2.2.1
  · next h => exact absurd h a.2.2.2.2.1
  · next h => exact absurd h a.2.2.2.2.2
  · rfl

theorem admit_job {s : State} {c port : Nat} {f : Frame} (b : Bool) (hroom : s.connAdmitted c < s.reg Reg.pgOpsMax)
    (hb : s.boot.step = .near ∨ s.boot.step = .bulk) (hw : ¬(s.boot.service = .full ∧ s.boot.carveWait = true))
    (ht : f.ty.toNat = if b then 4 else 5) : s.admitReq c port f = s.takeJob c f b := by
  unfold State.admitReq
  have e : (decide (s.boot.step = .rom) || decide (s.boot.step = .recovery) || decide (s.boot.step = .command)) = false := by
    rcases hb with h | h <;> rw [h] <;> decide
  have w : (decide (s.boot.service = .full) && s.boot.carveWait) = false := by
    by_contra hh; apply hw; simpa using hh
  rw [if_neg (by omega)]
  cases b
  · have ht' : f.ty.toNat = 5 := ht
    simp only [ht', e, w, Bool.false_eq_true, if_false]; rfl
  · have ht' : f.ty.toNat = 4 := ht
    simp only [ht', e, w, Bool.false_eq_true, if_false]; rfl

theorem admit_inval {s : State} {c port : Nat} {f : Frame} (hroom : s.connAdmitted c < s.reg Reg.pgOpsMax)
    (hb : s.boot.step = .near ∨ s.boot.step = .bulk) (hw : ¬(s.boot.service = .full ∧ s.boot.carveWait = true))
    (ht : f.ty.toNat = 0x20) : s.admitReq c port f = s.takeInval c f := by
  unfold State.admitReq
  have e : (decide (s.boot.step = .rom) || decide (s.boot.step = .recovery) || decide (s.boot.step = .command)) = false := by
    rcases hb with h | h <;> rw [h] <;> decide
  have w : (decide (s.boot.service = .full) && s.boot.carveWait) = false := by
    by_contra hh; apply hw; simpa using hh
  rw [if_neg (by omega)]
  simp only [ht, e, w, Bool.false_eq_true, if_false]; rfl

theorem admit_ctl {s : State} {c port : Nat} {f : Frame} (hroom : s.connAdmitted c < s.reg Reg.pgOpsMax)
    (ht : f.ty.toNat = 0x30 ∨ f.ty.toNat = 0x31) : s.admitReq c port f = s.takeCtl c port f := by
  unfold State.admitReq
  rw [if_neg (by omega)]
  rcases ht with h | h <;> simp only [h] <;> rfl

end Sys2Proof.Machine
end

