-- ==== Sys2Proof/Laws/Memory.lean ====
section
/-! SUPPORT. What the operations of memory do: each keeps the canonical form, and a byte read afterwards is the one written,
or the one that stood there. -/

namespace Sys2Proof.Machine

/-! ### The canonical form -/

theorem memOkFrom_le {m : List Host.Cell} {lo lo' : Nat} (h : memOkFrom m lo = true) (hl : lo' ≤ lo) :
    memOkFrom m lo' = true := by
  cases m with
  | nil => rfl
  | cons c m =>
    simp only [memOkFrom, Bool.and_eq_true, decide_eq_true_eq] at h ⊢
    exact ⟨⟨by omega, h.1.2⟩, h.2⟩

theorem memOkFrom_filter (p : Host.Cell → Bool) {m : List Host.Cell} {lo : Nat} (h : memOkFrom m lo = true) :
    memOkFrom (m.filter p) lo = true := by
  induction m generalizing lo with
  | nil => rfl
  | cons c m ih =>
    simp only [memOkFrom, Bool.and_eq_true, decide_eq_true_eq] at h
    rw [List.filter_cons]
    split
    · simp only [memOkFrom, Bool.and_eq_true, decide_eq_true_eq]; exact ⟨h.1, ih h.2⟩
    · exact memOkFrom_le (ih h.2) (by omega)

theorem memOkFrom_append {m n : List Host.Cell} {lo a : Nat} (h : memOkFrom m lo = true) (hm : ∀ c ∈ m, c.1 < a)
    (hn : memOkFrom n a = true) (hl : lo ≤ a) : memOkFrom (m ++ n) lo = true := by
  induction m generalizing lo with
  | nil => exact memOkFrom_le hn hl
  | cons c m ih =>
    simp only [memOkFrom, Bool.and_eq_true, decide_eq_true_eq] at h
    simp only [List.cons_append, memOkFrom, Bool.and_eq_true, decide_eq_true_eq]
    exact ⟨h.1, ih h.2 (fun d hd => hm d (List.mem_cons_of_mem _ hd)) (hm c (List.mem_cons_self ..))⟩

theorem memOkFrom_from {m : List Host.Cell} {lo a : Nat} (h : memOkFrom m lo = true) (hm : ∀ c ∈ m, a ≤ c.1) :
    memOkFrom m a = true := by
  cases m with
  | nil => rfl
  | cons c m =>
    simp only [memOkFrom, Bool.and_eq_true, decide_eq_true_eq] at h ⊢
    exact ⟨⟨hm c (List.mem_cons_self ..), h.1.2⟩, h.2⟩

theorem memNew_ok (a : Nat) (bs : List Byte) : memOkFrom (memNew a bs) a = true := by
  induction bs generalizing a with
  | nil => rfl
  | cons b bs ih =>
    unfold memNew
    split
    · exact memOkFrom_le (ih (a + 1)) (by omega)
    · simp only [memOkFrom, Bool.and_eq_true, decide_eq_true_eq, bne_iff_ne]; exact ⟨⟨Nat.le_refl a, by assumption⟩, ih (a + 1)⟩

theorem memNew_keys (a : Nat) (bs : List Byte) : ∀ c ∈ memNew a bs, a ≤ c.1 ∧ c.1 < a + bs.length := by
  induction bs generalizing a with
  | nil => intro c h; cases h
  | cons b bs ih =>
    intro c h
    unfold memNew at h
    have := ih (a + 1) c
    simp only [List.length_cons]
    split at h
    · have := this h; omega
    · rcases List.mem_cons.mp h with rfl | h
      · exact ⟨Nat.le_refl _, by show a < a + _; omega⟩
      · have := this h; omega

/-- A write keeps memory in its canonical form. -/
theorem memWrite_wf {m : List Host.Cell} (h : Memory.wf m = true) (a : Nat) (bs : List Byte) :
    Memory.wf (memWrite m a bs) = true := by
  unfold Memory.wf memWrite
  rw [List.append_assoc]
  refine memOkFrom_append (a := a) (memOkFrom_filter _ h) (fun c hc => by simpa using (List.mem_filter.mp hc).2)
    (memOkFrom_append (a := a + bs.length) (memNew_ok a bs) (fun c hc => (memNew_keys a bs c hc).2) ?_ (by omega)) (by omega)
  exact memOkFrom_from (memOkFrom_filter _ h) fun c hc => by simpa using (List.mem_filter.mp hc).2

/-- Clearing a range keeps memory in its canonical form. -/
theorem memClear_wf {m : List Host.Cell} (h : Memory.wf m = true) (lo hi : Nat) : Memory.wf (memClear m lo hi) = true :=
  memOkFrom_filter _ h

theorem poke_wf {s : State} (h : Memory.wf s.store.mem = true) (a : Nat) (bs : List Byte) :
    Memory.wf (s.poke a bs).store.mem = true := memWrite_wf h a bs

theorem zero_wf {s : State} (h : Memory.wf s.store.mem = true) (lo hi : Nat) :
    Memory.wf (s.zero lo hi).store.mem = true := memClear_wf h lo hi

theorem reset_memory_wf : Memory.wf State.reset.store.mem = true := rfl

/-! ### What a read finds -/

theorem memGet_none {m : List Host.Cell} {a : Nat} (h : ∀ c ∈ m, c.1 ≠ a) : memGet m a = 0 := by
  induction m with
  | nil => rfl
  | cons c m ih =>
    rw [memGet, if_neg (h c (List.mem_cons_self ..))]
    exact ih fun d hd => h d (List.mem_cons_of_mem _ hd)

theorem memGet_append_left {m n : List Host.Cell} {a : Nat} (h : ∀ c ∈ n, c.1 ≠ a) : memGet (m ++ n) a = memGet m a := by
  induction m with
  | nil => exact memGet_none h
  | cons c m ih => rw [List.cons_append, memGet, memGet, ih]

theorem memGet_append_right {m n : List Host.Cell} {a : Nat} (h : ∀ c ∈ m, c.1 ≠ a) : memGet (m ++ n) a = memGet n a := by
  induction m with
  | nil => rfl
  | cons c m ih =>
    rw [List.cons_append, memGet, if_neg (h c (List.mem_cons_self ..))]
    exact ih fun d hd => h d (List.mem_cons_of_mem _ hd)

theorem memGet_filter {m : List Host.Cell} {a : Nat} (p : Host.Cell → Bool) (h : ∀ v, p (a, v) = true) :
    memGet (m.filter p) a = memGet m a := by
  induction m with
  | nil => rfl
  | cons c m ih =>
    obtain ⟨k, v⟩ := c
    by_cases hk : k = a
    · subst hk; rw [List.filter_cons, if_pos (h v), memGet, memGet, if_pos rfl, if_pos rfl]
    · rw [List.filter_cons, memGet, if_neg hk, ← ih]
      split
      · rw [memGet, if_neg hk]
      · rfl

theorem memGet_new (a x : Nat) (bs : List Byte) (h1 : a ≤ x) (h2 : x < a + bs.length) : memGet (memNew a bs) x = bs.getD (x - a) 0 := by
  induction bs generalizing a with
  | nil => simp only [List.length_nil] at h2; omega
  | cons b bs ih =>
    simp only [List.length_cons] at h2
    by_cases hx : x = a
    · subst hx
      rw [Nat.sub_self, List.getD_cons_zero, memNew]
      split
      · next hb => rw [hb]; exact memGet_none fun c hc => by have := memNew_keys _ _ c hc; omega
      · rw [memGet, if_pos rfl]
    · have e : x - a = (x - (a + 1)) + 1 := by omega
      rw [e, List.getD_cons_succ, memNew, ← ih (a + 1) (by omega) (by omega)]
      split
      · rfl
      · rw [memGet, if_neg (by omega)]

/-- A byte read after a write: the one written there, or the one that stood there. -/
theorem memGet_write (m : List Host.Cell) (a x : Nat) (bs : List Byte) :
    memGet (memWrite m a bs) x = if a ≤ x ∧ x < a + bs.length then bs.getD (x - a) 0 else memGet m x := by
  have low : ∀ c ∈ m.filter (fun c => decide (c.1 < a)), c.1 < a := fun c hc => by simpa using (List.mem_filter.mp hc).2
  have high : ∀ c ∈ m.filter (fun c => decide (a + bs.length ≤ c.1)), a + bs.length ≤ c.1 :=
    fun c hc => by simpa using (List.mem_filter.mp hc).2
  have mid := memNew_keys a bs
  unfold memWrite
  split
  · next h =>
    rw [memGet_append_left fun c hc => by have := high c hc; omega, memGet_append_right fun c hc => by have := low c hc; omega]
    exact memGet_new a x bs h.1 h.2
  · next h =>
    by_cases hx : x < a
    · rw [memGet_append_left fun c hc => by have := high c hc; omega, memGet_append_left fun c hc => by have := mid c hc; omega]
      exact memGet_filter _ fun v => by simpa using hx
    · rw [memGet_append_right fun c hc => by
        rcases List.mem_append.mp hc with hc | hc
        · have := low c hc; omega
        · have := mid c hc; omega]
      exact memGet_filter _ fun v => by simp; omega

/-- A byte read after a range was cleared. -/
theorem memGet_clear (m : List Host.Cell) (lo hi x : Nat) :
    memGet (memClear m lo hi) x = if lo ≤ x ∧ x < hi then 0 else memGet m x := by
  unfold memClear
  split
  · next h =>
    refine memGet_none fun c hc => ?_
    have := (List.mem_filter.mp hc).2
    simp only [Bool.or_eq_true, decide_eq_true_eq] at this
    omega
  · next h => exact memGet_filter _ fun v => by simp; omega

theorem memRead_length (m : List Host.Cell) (a n : Nat) : (memRead m a n).length = n := by simp [memRead]

/-- A read of bytes finds what each byte reads as. -/
theorem memRead_get (m : List Host.Cell) (a n i : Nat) (h : i < n) : (memRead m a n).getD i 0 = memGet m (a + i) := by
  unfold memRead
  simp only [List.getD, List.getElem?_map, List.getElem?_range h, Option.map_some, Option.getD_some]
  exact memGet_filter _ fun v => by simp; omega

theorem byte_poke (s : State) (a x : Nat) (bs : List Byte) :
    (s.poke a bs).byte x = if a ≤ x ∧ x < a + bs.length then bs.getD (x - a) 0 else s.byte x := memGet_write _ _ _ _

theorem byte_zero (s : State) (lo hi x : Nat) : (s.zero lo hi).byte x = if lo ≤ x ∧ x < hi then 0 else s.byte x :=
  memGet_clear _ _ _ _

end Sys2Proof.Machine
end

