-- ==== Sys2Proof/Laws/Settle.lean ====
section
/-! SUPPORT. What sampling the level sources changes, and the rest of a quiet device. -/

set_option linter.unusedVariables false
set_option linter.unusedSimpArgs false

namespace Sys2Proof.Machine

theorem setBit_get (v : BitVec 1024) (i j : Nat) (h : j < 1024) : (setBit v i).getLsbD j = (v.getLsbD j || decide (i = j)) := by
  unfold setBit; simp [BitVec.getLsbD_twoPow, h, eq_comm]

theorem clearBit_get (v : BitVec 1024) (i j : Nat) (h : j < 1024) : (clearBit v i).getLsbD j = (v.getLsbD j && !decide (i = j)) := by
  unfold clearBit; simp [BitVec.getLsbD_twoPow, h, eq_comm]

def OnlyLev (s t : State) : Prop := ∃ level pend args, t = { s with ev := { s.ev with level := level, pend := pend, args := args } }

theorem OnlyLev.refl (s : State) : OnlyLev s s := ⟨_, _, _, rfl⟩

theorem OnlyLev.trans {s t u : State} (a : OnlyLev s t) (b : OnlyLev t u) : OnlyLev s u := by
  obtain ⟨l, p, g, rfl⟩ := a; obtain ⟨l', p', g', rfl⟩ := b; exact ⟨_, _, _, rfl⟩

theorem OnlyLev.cond {s t : State} (a : OnlyLev s t) (i : Nat) : t.levelCond i = s.levelCond i := by
  obtain ⟨l, p, g, rfl⟩ := a; rfl

theorem OnlyLev.valid {s t : State} (a : OnlyLev s t) (i : Nat) : t.sourceValid i = s.sourceValid i := by
  obtain ⟨l, p, g, rfl⟩ := a; rfl

theorem OnlyLev.mask {s t : State} (a : OnlyLev s t) : t.ev.mask = s.ev.mask := by
  obtain ⟨l, p, g, rfl⟩ := a; rfl

theorem pending_only (s : State) (i : Nat) (f : Events → RaiseArgs) : OnlyLev s (s.onEv fun e => e.pending i (f e)) := by
  unfold Events.pending
  by_cases h1 : s.ev.masked i = true
  · exact ⟨s.ev.level, s.ev.pend, s.ev.args, by simp [State.onEv, h1]⟩
  · by_cases h2 : s.ev.pend.getLsbD i = true
    · exact ⟨s.ev.level, s.ev.pend, s.ev.args, by simp [State.onEv, h1, h2]⟩
    · exact ⟨s.ev.level, setBit s.ev.pend i, s.ev.args.put i (f s.ev), by simp [State.onEv, h1, h2]⟩

theorem assert_only (s : State) (i : Nat) : OnlyLev s (s.assertLevel i) := pending_only s i _

theorem assert_level (s : State) (i : Nat) : (s.assertLevel i).ev.level = s.ev.level := by
  unfold State.assertLevel Events.pending
  simp only [State.onEv_ev]
  split
  · rfl
  · split <;> rfl

theorem assert_pend (s : State) (i j : Nat) (h : j < 1024) :
    (s.assertLevel i).ev.pend.getLsbD j = (s.ev.pend.getLsbD j || (decide (i = j) && !s.ev.mask.getLsbD i)) := by
  unfold State.assertLevel Events.pending Events.masked
  simp only [State.onEv_ev]
  split
  · rename_i hm; simp [hm]
  · split
    · rename_i hm hp; by_cases hij : i = j
      · subst hij; simp [hp]
      · simp [hij]
    · rename_i hm hp; simp only [setBit_get _ _ _ h]; simp at hm; simp [hm]

theorem sample_only (s : State) (i : Nat) : OnlyLev s (s.sampleLevel i) := by
  unfold State.sampleLevel; dsimp only
  split
  · exact .refl s
  · split
    · refine OnlyLev.trans ?_ (assert_only _ _); exact ⟨_, s.ev.pend, s.ev.args, rfl⟩
    · exact ⟨_, s.ev.pend, s.ev.args, rfl⟩

theorem sample_level (s : State) (i j : Nat) (h : j < 1024) :
    (s.sampleLevel i).ev.level.getLsbD j = if i = j then (s.levelCond i && s.sourceValid i) else s.ev.level.getLsbD j := by
  unfold State.sampleLevel; dsimp only
  split
  · rename_i hc; split
    · rename_i hij; subst hij; exact hc.symm
    · rfl
  · cases hn : (s.levelCond i && s.sourceValid i)
    · simp only [Bool.false_eq_true, if_false, State.onEv_ev, clearBit_get _ _ _ h]
      by_cases hij : i = j <;> simp [hij]
    · simp only [if_true, assert_level, State.onEv_ev, setBit_get _ _ _ h]
      by_cases hij : i = j <;> simp [hij]

theorem sample_pend (s : State) (i j : Nat) (h : j < 1024) (hp : s.ev.pend.getLsbD j = true) :
    (s.sampleLevel i).ev.pend.getLsbD j = true := by
  unfold State.sampleLevel; dsimp only
  split
  · exact hp
  · split
    · simp [assert_pend _ _ _ h, hp]
    · simp [hp]

theorem sample_new (s : State) (j : Nat) (h : j < 1024) (hl : s.ev.level.getLsbD j = false) (hc : s.levelCond j = true)
    (hv : s.sourceValid j = true) (hm : s.ev.mask.getLsbD j = false) : (s.sampleLevel j).ev.pend.getLsbD j = true := by
  unfold State.sampleLevel; dsimp only
  simp [hl, hc, hv, assert_pend _ _ _ h, hm]

theorem fold_only (l : List Nat) (s : State) : OnlyLev s (l.foldl (fun s i => s.sampleLevel i) s) := by
  induction l generalizing s with
  | nil => exact .refl s
  | cons i l ih => exact (sample_only s i).trans (ih _)

theorem fold_pend (l : List Nat) (s : State) (j : Nat) (h : j < 1024) (hp : s.ev.pend.getLsbD j = true) :
    (l.foldl (fun s i => s.sampleLevel i) s).ev.pend.getLsbD j = true := by
  induction l generalizing s with
  | nil => exact hp
  | cons i l ih => exact ih _ (sample_pend s i j h hp)

theorem fold_level_out (l : List Nat) (s : State) (j : Nat) (h : j < 1024) (hn : j ∉ l) :
    (l.foldl (fun s i => s.sampleLevel i) s).ev.level.getLsbD j = s.ev.level.getLsbD j := by
  induction l generalizing s with
  | nil => rfl
  | cons i l ih =>
    simp only [List.mem_cons, not_or] at hn
    rw [List.foldl_cons, ih _ hn.2, sample_level _ _ _ h, if_neg (Ne.symm hn.1)]

theorem fold_level (l : List Nat) (s : State) (j : Nat) (h : j < 1024) (hn : j ∈ l) :
    (l.foldl (fun s i => s.sampleLevel i) s).ev.level.getLsbD j = (s.levelCond j && s.sourceValid j) := by
  induction l generalizing s with
  | nil => simp at hn
  | cons i l ih =>
    rw [List.foldl_cons]
    by_cases hj : j ∈ l
    · rw [ih _ hj, (sample_only s i).cond, (sample_only s i).valid]
    · have : i = j := by simp at hn; rcases hn with rfl | hn; rfl; exact absurd hn hj
      rw [fold_level_out _ _ _ h hj, sample_level _ _ _ h, if_pos this, this]

theorem fold_new (l : List Nat) (s : State) (j : Nat) (h : j < 1024) (hn : j ∈ l) (hl : s.ev.level.getLsbD j = false) (hc : s.levelCond j = true)
    (hv : s.sourceValid j = true) (hm : s.ev.mask.getLsbD j = false) :
    (l.foldl (fun s i => s.sampleLevel i) s).ev.pend.getLsbD j = true := by
  induction l generalizing s with
  | nil => simp at hn
  | cons i l ih =>
    rw [List.foldl_cons]
    by_cases hij : i = j
    · subst hij; exact fold_pend _ _ _ h (sample_new s i h hl hc hv hm)
    · have o := sample_only s i
      refine ih _ (by simp at hn; rcases hn with rfl | hn; exact absurd rfl hij; exact hn) ?_ (by rw [o.cond]; exact hc) (by rw [o.valid]; exact hv) (by rw [o.mask]; exact hm)
      rw [sample_level _ _ _ h, if_neg hij]; exact hl

theorem settle_only (s : State) : OnlyLev s (settle s) := by
  unfold settle; split
  · exact .refl s
  · exact fold_only _ _

theorem mem_levels {i : Nat} (h : i < 596) (hl : isLevel i = true) : i ∈ levelSources := by
  unfold levelSources; simp [h, hl]

theorem settle_sampled (s : State) : (settle s).LevelsSampled := by
  intro _ hr i hi hl
  have o := settle_only s
  rw [o.cond, o.valid]
  have hr' : s.boot.step ≠ .rom := by obtain ⟨_, _, _, e⟩ := o; rw [e] at hr; exact hr
  unfold settle; rw [if_neg hr', fold_level _ _ _ (by omega) (mem_levels hi hl)]

theorem tick_sampled {s : State} (h : s.LevelsSampled) : (tick s).LevelsSampled := by
  unfold tick; split
  · intro a b i hi hl; exact h a b i hi hl
  · exact h

theorem mergesAgain_rest {s : State} (h : ∀ k ∈ s.srch.colls.map (·.1), (s.coll k).merge.st ≠ .running) : s.mergesAgain = s := by
  unfold State.mergesAgain
  generalize hl : s.srch.colls.map (·.1) = l at h
  clear hl
  induction l with
  | nil => rfl
  | cons k l ih =>
    have : s.mergeAgain k = s := by simp [State.mergeAgain, h k (by simp)]
    rw [List.foldl_cons, this]; exact ih fun i hi => h i (by simp [hi])

theorem goOn_quiet {s : State} (h : s.Quiet) : s.goOn = s := by
  obtain ⟨h1, h2, h3, h4, h5, hsl, h6, h7, h8, h9, h10, h11⟩ := h
  have a : s.finishAll = s := by simp [fairOrder, State.finishAll, State.opsThat, h1]
  have b : s.startAll = s := by simp [fairOrder, State.startAll, State.opsThat, h1]
  have c : s.jobsGo = s := by simp [fairOrder, State.jobsGo, h2]
  have d : ∀ n, s.retrainNext n = s := by
    intro n; cases n with
    | zero => rfl
    | succ n => simp [State.retrainNext, h3, h4]
  have e : s.drillProgress = s := by simp [State.drillProgress, h5]
  have f1 : s.shadowsWaiting = s := by simp [State.shadowsWaiting, h6]
  have f2 : s.retireDone = s := by
    have : (s.onTwin fun t => { t with holders := t.holders.filter fun h => !([] : List HolderOp).contains h }) = s := by
      simp [State.onTwin]
    simp only [State.retireDone, h7, List.filter_nil, List.foldl_nil]; exact this
  have f3 : s.resyncCheckpoint = s := by simp [State.resyncCheckpoint, h8]
  have f4 : s.resyncBegin = s := by simp [State.resyncBegin, h9]
  have f : s.twinHook = s := by simp [State.twinHook, f1, f2, f3, f4, h1, h10]
  have g : s.evictResets = s := by
    have h0 : (s.ctl.resetting.filter fun p => isSlice p && s.sliceIdle p && !(s.evictable p).isEmpty) = [] := by
      rw [List.filter_eq_nil_iff]
      intro p hp; cases hs : isSlice p
      · simp
      · simp [hsl p hp hs]
    unfold State.evictResets; rw [h0]; rfl
  simp [State.goOn, a, b, c, d, e, f, g, mergesAgain_rest h11]

end Sys2Proof.Machine
end

