-- ==== Sys2Proof/Laws/Transport.lean ====
section
/-! SUPPORT. Everything that sending and answering can do: OnlySends and OnlyAnswers of the transport's operations. -/

namespace Sys2Proof.Machine

theorem State.OnlySends.refl (s : State) : s.OnlySends s := rfl

theorem State.OnlySends.trans {s t u : State} (h : s.OnlySends t) (g : t.OnlySends u) : s.OnlySends u := by
  unfold State.OnlySends at *; rw [g, h]

theorem State.OnlySends.onDrill (s : State) (f : Drill → Drill) : s.OnlySends (s.onDrill f) := rfl
theorem State.OnlySends.onConn (s : State) (c : Nat) (f : Conn → Conn) : s.OnlySends (s.onConn c f) := rfl
theorem State.OnlySends.onPath (s : State) (c n : Nat) (f : PathSt → PathSt) : s.OnlySends (s.onPath c n f) := rfl
theorem State.OnlySends.setReg (s : State) (a v : Nat) : s.OnlySends (s.setReg a v) := rfl
theorem State.OnlySends.bump (s : State) (a n : Nat) : s.OnlySends (s.bump a n) := rfl
theorem State.OnlySends.bump64 (s : State) (a n : Nat) : s.OnlySends (s.bump64 a n) := rfl

theorem State.OnlySends.foldl {α : Type} (f : State → α → State) (h : ∀ (s : State) a, s.OnlySends (f s a)) (l : List α) (s : State) :
    s.OnlySends (l.foldl f s) := by
  induction l generalizing s with
  | nil => exact .refl s
  | cons a l ih => exact (h s a).trans (ih _)

theorem State.OnlySends.when (s : State) (b : Bool) (f : State → State) (h : s.OnlySends (f s)) : s.OnlySends (s.when b f) := by
  cases b
  · exact .refl s
  · exact h

theorem drillDrop_only (s : State) (p d : Nat) : s.OnlySends (s.drillDrop p d).2 := by
  unfold State.drillDrop
  dsimp only
  repeat' split
  all_goals first
    | exact .refl s
    | exact (State.OnlySends.onDrill s _).trans (State.OnlySends.bump _ _ _)
    | rfl

theorem protect_only {s t : State} {p : Nat} (h : s.protect p = some t) : s.OnlySends t := by
  unfold State.protect at h
  dsimp only at h
  split at h
  · split at h
    · cases h; rfl
    · cases h
  · cases h; exact .refl s

theorem emitRaw_only (s : State) (p : Nat) (dst : BitVec 128) (dport : BitVec 16) (f : Frame) :
    s.OnlySends (s.emitRaw p dst dport f) := by
  unfold State.emitRaw
  split
  · have h := drillDrop_only s p 1
    revert h; rcases s.drillDrop p 1 with ⟨b, u⟩; intro h
    dsimp only at h ⊢
    split
    · exact h
    · split
      · exact h
      · rename_i t ht; exact h.trans ((protect_only ht).trans ((State.OnlySends.bump64 _ _ _).trans rfl))
  · exact .refl s

theorem sendOnPath_only (s : State) (c n : Nat) (f : Frame) : s.OnlySends (s.sendOnPath c n f) := by
  unfold State.sendOnPath
  repeat' split
  all_goals first | exact .refl s | exact (State.OnlySends.onPath s _ _ _).trans (emitRaw_only _ _ _ _ _)

theorem sendSeq_only (s : State) (c : Nat) (f : Frame) : s.OnlySends (s.sendSeq c f) := by
  unfold State.sendSeq
  split
  · exact .refl s
  · dsimp only; split
    · exact (State.OnlySends.onConn s _ _).trans (sendOnPath_only _ _ _ _)
    · exact State.OnlySends.onConn s _ _

theorem sendUnseq_only (s : State) (c n : Nat) (f : Frame) : s.OnlySends (s.sendUnseq c n f) := by
  unfold State.sendUnseq
  split
  · exact .refl s
  · exact sendOnPath_only _ _ _ _

theorem sendAck_only (s : State) (c n : Nat) : s.OnlySends (s.sendAck c n) := by
  unfold State.sendAck
  split
  · exact .refl s
  · exact (State.OnlySends.onConn s _ _).trans (sendUnseq_only _ _ _ _)

theorem releaseCmd_only (s : State) (c cmd : Nat) : s.OnlySends (s.releaseCmd c cmd) := by
  unfold State.releaseCmd
  split
  · exact .refl s
  · dsimp only; split
    · exact .refl s
    · exact (State.OnlySends.onConn s _ _).trans (State.OnlySends.foldl _ (fun s f => sendSeq_only s c f) _ _)

theorem answer_only (s : State) (c : Nat) (req f : Frame) : s.OnlySends (s.answer c req f) := by
  unfold State.answer
  split
  · exact .refl s
  · split
    · exact .refl s
    · dsimp only
      refine State.OnlySends.trans ?_ (releaseCmd_only _ _ _)
      split
      · exact (State.OnlySends.onConn s _ _).trans (sendSeq_only _ _ _)
      · exact State.OnlySends.onConn s _ _

theorem respond_only (s : State) (c : Nat) (req : Frame) (st : Status) (p : List Byte) :
    s.OnlySends (s.respond c req st p) := answer_only _ _ _ _

theorem resend_only (s : State) (c : Nat) (q : BitVec 32) : s.OnlySends (s.resend c q) := by
  unfold State.resend
  repeat' split
  all_goals first
    | exact .refl s
    | exact ((State.OnlySends.onConn s _ _).trans (State.OnlySends.bump _ _ _)).trans (sendOnPath_only _ _ _ _)

theorem ackOne_only (s : State) (c n : Nat) (b : Bool) (e : TxEntry) : s.OnlySends (s.ackOne c n b e) :=
  (State.OnlySends.onConn s _ _).trans (State.OnlySends.onPath _ _ _ _)

theorem takeAck_only (s : State) (c n : Nat) (f : Frame) : s.OnlySends (s.takeAck c n f) := by
  unfold State.takeAck
  split
  · exact .refl s
  · split
    · exact (State.OnlySends.foldl _ (fun (s : State) (e : TxEntry) => ackOne_only s c n _ e) _ _).trans
        (State.OnlySends.foldl _ (fun (s : State) (e : TxEntry) => resend_only s c e.f.seq) _ _)
    · exact .refl s

theorem State.OnlySends.answers {s t : State} (h : s.OnlySends t) : s.OnlyAnswers t := by
  unfold State.OnlySends at h; unfold State.OnlyAnswers; rw [h]

theorem State.OnlyAnswers.refl (s : State) : s.OnlyAnswers s := rfl

theorem State.OnlyAnswers.trans {s t u : State} (h : s.OnlyAnswers t) (g : t.OnlyAnswers u) : s.OnlyAnswers u := by
  unfold State.OnlyAnswers at *; rw [g, h]

theorem State.OnlyAnswers.delJob (s : State) (i : Nat) :
    s.OnlyAnswers (s.onJobs fun j => { j with jobs := j.jobs.del i }) := rfl

theorem State.OnlyAnswers.delOp (s : State) (i : Nat) :
    s.OnlyAnswers (s.onJobs fun j => { j with ops := j.ops.del i }) := rfl

theorem State.OnlyAnswers.foldl {α : Type} (f : State → α → State) (h : ∀ (s : State) a, s.OnlyAnswers (f s a)) (l : List α) (s : State) :
    s.OnlyAnswers (l.foldl f s) := by
  induction l generalizing s with
  | nil => exact .refl s
  | cons a l ih => exact (h s a).trans (ih _)

theorem sendJobDone_only (s : State) (i : Nat) (j : Job) (st : Status) (body : List Byte) :
    s.OnlyAnswers (s.sendJobDone i j st body) :=
  (State.OnlyAnswers.delJob s i).trans (((State.OnlySends.bump64 _ _ _).trans (answer_only _ _ _ _)).answers)

theorem refuseJob_only (s : State) (j : Job) (st : Status) : s.OnlyAnswers (s.refuseJob j st) :=
  (show s.OnlyAnswers s.draw.2 from rfl).trans (answer_only _ _ _ _).answers

theorem refuseWaiting_only (s : State) (w : Waiting) (st : Status) : s.OnlyAnswers (s.refuseWaiting w st) := by
  unfold State.refuseWaiting
  split
  · exact refuseJob_only _ _ _
  · exact (respond_only _ _ _ _ _).answers

theorem answerAll_only (s : State) : s.OnlyAnswers s.answerAll := by
  unfold State.answerAll
  dsimp only
  refine State.OnlyAnswers.trans ?_ (State.OnlyAnswers.foldl _ (fun (s : State) w => (respond_only s _ _ _ _).answers) _ _)
  refine State.OnlyAnswers.trans ?_ (State.OnlyAnswers.foldl _ (fun (s : State) w => refuseWaiting_only s w _) _ _)
  refine State.OnlyAnswers.trans ?_ (State.OnlyAnswers.foldl _ (fun (s : State) w => (respond_only s _ _ _ _).answers) _ _)
  refine State.OnlyAnswers.trans ?_ (State.OnlyAnswers.foldl _ (fun (s : State) (e : Nat × Op) => (State.OnlyAnswers.delOp s e.1).trans (respond_only _ _ _ _ _).answers) _ _)
  exact State.OnlyAnswers.foldl _ (fun (s : State) e => sendJobDone_only s _ _ _ _) _ _

theorem sendNotice_only (s : State) (aux : Nat) : s.OnlySends (s.sendNotice aux) :=
  State.OnlySends.when _ _ _ (sendSeq_only _ _ _)

theorem drop_net (s : State) (p d : Nat) : (s.drillDrop p d).2.net = s.net ∧ (s.drillDrop p d).2.boot = s.boot := by
  unfold State.drillDrop; dsimp only
  repeat' split
  all_goals exact ⟨rfl, rfl⟩

theorem protect_sent {u v : State} {p : Nat} (h : u.protect p = some v) : v.net.sent = u.net.sent ∧ v.boot = u.boot := by
  unfold State.protect at h; dsimp only at h
  split at h
  · split at h
    · cases h; exact ⟨rfl, rfl⟩
    · cases h
  · cases h; exact ⟨rfl, rfl⟩

theorem emit_sent {s : State} {p : Nat} (h : s.CanSend p) (x : BitVec 128) (y : BitVec 16) (f : Frame) :
    (s.emit p x y f).net.sent = s.net.sent ++ [.jmt p x y s.udpPort { f with incarn := s.boot.incarn }] := by
  obtain ⟨h1, h2, h3, h4⟩ := h
  have d := (drop_net s p 1).1
  unfold State.emit State.emitRaw
  rw [h1, h2]
  revert h3 h4 d
  rcases s.drillDrop p 1 with ⟨b, u⟩
  intro h3 h4 d
  dsimp only at h3 h4 d ⊢
  subst h3
  cases hp : u.protect p with
  | none => rw [hp] at h4; cases h4
  | some v =>
    have e2 := protect_sent hp
    show (v.net.sent ++ _) = _
    rw [e2.1, d]

theorem has_with (f : Frame) (k j : Nat) (hj : j < 12) : has (withFlag f k) j = (has f j || decide (k = j)) := by
  unfold has withFlag; simp [hj, eq_comm]

theorem has_flagIf (f : Frame) (b : Bool) (k j : Nat) (hj : j < 12) : has (flagIf b k f) j = (has f j || (b && decide (k = j))) := by
  unfold flagIf; cases b
  · simp
  · simp only [if_true]; rw [has_with _ _ _ hj]; simp

theorem flagIf_ty (f : Frame) (b : Bool) (k : Nat) : (flagIf b k f).ty = f.ty := by unfold flagIf; split <;> rfl

theorem flagIf_ack (f : Frame) (b : Bool) (k : Nat) : (flagIf b k f).ack = f.ack := by unfold flagIf; split <;> rfl

theorem withAck_facts (k : Conn) (f : Frame) : (k.withAck f).ty = f.ty ∧ (k.withAck f).ack = k.rxNext ∧
    (∀ j, j < 12 → j ≠ fAckValid → j ≠ fSack → has (k.withAck f) j = has f j) ∧ has (k.withAck f) fAckValid = true := by
  unfold Conn.withAck; dsimp only
  split
  · refine ⟨rfl, rfl, ?_, ?_⟩
    · intro j hj h1 _; rw [has_with _ _ _ hj]; simp [Ne.symm h1, has]
    · rw [has_with _ _ _ (by decide)]; simp
  · refine ⟨rfl, rfl, ?_, ?_⟩
    · intro j hj h1 h2; rw [has_with _ _ _ hj]
      show (has (withFlag { f with ack := k.rxNext } fAckValid) j || _) = _
      rw [has_with _ _ _ hj]; simp [Ne.symm h1, Ne.symm h2, has]
    · rw [has_with _ _ _ (by decide)]
      show (has (withFlag { f with ack := k.rxNext } fAckValid) fAckValid || _) = _
      rw [has_with _ _ _ (by decide)]; simp

theorem protect_some (u : State) (p : Nat) : (u.protect p).isSome = (!bit (u.reg (Reg.portMacsecCtrl (portPage p))) 0 ||
    (Tbl.get? u.net.sas (saKey p 1 (bits (u.reg (Reg.portMacsecCtrl (portPage p))) 5 4))).isSome) := by
  unfold State.protect; dsimp only
  split
  · next h => rw [h]; split <;> (next h2 => rw [h2]; rfl)
  · next h => simp only [Bool.not_eq_true] at h; rw [h]; rfl

theorem onPath_send {s : State} {p : Nat} (h : s.CanSend p) (c : Nat) (f : Conn → Conn) : (s.onConn c f).CanSend p := by
  obtain ⟨h1, h2, h3, h4⟩ := h
  have e : (s.onConn c f).drillDrop p 1 = ((s.drillDrop p 1).1, (s.drillDrop p 1).2.onConn c f) := by
    unfold State.drillDrop
    dsimp only
    rw [show (s.onConn c f).drill = s.drill from rfl, show (s.onConn c f).groupOf p = s.groupOf p from rfl]
    split_ifs <;> rfl
  refine ⟨h1, h2, ?_, ?_⟩
  · rw [e]; exact h3
  · rw [e]; dsimp only
    revert h4; generalize (s.drillDrop p 1).2 = u
    intro h4
    rw [protect_some] at h4 ⊢
    exact h4

theorem sendOnPath_conn (s : State) (c n : Nat) (f : Frame) (P : Conn → Bool) (hP : ∀ (k : Conn) g, P { k with paths := g } = P k) :
    ((s.sendOnPath c n f).conn? c).any P = (s.conn? c).any P := by
  have em : ∀ (u : State) p x y g, (u.emit p x y g).net.conns = u.net.conns := by
    intro u p x y g
    unfold State.emit State.emitRaw
    split
    · have d := (drop_net u p 1).1
      revert d; rcases u.drillDrop p 1 with ⟨b, v⟩; intro d
      dsimp only at d ⊢
      split
      · rw [d]
      · cases hp : v.protect p with
        | none => dsimp only; rw [d]
        | some w =>
          show w.net.conns = _
          unfold State.protect at hp; dsimp only at hp
          split at hp
          · split at hp
            · cases hp; show v.net.conns = _; rw [d]
            · cases hp
          · cases hp; rw [d]
    · rfl
  unfold State.sendOnPath
  cases hk : s.conn? c with
  | none => rw [hk]
  | some k =>
    dsimp only
    cases hq : Tbl.get? k.paths n with
    | none => dsimp only; rw [hk]
    | some q =>
      dsimp only
      cases ho : s.outPort q with
      | none => dsimp only; rw [hk]
      | some p =>
        dsimp only
        unfold State.conn?
        rw [em]
        show ((s.onPath c n _).conn? c).any P = _
        unfold State.onPath
        rw [State.conn?_onConn, if_pos rfl, hk]
        exact hP k _

theorem as_has (k : Nat) (on : Bool) (rx : Rx) (hk : k < 12) : has (asFlag k on rx).f k = on := by
  unfold asFlag; dsimp only
  rw [has_flagIf _ _ _ _ hk]
  unfold has; simp [hk]

theorem as_has_ne (k j : Nat) (on : Bool) (rx : Rx) (hj : j < 12) (h : k ≠ j) : has (asFlag k on rx).f j = has rx.f j := by
  unfold asFlag; dsimp only
  rw [has_flagIf _ _ _ _ hj]
  unfold has; simp [hj, Ne.symm h, h]

theorem type_resp (ty : Nat) (b : Bool) (rx : Rx) : has (asType ty b rx).f fResp = b := by
  unfold asType; dsimp only
  rw [has_flagIf _ _ _ _ (by decide)]
  unfold has; simp [fResp]

theorem type_ty (ty : Nat) (b : Bool) (rx : Rx) : (asType ty b rx).f.ty = BitVec.ofNat 8 ty := by
  unfold asType; dsimp only; rw [flagIf_ty]

theorem flag_ty (k : Nat) (b : Bool) (rx : Rx) : (asFlag k b rx).f.ty = rx.f.ty := by
  unfold asFlag; dsimp only; rw [flagIf_ty]

end Sys2Proof.Machine
end

