-- ==== Sys2Proof/Laws/Resets.lean ====
section
/-! SUPPORT. What resets leave, and what the end of a drill, an undo and a beacon may change. -/

set_option linter.unusedVariables false
set_option linter.unusedSimpArgs false

namespace Sys2Proof.Machine

theorem sticky_lt (s : State) : s.reg Reg.ppPpSticky < 2 ^ 64 := by
  unfold State.reg; split
  · exact BitVec.isLt _
  · decide

theorem cold_started (s : State) (kind : Nat) (v : BitVec 8) : s.ColdStarted (s.coldReset kind v) kind v := by
  by_cases h : s.reg Reg.ppPpSticky = 0
  · unfold State.coldReset
    dsimp only
    rw [if_pos h]
    constructor <;> try rfl
    · intro a _; rfl
    · rw [h]; rfl
  · unfold State.coldReset
    dsimp only
    rw [if_neg h]
    constructor <;> try rfl
    · intro a ha; rw [State.reg_setReg, if_neg (Ne.symm ha)]; rfl
    · rw [State.reg_setReg, if_pos rfl]; exact Nat.mod_eq_of_lt (sticky_lt s)

theorem cold_now (s : State) (kind : Nat) (v : BitVec 8) : (s.coldReset kind v).now = s.now := by
  unfold State.coldReset; dsimp only; split <;> rfl

theorem settle_rom {s : State} (h : s.boot.step = .rom) : settle s = s := by unfold settle; rw [if_pos h]

theorem started_time {s t : State} {k v} (h : s.ColdStarted t k v) : s.ColdStarted { t with time := { }, net := { t.net with freed := [] } } k v := by
  cases h; constructor <;> assumption

theorem started_of {s u t : State} {k v} (h : u.ColdStarted t k v) (h1 : u.boot.flash = s.boot.flash) (h2 : u.boot.fuseSvn = s.boot.fuseSvn)
    (h3 : u.reg Reg.ppPpSticky = s.reg Reg.ppPpSticky) (h4 : u.pending = s.pending) : s.ColdStarted t k v := by
  cases h; constructor <;> first | assumption | simp_all

def OnlyDrillEnd (s t : State) : Prop :=
  t = { s with ctl := { s.ctl with regs := t.ctl.regs }, net := { s.net with ports := t.net.ports, groups := t.net.groups, conns := t.net.conns }, store := { s.store with flawed := t.store.flawed }, ev := t.ev, drill := t.drill }

theorem ode_refl (s : State) : OnlyDrillEnd s s := rfl

theorem ode_trans {s t u : State} (a : OnlyDrillEnd s t) (b : OnlyDrillEnd t u) : OnlyDrillEnd s u := by
  unfold OnlyDrillEnd at *; rw [b, a]

theorem ode_raise (s : State) (i : Nat) (a : RaiseArgs) : OnlyDrillEnd s (s.raise i a) := rfl

theorem ode_bump (s : State) (i n : Nat) : OnlyDrillEnd s (s.bump i n) := rfl

theorem ode_remove (s : State) (g p : Nat) : OnlyDrillEnd s (s.removeMember g p) := by
  unfold State.removeMember; split
  · exact ode_refl s
  · unfold State.drillCount State.when
    dsimp only
    split <;> rfl

theorem ode_retrain (s : State) (p : Nat) (e : Bool) : OnlyDrillEnd s (s.retrain p e) := by
  unfold State.retrain State.when; dsimp only; repeat' split
  · refine ode_trans (t := s.onPort p _) ?_ (ode_remove _ _ _); rfl
  · rfl
  · rfl

theorem ode_drillEnds (s : State) (st : Status) : OnlyDrillEnd s (s.drillEnds st) := by
  unfold State.drillEnds; dsimp only; split
  · exact ode_refl s
  · refine ode_trans ?_ (ode_raise _ _ _)
    split
    · rfl
    · generalize hu : State.onPort _ _ _ = u
      have a : OnlyDrillEnd s u := by rw [← hu]; rfl
      split
      · exact ode_trans a (ode_retrain _ _ _)
      · exact a
    · rfl

def OnlyMem (s t : State) : Prop := t = { s with store := { s.store with mem := t.store.mem } }

theorem om_refl (s : State) : OnlyMem s s := rfl

theorem om_trans {s t u : State} (a : OnlyMem s t) (b : OnlyMem t u) : OnlyMem s u := by
  unfold OnlyMem at *; rw [b, a]

theorem om_undoBit (s : State) (a b c : Nat) (d : Bool) : OnlyMem s (s.undoBit a b c d) := by
  unfold State.undoBit; split <;> rfl

theorem om_undoSide (x : Collection) (n k : Nat) (s : State) : OnlyMem s (undoSide x n k s) := by
  induction n generalizing k s with
  | zero => exact om_refl s
  | succ n ih =>
    unfold undoSide; dsimp only; split
    · refine om_trans ?_ (ih _ _)
      split
      · exact om_undoBit _ _ _ _ _
      · exact om_trans (om_undoBit _ _ _ _ _) (om_undoBit _ _ _ _ _)
    · exact om_refl s

theorem om_undoAll (s : State) : OnlyMem s s.undoAll := by
  unfold State.undoAll
  generalize s.srch.colls.vals = l
  induction l generalizing s with
  | nil => exact om_refl s
  | cons x l ih =>
    rw [List.foldl_cons]
    refine om_trans ?_ (ih _)
    split
    · exact om_undoSide _ _ _ _
    · exact om_refl s

def OnlyHist (s t : State) : Prop := t = { s with pal := t.pal, mon := t.mon }

theorem oh_refl (s : State) : OnlyHist s s := rfl

theorem oh_trans {s t u : State} (a : OnlyHist s t) (b : OnlyHist t u) : OnlyHist s u := by
  unfold OnlyHist at *; rw [b, a]

theorem oh_pal (s : State) (f : Palettes → Palettes) : OnlyHist s (s.onPal f) := rfl

theorem oh_mon (s : State) (f : Tbl MonSlot → Tbl MonSlot) : OnlyHist s (s.onMon f) := rfl

theorem oh_ask (s : State) (g : Nat) (u : HistUser) : OnlyHist s (s.histAsk g u) := by
  unfold State.histAsk; dsimp only; split
  · exact oh_trans (oh_pal s _) (oh_pal _ _)
  · exact oh_pal s _

theorem oh_build (s : State) (n : Nat) : OnlyHist s (s.buildAsk n) := by
  have a : OnlyHist s ((s.onPalSlot n fun x => { x with build := some { st := .waiting } }).histAsk (n % 2) (.slot n)) := oh_trans (oh_pal s _) (oh_ask _ _ _)
  unfold State.buildAsk; dsimp only; split
  · exact oh_trans a (oh_pal _ _)
  · exact a

theorem oh_mona (s : State) (m : Nat) : OnlyHist s (s.monAgain m) := by
  unfold State.monAgain; split
  · dsimp only
    generalize hu : s.onSlot m _ = u
    have a : OnlyHist s u := by rw [← hu]; rfl
    refine oh_trans a ?_
    unfold State.when; split
    · exact oh_trans (oh_ask _ _ _) (oh_mon _ _)
    · exact oh_mon _ _
  · exact oh_mon _ _

theorem oh_fold {α : Type} (f : State → α → State) (h : ∀ s a, OnlyHist s (f s a)) (l : List α) (s : State) : OnlyHist s (l.foldl f s) := by
  induction l generalizing s with
  | nil => exact oh_refl s
  | cons a l ih => exact oh_trans (h s a) (ih _)

theorem oh_again (s : State) (l : List Nat) : OnlyHist s (s.histAgain l) := by
  unfold State.histAgain; dsimp only
  exact oh_trans (oh_fold _ oh_build _ _) (oh_fold _ oh_mona _ _)

theorem get?_filter {α : Type} (p : Nat → Bool) (t : Tbl α) (a : Nat) (h : p a = false) : Tbl.get? (List.filter (fun r => p r.1) t) a = none := by
  induction t with
  | nil => rfl
  | cons e t ih =>
    obtain ⟨k, v⟩ := e
    by_cases hk : p k = true
    · simp only [List.filter, hk, Tbl.get?]
      rw [if_neg (by rintro rfl; simp [h] at hk)]; exact ih
    · simp only [Bool.not_eq_true] at hk; simp only [List.filter, hk]; exact ih

theorem warm_started (s : State) (kind : Nat) (forced : Bool) :
    s.WarmStarted (s.warmReset kind forced) kind (!forced) ∧ (forced = false → (s.warmReset kind forced).coh.dir = rehomeList s.coh.dir) := by
  have a := ode_drillEnds s .ok
  have b := om_undoAll (s.drillEnds .ok)
  unfold State.warmReset
  dsimp only
  generalize (s.drillEnds .ok).undoAll = u at b
  generalize s.drillEnds .ok = d at a b
  generalize List.map (fun x => x.1) (List.filter (fun e => e.2.build.isSome) u.pal.slots) = l
  generalize hv : ({ u with
      ctl := u.ctl.warm, boot := u.boot.again kind (!forced) (u.boot.incarn + 1), time := u.time.again, net := u.net.warm u.ran
      store := u.store.warm u.ran, coh := u.warmCoh forced, xlat := u.xlat.warm, jobs := u.jobs.warm, pal := u.pal.warm
      emb := { tables := u.emb.tables.map fun (n, t) => (n, t.warm), windowAt := u.ran }
      srch := { colls := u.srch.colls.map fun (n, x) => (n, x.warm) }
      twin := u.twin.warm u.ran, ev := u.ev.warm, drill := { }, pwr := { u.pwr with paceLow := false }, quiet := { } } : State) = v
  have e := oh_again v l
  generalize v.histAgain l = w at e
  have hw : w = { v with pal := w.pal, mon := w.mon } := e
  have hu : ∃ fl m, u.boot = s.boot ∧ u.time = s.time ∧ u.net.joinKeys = s.net.joinKeys ∧ u.coh = s.coh ∧ u.xlat = s.xlat ∧ u.jobs = s.jobs ∧ u.sess = s.sess ∧ u.twin = s.twin ∧ u.pending = s.pending ∧ u.store = { s.store with flawed := fl, mem := m } := by
    unfold OnlyMem at b; unfold OnlyDrillEnd at a
    refine ⟨d.store.flawed, u.store.mem, ?_⟩
    rw [b, a]; exact ⟨rfl, rfl, rfl, rfl, rfl, rfl, rfl, rfl, rfl, rfl⟩
  obtain ⟨fl, m, u1, u2, u3, u5, u6, u7, u8, u9, u10, u11⟩ := hu
  have ww : ∀ {α : Type} (g : State → α) (hg : ∀ x p mo, g { x with pal := p, mon := mo } = g x), g (w.bump Reg.mgResetCount) = g (v.bump Reg.mgResetCount) := by
    intro α g hg
    have hb : w.bump Reg.mgResetCount = { (v.bump Reg.mgResetCount) with pal := w.pal, mon := w.mon } := by rw [hw]; rfl
    rw [hb, hg]
  refine ⟨?_, ?_⟩
  rotate_left
  · intro hf; subst hf
    exact (ww (fun y => y.coh.dir) (fun _ _ _ => rfl)).trans (by rw [← hv, ← u5]; rfl)
  constructor
  case regs =>
    intro x hx hn
    refine (ww (fun y => y.reg x) (fun _ _ _ => rfl)).trans ?_
    show (State.setReg v _ _).reg x = _
    rw [State.reg_setReg, if_neg (Ne.symm hn)]
    rw [← hv]
    show (match Tbl.get? (List.filter (fun r => warmReg r.1) u.ctl.regs) x with
      | some v => v.toNat
      | none => resetValue x) = _
    rw [get?_filter warmReg _ _ hx]
  all_goals
    first
    | exact ((ww (fun y => y.boot.step) (fun _ _ _ => rfl)).trans (by rw [← hv]; rfl))
    | exact ((ww (fun y => y.boot.service) (fun _ _ _ => rfl)).trans (by rw [← hv]; rfl))
    | exact ((ww (fun y => y.boot.lastKind) (fun _ _ _ => rfl)).trans (by rw [← hv]; rfl))
    | exact ((ww (fun y => y.boot.saved) (fun _ _ _ => rfl)).trans (by rw [← hv]; rfl))
    | exact ((ww (fun y => y.boot.incarn) (fun _ _ _ => rfl)).trans (by rw [← hv, ← u1]; rfl))
    | exact ((ww (fun y => y.boot.flash) (fun _ _ _ => rfl)).trans (by rw [← hv, ← u1]; rfl))
    | exact ((ww (fun y => y.boot.fuseSvn) (fun _ _ _ => rfl)).trans (by rw [← hv, ← u1]; rfl))
    | exact ((ww (fun y => y.now) (fun _ _ _ => rfl)).trans (by rw [← hv]; show u.time.now = s.time.now; rw [u2]))
    | exact ((ww (fun y => y.net.conns) (fun _ _ _ => rfl)).trans (by rw [← hv]; rfl))
    | exact ((ww (fun y => y.net.joinKeys) (fun _ _ _ => rfl)).trans (by rw [← hv, ← u3]; rfl))
    | exact ((ww (fun y => y.store.extents) (fun _ _ _ => rfl)).trans (by rw [← hv]; show u.store.extents = _; rw [u11]))
    | exact ((ww (fun y => y.store.quotas) (fun _ _ _ => rfl)).trans (by rw [← hv]; show u.store.quotas = _; rw [u11]))
    | exact ((ww (fun y => y.coh.log) (fun _ _ _ => rfl)).trans (by rw [← hv, ← u5]; rfl))
    | exact ⟨(ww (fun y => y.coh.rehomeSt) (fun _ _ _ => rfl)).trans (by rw [← hv]; rfl), (ww (fun y => y.coh.rehomeSaved) (fun _ _ _ => rfl)).trans (by rw [← hv]; rfl)⟩
    | exact ((ww (fun y => y.xlat.ctx) (fun _ _ _ => rfl)).trans (by rw [← hv, ← u6]; rfl))
    | (have : (w.bump Reg.mgResetCount).xlat = u.xlat.warm := (ww (fun y => y.xlat) (fun _ _ _ => rfl)).trans (by rw [← hv]; rfl)
       rw [this]; exact ⟨rfl, rfl, rfl, rfl, rfl⟩)
    | (have : (w.bump Reg.mgResetCount).jobs = u.jobs.warm := (ww (fun y => y.jobs) (fun _ _ _ => rfl)).trans (by rw [← hv]; rfl)
       rw [this]; exact ⟨rfl, rfl⟩)
    | exact ((ww (fun y => y.jobs.tenants) (fun _ _ _ => rfl)).trans (by rw [← hv, ← u7]; rfl))
    | exact ((ww (fun y => y.sess) (fun _ _ _ => rfl)).trans (by rw [← hv, ← u8]; rfl))
    | (have : (w.bump Reg.mgResetCount).twin = u.twin.warm u.ran := (ww (fun y => y.twin) (fun _ _ _ => rfl)).trans (by rw [← hv]; rfl)
       rw [this, u9]; exact ⟨rfl, rfl⟩)
    | (have : (w.bump Reg.mgResetCount).ev = u.ev.warm := (ww (fun y => y.ev) (fun _ _ _ => rfl)).trans (by rw [← hv]; rfl)
       rw [this]; exact ⟨rfl, rfl, rfl, rfl⟩)
    | exact ((ww (fun y => y.drill) (fun _ _ _ => rfl)).trans (by rw [← hv]; rfl))
    | exact ((ww (fun y => y.pending) (fun _ _ _ => rfl)).trans (by rw [← hv, ← u10]; rfl))

theorem warm_of {s u t : State} {k b} (o : s.OnlyAnswers u) (h : u.WarmStarted t k b) : s.WarmStarted t k b := by
  have e := o; unfold State.OnlyAnswers at e
  obtain ⟨h1,h2,h3,h4,h5,h6,h7,h8,h9,h10,h11,h12,h13,h14,h15,h16,h17,h18,h19,h20,h21,h22,h23⟩ := h
  have ej : u.net.joinKeys = s.net.joinKeys := by rw [e]
  have ete : u.jobs.tenants = s.jobs.tenants := by rw [e]
  have eb : u.boot = s.boot := by rw [e]
  have et : u.time = s.time := by rw [e]
  have es : u.store = s.store := by rw [e]
  have ec : u.coh = s.coh := by rw [e]
  have ex : u.xlat = s.xlat := by rw [e]
  have ese : u.sess = s.sess := by rw [e]
  have ew : u.twin = s.twin := by rw [e]
  have ep : u.pending = s.pending := by rw [e]
  constructor <;> first | assumption | (rw [← eb]; assumption) | (rw [← ej]; assumption) | (rw [← ete]; assumption) | (show t.time.now = s.time.now; rw [← et]; assumption) | (rw [← es]; assumption) | (rw [← ec]; assumption) | (rw [← ex]; assumption) | (rw [← ese]; assumption) | (rw [← ew]; assumption) | (rw [← ep]; assumption)

theorem reg_bump_ne (s : State) (a b n : Nat) (h : b ≠ a) : (s.bump b n).reg a = s.reg a := by
  unfold State.bump; rw [State.reg_setReg, if_neg h]

theorem reg_bump64_ne (s : State) (a b n : Nat) (h : b ≠ a) : (s.bump64 b n).reg a = s.reg a := by
  unfold State.bump64; rw [State.reg_setReg, if_neg h]

theorem reg_drillCount (s : State) (p a : Nat) (h : Reg.drDrillEffects ≠ a) : (s.drillCount p).reg a = s.reg a := by
  unfold State.drillCount State.when; split
  · exact reg_bump_ne _ _ _ _ h
  · rfl

theorem reg_remove (s : State) (g p a : Nat) (h : Reg.drDrillEffects ≠ a) (h2 : Reg.lgLgRemovals (0x2100 + g) ≠ a) : (s.removeMember g p).reg a = s.reg a := by
  unfold State.removeMember; split
  · rfl
  · show (State.drillCount _ p).reg a = _
    rw [reg_drillCount _ _ _ h, reg_bump_ne _ _ _ _ h2]; rfl

theorem lt_removals (g a : Nat) (h : a < 0x2100 * 4096) : Reg.lgLgRemovals (0x2100 + g) ≠ a := by
  unfold Reg.lgLgRemovals; omega

theorem reg_retrain (s : State) (p a : Nat) (e : Bool) (h : Reg.drDrillEffects ≠ a) (h2 : a < 0x2100 * 4096) : (s.retrain p e).reg a = s.reg a := by
  unfold State.retrain State.when; dsimp only; repeat' split
  · rw [reg_remove _ _ _ _ h (lt_removals _ _ h2)]; rfl
  · rfl
  · rfl

theorem reg_drillEnds (s : State) (st : Status) (a : Nat) (h : Reg.drDrillEffects ≠ a) (h2 : a < 0x2100 * 4096) : (s.drillEnds st).reg a = s.reg a := by
  unfold State.drillEnds; dsimp only; split
  · rfl
  · generalize hu : State.onDrill s _ = u
    have e : u.reg a = s.reg a := by rw [← hu]; rfl
    show State.reg (match s.drill.kind with
      | 1 => _
      | 3 => _
      | _ => _) a = _
    split
    · exact e
    · generalize hv : State.onPort _ _ _ = v
      have e2 : v.reg a = s.reg a := by rw [← hv]; exact e
      split
      · rw [reg_retrain _ _ _ _ h h2]; exact e2
      · exact e2
    · exact e

theorem warm_reg (s : State) (kind : Nat) (forced : Bool) (a : Nat) (ha : warmReg a = true) (hn : a ≠ Reg.mgResetCount)
    (h : Reg.drDrillEffects ≠ a) (h2 : a < 0x2100 * 4096) : (s.warmReset kind forced).reg a = s.reg a := by
  have b := om_undoAll (s.drillEnds .ok)
  have r := reg_drillEnds s .ok a h h2
  unfold State.warmReset
  dsimp only
  generalize (s.drillEnds .ok).undoAll = u at b
  generalize s.drillEnds .ok = d at b r
  have ur : u.reg a = s.reg a := by rw [← r]; unfold OnlyMem at b; rw [b]; rfl
  rw [State.bump, State.reg_setReg, if_neg (Ne.symm hn)]
  rw [oh_again]
  show (match Tbl.get? (List.filter (fun r => warmReg r.1) u.ctl.regs) a with
      | some v => v.toNat
      | none => resetValue a) = _
  rw [← ur]; unfold State.reg
  have : ∀ t : Tbl DWord, Tbl.get? (List.filter (fun r => warmReg r.1) t) a = Tbl.get? t a := by
    intro t; induction t with
    | nil => rfl
    | cons e t ih =>
      obtain ⟨k, v⟩ := e
      by_cases hk : warmReg k = true
      · simp only [List.filter, hk, Tbl.get?, ih]
      · simp only [Bool.not_eq_true] at hk
        simp only [List.filter, hk, Tbl.get?, ih]
        rw [if_neg (by rintro rfl; simp [ha] at hk)]
  rw [this]
  try rfl

theorem reg_emit (s : State) (p a : Nat) (x : BitVec 128) (y : BitVec 16) (f : Frame) (hp : p < 2) (h : Reg.drDrillEffects ≠ a) (h2 : a < 0x2000 * 4096) :
    (s.emit p x y f).reg a = s.reg a := by
  have hd : ∀ s : State, (s.drillDrop p 1).2.reg a = s.reg a := by
    intro s; unfold State.drillDrop; dsimp only; repeat' split
    all_goals first | rfl | (exact reg_bump_ne _ _ _ _ h)
  unfold State.emit State.emitRaw
  split
  · have := hd s
    revert this
    rcases s.drillDrop p 1 with ⟨b, u⟩
    dsimp only; intro hu
    split
    · exact hu
    · have hpr : ∀ w, u.protect p = some w → w.reg a = u.reg a := by
        intro w hw; unfold State.protect at hw; dsimp only at hw
        split at hw
        · split at hw
          · cases hw; rfl
          · cases hw
        · cases hw; rfl
      split
      · exact hu
      · rename_i w hw
        show (State.bump64 w _ _).reg a = _
        rw [reg_bump64_ne, hpr w hw, hu]
        unfold Reg.portTxFrames portPage; omega
  · rfl

theorem reg_beaconTo (s : State) (n a : Nat) (h0 : Reg.ecBeaconsSent ≠ a) (h : Reg.drDrillEffects ≠ a) (h2 : a < 0x2000 * 4096) :
    (s.beaconTo n).reg a = s.reg a := by
  have hs : (s.sendBeacon n).reg a = s.reg a := by
    unfold State.sendBeacon; dsimp only
    rw [reg_emit _ _ _ _ _ _ (by split <;> decide) h h2, reg_bump_ne _ _ _ _ h0]; rfl
  unfold State.beaconTo
  repeat' split
  all_goals first | rfl | exact hs

theorem reg_beacon (s : State) (a : Nat) (h0 : Reg.ecBeaconsSent ≠ a) (h : Reg.drDrillEffects ≠ a) (h2 : a < 0x2000 * 4096) :
    s.beacon.reg a = s.reg a := by
  unfold State.beacon; rw [reg_beaconTo _ _ _ h0 h h2, reg_beaconTo _ _ _ h0 h h2]

theorem reg_record (s : State) (a : Nat) (h0 : Reg.ecBeaconsSent ≠ a) (h3 : Reg.ecEvTail ≠ a) (h4 : Reg.ecEvOverflow ≠ a) (h : Reg.drDrillEffects ≠ a) (h2 : a < 0x2000 * 4096) :
    (eventRecordOp s).reg a = s.reg a := by
  unfold eventRecordOp
  split
  · rfl
  · split
    · rfl
    · dsimp only
      split
      · show (State.bump _ _ _).reg a = _
        rw [reg_bump_ne _ _ _ _ h4]; rfl
      · split
        · rw [reg_beacon _ _ h0 h h2]
          show (State.setReg _ _ _).reg a = _
          rw [State.reg_setReg, if_neg h3]; rfl
        · show (State.setReg _ _ _).reg a = _
          rw [State.reg_setReg, if_neg h3]; rfl

def KeepBase (s t : State) : Prop := t.boot = s.boot ∧ t.store.extents = s.store.extents

theorem emit_base (s : State) (p : Nat) (x : BitVec 128) (y : BitVec 16) (f : Frame) : KeepBase s (s.emit p x y f) := by
  have o := emitRaw_only s p x y { f with incarn := s.boot.incarn }
  unfold State.emit KeepBase; unfold State.OnlySends at o; rw [o]; exact ⟨rfl, rfl⟩

theorem beaconTo_base (s : State) (n : Nat) : KeepBase s (s.beaconTo n) := by
  have hs : KeepBase s (s.sendBeacon n) := by
    unfold State.sendBeacon; dsimp only
    have := emit_base; unfold KeepBase at *
    obtain ⟨a, b⟩ := this ((s.onEv fun e => { e with lastBeacon := e.lastBeacon.put n s.ran, lastAny := s.ran, beaconDue := e.beaconDue.filter (· != n) }).bump Reg.ecBeaconsSent) (if (s.portSt 0).up then 0 else 1) (s.ip (if n = 0 then Reg.ecBeaconIp0 else Reg.ecBeaconIp1)) (Config.sourcePort 0 0) { ty := 0x40, flags := BitVec.twoPow 12 fUnseq, conn := 0xFFFFFF, len := 16, payload := beBytes 4 (s.reg Reg.ecEvTail) ++ beBytes 4 (s.reg Reg.ecEvOverflow) ++ beBytes 8 s.now }
    exact ⟨a, b⟩
  unfold State.beaconTo
  repeat' split
  all_goals first | exact ⟨rfl, rfl⟩ | exact hs

theorem beacon_base (s : State) : KeepBase s s.beacon := by
  have a := beaconTo_base s 0; have b := beaconTo_base (s.beaconTo 0) 1
  exact ⟨b.1.trans a.1, b.2.trans a.2⟩

theorem record_base (s : State) : KeepBase s (eventRecordOp s) := by
  unfold eventRecordOp
  split
  · exact ⟨rfl, rfl⟩
  · split
    · exact ⟨rfl, rfl⟩
    · dsimp only
      split
      · exact ⟨rfl, rfl⟩
      · split
        · obtain ⟨a, b⟩ := beacon_base _
          exact ⟨a, b⟩
        · exact ⟨rfl, rfl⟩

end Sys2Proof.Machine
end

