-- ==== Sys2Proof/Laws/Small.lean ====
section
/-! SUPPORT. Small laws of tables, counters and raised sources that later proofs cite. -/

namespace Sys2Proof.Machine

theorem getD_put' {α : Type} (t : Tbl α) (a b : Nat) (v d : α) :
    Tbl.getD (Tbl.put t a v) b d = if a = b then v else Tbl.getD t b d := by
  unfold Tbl.getD; rw [Tbl.get?_put]; split <;> rfl

theorem pending_counts (e : Events) (i : Nat) (a : RaiseArgs) : (e.pending i a).counts = e.counts := by
  unfold Events.pending; split
  · rfl
  · split <;> rfl

theorem raise_counts (s : State) (i j : Nat) (a : RaiseArgs) :
    (s.raise i a).ev.counts.getD j 0 = if i = j then min (s.ev.counts.getD i 0 + 1) 0xFFFF else s.ev.counts.getD j 0 := by
  unfold State.raise State.onEv
  dsimp only
  rw [pending_counts]
  exact getD_put' _ _ _ _ _

end Sys2Proof.Machine
end

