-- ==== Sys2Proof/Laws/Twin.lean ====
section
/-! SUPPORT. What the twin unit's shared operations do: frames of the twin connection only send, and a takeover's leases. -/

namespace Sys2Proof.Machine

theorem sendTwin_only (s : State) (f : Frame) : s.OnlySends (s.sendTwin f) := sendSeq_only s twinConn f

theorem OnlySends.facts {s t : State} (h : s.OnlySends t) : t.twin = s.twin ∧ t.store = s.store ∧ t.jobs = s.jobs ∧ t.ran = s.ran := by
  have e : t = _ := h
  refine ⟨?_, ?_, ?_, ?_⟩ <;> (rw [e]; try rfl)

@[simp] theorem sendTwin_twin (s : State) (f : Frame) : (s.sendTwin f).twin = s.twin := (OnlySends.facts (sendTwin_only s f)).1
@[simp] theorem sendTwin_store (s : State) (f : Frame) : (s.sendTwin f).store = s.store := (OnlySends.facts (sendTwin_only s f)).2.1
@[simp] theorem sendTwin_jobs (s : State) (f : Frame) : (s.sendTwin f).jobs = s.jobs := (OnlySends.facts (sendTwin_only s f)).2.2.1

theorem lease_onLease (s : State) (e d : Nat) (f : Lease → Lease) :
    (s.onLease e f).twin.leases.get? d = if d = e then (s.twin.leases.get? d).map f else s.twin.leases.get? d := by
  unfold State.onLease State.onTwin
  dsimp only
  rw [Tbl.get?_update]
  by_cases h : d = e
  · subst h; simp
  · simp [h, Ne.symm h]

theorem sendLeaseList_only (s : State) : s.OnlySends s.sendLeaseList := by
  have go : ∀ n l (u : State), u.OnlySends (State.sendLeaseList.go n l u) := by
    intro n
    induction n with
    | zero => intro l u; exact .refl u
    | succ n ih =>
      intro l u
      cases l with
      | nil => exact .refl u
      | cons x l => exact (sendTwin_only u _).trans (ih _ _)
  unfold State.sendLeaseList
  split
  · exact sendTwin_only _ _
  · exact go _ _ _

/-- The leases after a fold of the same change over different extents. -/
theorem leases_fold (f : Lease → Lease) (l : List Nat) (hl : l.Nodup) (s : State) (d : Nat) :
    (l.foldl (fun s e => s.onLease e f) s).twin.leases.get? d =
      if d ∈ l then (s.twin.leases.get? d).map f else s.twin.leases.get? d := by
  induction l generalizing s with
  | nil => simp
  | cons a l ih =>
    rw [List.foldl_cons, ih hl.of_cons, lease_onLease]
    have ha : a ∉ l := (List.nodup_cons.mp hl).1
    by_cases h : d = a
    · subst h; simp [ha]
    · simp [h]

theorem keys_get? {α : Type} (t : Tbl α) (hn : (t.map (·.1)).Nodup) (p : α → Bool) (d : Nat) :
    d ∈ (t.filter fun e => p e.2).map (·.1) ↔ ∃ x, t.get? d = some x ∧ p x = true := by
  induction t with
  | nil => simp [Tbl.get?]
  | cons a t ih =>
    obtain ⟨k, v⟩ := a
    rw [List.map_cons, List.nodup_cons] at hn
    have i := ih hn.2
    have nk : Tbl.get? t k = none := by
      have : ∀ u : Tbl α, k ∉ u.map (·.1) → Tbl.get? u k = none := by
        intro u; induction u with
        | nil => intro _; rfl
        | cons b u ih => intro h; simp only [List.map_cons, List.mem_cons, not_or] at h; unfold Tbl.get?; rw [if_neg (Ne.symm h.1)]; exact ih h.2
      exact this t hn.1
    by_cases hk : k = d
    · subst hk
      have : k ∉ (t.filter fun e => p e.2).map (·.1) := fun h => by
        obtain ⟨x, hx, _⟩ := i.mp h; rw [nk] at hx; cases hx
      unfold Tbl.get?
      by_cases hp : p v = true <;> simp [hp, this]
    · unfold Tbl.get?; rw [if_neg hk, ← i]
      by_cases hp : p v = true <;> simp [hp, Ne.symm hk]

/-- What a lease is after a takeover (R397 step 1). -/
def Lease.soloOf (side : Nat) (x : Lease) : Lease :=
  { x with st := .solo, gen := x.gen + 1, holder := side, before := .none, given := false }

/-- A takeover with no operation of the twin connection under way: each lease that it takes enters SOLO with GEN + 1. -/
theorem takeover_quiet {s : State} {p : Lease → Bool} (h1 : s.twin.shadows = []) (h2 : s.twin.holders = []) (h3 : s.twin.handed = [])
    (hn : (s.twin.leases.map (·.1)).Nodup) (d : Nat) :
    (s.takeover p).twin.leases.get? d = (s.twin.leases.get? d).map fun x => if p x then x.soloOf s.side else x := by
  have E : ∀ x, s.twin.leases.get? d = some x → (d ∈ (s.twin.leases.filter fun e => p e.2).map (·.1) ↔ p x = true) := by
    intro x hx; rw [keys_get? _ hn]; rw [hx]; simp
  have N : ((s.twin.leases.filter fun e => p e.2).map (·.1)).Nodup := hn.sublist (List.Sublist.map _ List.filter_sublist)
  have side : ∀ (l : List Nat) (u : State), l.foldl (fun s e => s.onLease e fun x =>
      { x with st := .solo, gen := x.gen + 1, holder := s.side, before := .none, given := false }) u =
      l.foldl (fun s e => s.onLease e (Lease.soloOf u.side)) u := by
    intro l; induction l with
    | nil => intro u; rfl
    | cons a l ih => intro u; rw [List.foldl_cons, List.foldl_cons, ih]; rfl
  unfold State.takeover
  dsimp only
  generalize hes : (s.twin.leases.filter fun e => p e.2).map (·.1) = es at *
  split
  · next h =>
    have : es = [] := List.isEmpty_iff.mp h
    subst this
    cases hx : s.twin.leases.get? d with
    | none => rfl
    | some x => have := E x hx; simp at this; simp [this]
  · rw [side]
    have F := leases_fold (Lease.soloOf s.side) es N s d
    have K : ∀ (l : List Nat) (u : State), let v := l.foldl (fun w e => w.onLease e (Lease.soloOf s.side)) u
        v.twin.shadows = u.twin.shadows ∧ v.twin.holders = u.twin.holders ∧ v.twin.handed = u.twin.handed := by
      intro l; induction l with
      | nil => intro u; exact ⟨rfl, rfl, rfl⟩
      | cons a l ih => intro u; exact ih (u.onLease a (Lease.soloOf s.side))
    have k := K es s
    revert F k
    generalize es.foldl (fun w e => w.onLease e (Lease.soloOf s.side)) s = v
    rintro F ⟨k1, k2, k3⟩
    rw [h1] at k1; rw [h2] at k2; rw [h3] at k3
    simp only [k1, k2, k3, List.filter_nil, List.foldl_nil]
    show v.twin.leases.get? d = _
    rw [F]
    cases hx : s.twin.leases.get? d with
    | none => simp
    | some x =>
      have := E x hx
      by_cases hp : p x = true <;> simp [this, hp]

end Sys2Proof.Machine
end

