-- ==== Sys2Proof/Tests/Slice0.lean ====
section
/-! SUPPORT. Tests of the model: an ill-formed term for every check of WellFormed, worked examples of the manual, and for the
statements with hypotheses a state and operands that meet them. -/

namespace Sys2Proof.Tests
open Sys2Proof.Machine
set_option Elab.async false

/-! ### Ill-formed commands are refused -/

def badRx : Rx := { port := 40, f := { } }

theorem test_port_out_of_range : (([
    .ctlRd, .ctlWr, .joinFrame, .leave, .helloProbe, .helloAnswer, .hello, .unknownType, .read, .write,
     .compressWrite, .faddI32, .faddI64, .faddF32, .atomicSwap, .atomicCas, .atomicSmin, .atomicSmax, .atomicUmin,
     .atomicUmax, .atomicAnd, .atomicOr, .atomicXor, .getS, .getM, .upgrade, .putM, .putO, .putE, .invAck, .fwdDone,
     .recvDone, .recallAck, .noData, .dataAnswer, .directData, .inval, .bulkFill, .bulkCopy, .bulkCompare,
     .bulkReduce, .tierPolicy, .recode, .matmul, .convert, .sessionOpen, .sessionClose, .kvAppend, .attend, .wake,
     .sleep, .tableOpen, .tableVersion, .tableClose, .gather, .mergeUpdate, .collOpen, .collClose, .insertJob,
     .deleteJob, .searchJob, .mergeColl, .mergeResume, .mergeAbandon, .pairHello, .beat, .renew, .leaseList, .give,
     .take, .handover, .taken, .twinDone, .mirror, .mirrorAck, .retire, .orphanState, .twinCopy, .checkpoint,
     .twinExtCmd, .extDone, .resetNotice, .unassignedJobType, .atomicBadOpcode, .twinUnknownKind] : List (Rx → Instr)).all fun c => !(c badRx).wf) = true := by decide

theorem test_payload_too_long (b : Byte) : Rx.wf { port := 0, f := { payload := List.replicate 65536 b } } = false := by
  unfold Rx.wf; rw [List.length_replicate]; rfl

theorem test_operand_out_of_range : (([.coldResetN 999, .warmResetN 999, .refclkLost 10000, .nearTierTrained [8],
    .bulkTierTrained [{ channel := 16, dimms := [], margin := 0, trains := true }], .deviceFatal 2, .paceWindow [(65536, 0)], .ptpSync 40 0,
    .registerWrite 65536 0 0, .registerWrite 0 4096 0, .registerWrite 0 2 0, .stagedWrite 65536 0 0, .stagedWrite 0 4096 0,
    .stagedWrite 0 2 0, .quiesce 65536 true, .enable 65536 true, .unitReset 65536, .drainDone 65536, .unitResetDone 65536,
    .saInstall 40, .saRetire 40, .linkDown 40, .laneFault 40 0, .linkTrained 40, .memberRejoin 20 0, .memberRejoin 0 40,
    .lldpTransmit 40] : List Instr).all fun i => !i.wf) = true := by decide

theorem test_number_out_of_range : (([.leavingDrained 0, .leavingDrained 16777216, .reclaimComplete 0, .reclaimComplete 16777216,
    .ackTimer 0, .ackTimer 16777216, .probeTimer 0 0, .probeTimer 1 256, .probeLost 0 0, .probeLost 1 256, .reprobe 0 0,
    .reprobe 1 256, .rtoExpiry 0 0, .rtoExpiry 16777216 0, .cwndUpdate 0 0, .cwndUpdate 1 256, .keepalive 0, .keepalive 16777216,
    .silenceTimeout 0, .silenceTimeout 16777216, .fwdWaitExpiry (2 ^ 41), .cohWaitExpiry (2 ^ 41) 0, .peerInv 64 { },
    .peerRecall 64 { }, .peerFwd 64 { }] : List Instr).all fun i => !i.wf) = true := by decide

theorem test_index_out_of_range : (([.zeroFillDone 131072, .revokeComplete 131072, .revokeTimeout 131072, .tierWindowEnd 2,
    .moveCopyPassDone (2 ^ 28 - 1), .moveCopyPassDone (2 ^ 31), .moveSourceFree (2 ^ 31), .unmuteDone (2 ^ 31) true,
    .scrubPass 65536, .correctedWriteback (2 ^ 41), .walkStart 2, .faultBatchClose 1024, .tileDeal [3], .pieceDeal [3],
    .tableCloseDone 1024, .hotPromotionBatch 1024 1, .mergeSwitch 256, .mergeDrain 256, .poolHigh 2, .peerAccept 64 none,
    .peerWriteResponse 64 { }, .buildStart 4096, .pendingInstall 4096, .pendingInstallWait 4096] : List Instr).all
    fun i => !i.wf) = true := by decide

theorem test_selector_out_of_range : (([.leaseGive 131072, .resyncExtentDone 131072, .svnBurn 256, .evDone 1024,
    .evCountClr 1024, .evMask 32 0, .evPend 32 0, .monCtrl 64 0, .monSample 64 { page := 0, cls := 0, value := 0 }, .monWindowClose 64, .histUnitGrant 2,
    .extCmdUnused 1, .extCmdUnused 8, .faultResumeBadAction 0 0, .resetCmdBadKey 0x7E57] : List Instr).all
    fun i => !i.wf) = true := by decide

/-! ### The manual's worked examples -/

/-- What a command that completes leaves. -/
def next? (o : Host.Outcome State Fault Refusal) : Option State :=
  match o with
  | .next s => some s
  | _ => none

/-- The bytes of a text. -/
def text (x : String) : List Byte := x.toUTF8.toList.map fun b => BitVec.ofNat 8 b.toNat

/-- The check value of CRC-32C (RFC 3720). -/
theorem test_crc32c : crc32c (text "123456789") = 0xE3069283 := by decide +kernel

/-- HMAC-SHA-256, case 2 of RFC 4231, first eight bytes. -/
theorem test_hmac : (hmacSha256 (text "Jefe") (text "what do ya want for nothing?")).take 8 =
    [0x5b, 0xdc, 0xc1, 0x46, 0xbf, 0x60, 0x75, 0x4e] := by decide +kernel

/-- 01_architecture.md, "homing one read": slice 7 of core die 0. -/
theorem test_home_slice : sliceOf 0x12345640 = 7 ∧ homeDie 0x12345640 = 0 := by decide

/-- 07_jobs_bulk.md, "the tree for N = 5": 1.0, 2^24, 1.0, -2^24, 3.0 give 4.0. -/
theorem test_tree_of_five : tree f32Add 0 [0x3F800000, 0x4B800000, 0x3F800000, 0xCB800000, 0x40400000] = 0x40800000 := by
  decide +kernel

/-- 08_matrix_formats.md, "one Shade-4 block". -/
theorem test_shade4_block : toShade4 .nearest 0 1 ([0x40A00000, 0xBFA66666, 0x3E4CCCCD, 0x40200000, 0xC1300000, 0x3F3D70A4,
    0x40466666, 0x40FCCCCD] ++ List.replicate 24 0) =
    ([0x80, 0x94, 0x20, 0x1F, 0x63] ++ List.replicate 12 0, 0, 0) := by decide +kernel

/-- The lengths of the palette of 09_compression.md, "a NIBBLE palette". -/
def palette : List Nat := [2, 3, 4, 5, 4, 5, 5, 5, 5, 5, 5, 5, 5, 5, 4, 3]

theorem test_palette_bytes : lensValid palette = true ∧ (lensBytes palette).take 8 =
    [0x32, 0x54, 0x54, 0x55, 0x55, 0x55, 0x55, 0x34] := by decide +kernel

theorem test_palette_codes : (codesOf palette).take 6 = [(2, 0), (3, 2), (4, 8), (5, 22), (4, 9), (5, 23)] ∧
    (codesOf palette).drop 13 = [(5, 31), (4, 10), (3, 3)] := by decide +kernel

/-- The first nine bits of lane 0 of that example: 0, -1, 1, 0. -/
theorem test_lane_bits : (encodeLanes (codesOf palette) [[0, 15, 1, 0]]) =
    [[false, false, false, true, true, false, true, false, false, false]] := by decide +kernel

theorem test_lane_returns : decodeLanes (codesOf palette) 4 [false, false, false, true, true, false, true, false, false, false]
    [0, 10] = some [0, 15, 1, 0] := by decide +kernel

/-- The session of 10_session_attention.md, "one layer of a decode step". -/
def kvSession : Session :=
  { layers := 64, kvHeads := 8, qHeads := 16, dim := 128, fmt := 3, compress := true, maxTokens := 65536, base := 0x7E0000000000 }

/-- The page pair of layer 17, KV head 5, page 255, and its V page. -/
theorem test_pair_address : kvSession.pages = 512 ∧ kvSession.pair = 36864 ∧ kvSession.pairAt 17 5 255 = 0x7E009F2F7000 ∧
    kvSession.pairAt 17 5 255 + kvSession.kBytes = 0x7E009F2FB800 := by decide +kernel

/-- 06_translation.md, "a walk and a resumed fault": the three indices of the source address. -/
theorem test_walk_indices : walkIndex 9 1 0x7F1234567000 = 254 ∧ walkIndex 9 2 0x7F1234567000 = 72 ∧
    walkIndex 9 3 0x7F1234567000 = 418 ∧ walkIndex 9 3 0x7F1234800000 = 420 := by decide

/-- 15_events_monitors_drills.md, "clearing three pending bits at once": word 7 of the sources 240, 242 and 245. -/
theorem test_pending_word : wordOf (setBit (setBit (setBit 0 240) 242) 245) 7 = 0x00250000#32 := by decide +kernel

/-- 01_architecture.md, "a carve for an embedding-heavy tray": 8,388,608 merge entries. -/
theorem test_merge_entries : State.mergeFree { State.reset with boot := { State.reset.boot with carve := [4, 2, 12, 8, 1, 5] } } = 8388608 := by
  decide +kernel

/-- 16_package_power.md, "a failing pump", step 2: thermal limit and request 740 mV, LIMIT 2. -/
theorem test_failing_pump : (next? (exec (.vcoreTick ⟨[761], true⟩)
    { boot := { step := .bulk, service := .full }, time := { ran := 100000600000, now := 100000600000 } })).map
    (fun s => (s.pwr.thermal, s.pwr.req, s.pwr.limit)) = some (740, 740, 2) := by decide +kernel

/-- A TVD-8800-B right after reset. -/
def deviceB : State := { State.reset with boot := { State.reset.boot with order := .b } }

/-- 02_control_space.md, "a walk and a quiesce on a TVD-8800-B": the walk to the array group. -/
theorem test_walk_order_b : deviceB.readReg 0 0x44 = 0x101 ∧ deviceB.readReg 0 0xC = 11 ∧
    deviceB.readReg 0 0xC00 = 1 ∧ deviceB.readReg 1 0 = 0x02010000 ∧ deviceB.readReg 1 0xC80 = 0x1040 ∧
    deviceB.readReg 0x1040 0 = 0x02020000 ∧ deviceB.readReg 0x1041 0 = 0x02030000 ∧
    deviceB.readReg 0x1041 8 = 7 ∧ deviceB.readReg 0x1052 0 = 0x50000002 ∧ deviceB.readReg 0x1052 8 = 0 ∧
    deviceB.readReg 0x1052 0x10 = 0 := by decide +kernel

theorem test_absent_children : deviceB.readReg 0x1069 8 = 0 ∧ deviceB.readReg 0x1070 8 = 0 ∧ deviceB.readReg 0x1068 8 ≠ 0 := by
  decide +kernel

/-- The same example: quiescing array group 0 reaches its present members and skips the absent arrays. -/
theorem test_quiesce_group : (next? (exec (.quiesce 0x1041 true) deviceB)).map (fun s =>
    ([0x1041, 0x1050, 0x1051, 0x1052].map fun p => s.reg (Reg.unitCtrl p), s.reg Reg.rootAbsentWrites)) =
    some ([3, 3, 3, 1], 0) := by decide +kernel

/-! ### One step of a command -/

theorem test_short_pulse_ignored : (next? (exec (.coldResetN 999) State.reset)).map (·.boot.lastKind) = some 1 := by decide +kernel

theorem test_masked_write : (next? (exec (.registerWrite 0 0x44 5) State.reset)).map (·.readReg 0 0x44) = some 0x100 := by
  decide +kernel

theorem test_event_mask : (next? (exec (.evMask 0 8) State.reset)).map (fun s => s.ev.mask.getLsbD 3) = some true := by
  decide +kernel

theorem test_time_set : (next? (exec (.timeSetHi 2) State.reset)).map (fun s => s.now) = some (2 ^ 33) := by decide +kernel

theorem test_front_command_first : step { State.reset with pending := [.evMask 0 8, .evMask 0 0] } =
    exec (.evMask 0 8) { State.reset with pending := [.evMask 0 0] } := rfl

/-! ### Witnesses: states and operands that meet the hypotheses of each statement -/

/-- An agent's open connection with one open path through port 0. -/
def wConn : Conn := { tenant := 0, agent := 5, st := .openC, paths := [(0, { live := true, opened := true, port := 0 })] }

/-- A device in Full service, with that connection and extent 0 granted to its tenant. -/
def base : State :=
  { boot := { step := .bulk, service := .full }
    net := { ports := [(0, { up := true, serviceDown := false })], conns := [(1, wConn)] }
    store := { near := [(0, { trained := true })], nearList := [0, 1, 2, 3, 4, 5, 6, 7]
               extents := [(0, { st := .granted, read := true, write := true, atomic := true, cache := true })] } }

/-- A device without power. -/
def deviceOff : State := { base with boot := { base.boot with powered := false } }

/-- base with registers. -/
def withRegs (l : List (Nat × Nat)) : State := l.foldl (fun s e => s.setReg e.1 e.2) base

/-- base as a TVD-8800-B. -/
def deviceBase : State := { base with boot := { base.boot with order := .b } }

/-- The next frame of that connection, a request of one line under a new OP_ID. -/
def wRx : Rx := { port := 0, f := { ty := 1, agent := 5, conn := 1, seq := 1, opId := 1, len := 64 }, dst := base.portIp 0 }

theorem passes_of {s : State} {r : Rx} (h : s.clocked = true ∧ s.hasPort r.port = true ∧ (s.portSt r.port).up = true ∧
    s.ownState (portPage r.port) ≠ .off ∧ s.twinMuted r.port = false ∧ (s.drillDrop r.port 0).1 = false ∧
    (r.fecOk = true ∧ r.fcsOk = true) ∧ (((s.drillDrop r.port 0).2.received r).macsec r).1 = true ∧
    (((s.drillDrop r.port 0).2.received r).macsec r).2.aimed r = true ∧
    (((s.drillDrop r.port 0).2.received r).macsec r).2.formed r = true ∧ r.fill ≠ .full) : s.Passes r :=
  let ⟨a, b, c, d, e, f, g, i, j, k, l⟩ := h
  ⟨a, b, c, d, e, f, g, i, j, k, l⟩

theorem conn_of {s : State} {c : Nat} {k : Conn} {r : Rx} (h : r.f.conn.toNat = c ∧ s.conn? c = some k ∧ k.active = true ∧
    k.tenant = r.f.tenant.toNat ∧ k.agent = r.f.agent.toNat ∧ r.f.incarn = s.boot.incarn ∧ r.f.ty ≠ 0x50 ∧
    ¬(s.role r.port = 2 ∧ (r.f.ty = 0x60 ∨ r.f.ty = 0x53)) ∧ ¬(r.f.ty = 0x1A ∧ r.f.conn = 0xFFFFFF ∧ has r.f fUnseq = true)) :
    s.OfConn c k r :=
  let ⟨a, b, c, d, e, f, g, i, j⟩ := h
  ⟨a, b, c, d, e, f, g, i, j⟩

/-- The hypothesis of every statement that has no other than a running clock; later witnesses rest on it too. -/
theorem wit_clocked : State.reset.clocked = true ∧ base.clocked = true ∧ deviceOff.clocked = false := by decide

theorem wit_StoppedClockHoldsEverything : deviceOff.clocked = false ∧ needsNoClock (.evDone 0) = false := by decide

theorem wit_SettleSamplesLevels : let s : State := { base with pwr := { base.pwr with thermOver := true } }
    s.boot.step ≠ .rom ∧ isLevel 6 = true ∧ s.ev.level.getLsbD 6 = false ∧ s.levelCond 6 = true ∧ s.sourceValid 6 = true ∧
    s.ev.mask.getLsbD 6 = false := by decide +kernel

/-- A device whose levels have been sampled, and the step it takes. -/
theorem wit_StepsKeepLevelsSampled : (∀ src, src < 596 → isLevel src = true → base.ev.level.getLsbD src = (base.levelCond src && base.sourceValid src)) := by
  decide +kernel

theorem wit_QuietDeviceRests : base.Quiet := by constructor <;> decide +kernel

theorem wit_ColdResets : base.boot.powered = true ∧ 1000 ≤ 1000 ∧ deviceOff.boot.powered = false := by decide

theorem wit_RequestedWarmResets : base.clocked = true ∧ base.present 0 = true ∧ base.reg (Reg.unitCtrl 0) % 4 = 1 := by decide +kernel

theorem wit_ForcedWarmResets : let s : State := { base with boot := { base.boot with lastRestart := some 0 } }
    s.clocked = true ∧ s.adithRuns = true ∧ s.since 0 10000000000 = false ∧ base.boot.lastRestart = none := by decide +kernel

theorem wit_BootRomChoosesAnImage : State.reset.boot.step = .rom ∧ base.boot.step ≠ .rom ∧ State.reset.boot.check 0 ≠ 0 ∧
    State.reset.boot.check 1 ≠ 0 := by decide +kernel

theorem wit_NearTierTraining : let s : State := { base with boot := { base.boot with step := .command } }
    s.clocked = true ∧ s.boot.step = .command ∧ s.present (nearPage 3) = true ∧ s.present (nearPage 7) = true ∧ base.boot.step ≠ .command := by
  decide +kernel

theorem wit_CarveChange : let s : State := { base with boot := { base.boot with carveWait := true } }
    s.clocked = true ∧ s.boot.service = .full ∧ s.boot.carveWait = true ∧ s.poolUsed 0 = 0 ∧ s.poolUsed 1 = 0 ∧
    base.boot.carveWait = false := by decide +kernel

theorem wit_TimeRows : let s := withRegs [(Reg.rootTimeCtrl, 1)]
    s.clocked = true ∧ s.disciplined = true ∧ s.ptpPort = 0 ∧ (s.portSt 0).up = true ∧ s.time.holdover = false ∧
    s.since (s.time.lastSync.getD 0) 3000000000 = false ∧ base.disciplined = false := by decide +kernel

theorem wit_PowerRows : let s : State := { base with time := { ran := 6400000000, now := 6400000000 } }
    s.clocked = true ∧ s.since s.pwr.lastTick 1000000 = true ∧ s.since s.pwr.lastPoll 1000000 = true ∧
    base.since base.pwr.lastTick 1000000 = false ∧ base.since base.pwr.lastPoll 1000000 = false := by decide +kernel

theorem wit_UnitControl : let leaf (p : Nat) : Prop := isGroup p = false ∧ (unitOf p).any (fun u => u.ty = .lockGroup) = false ∧ fixedChildren p = []
    base.present (corePage 0 0x30) = true ∧ leaf (corePage 0 0x30) ∧ base.failed (corePage 0 0x30) = false ∧
    base.ctrlRefused (corePage 0 0x30) 3 = false ∧ base.stopping (corePage 0 0x30) = false ∧
    ({ base with ctl := { base.ctl with failed := [corePage 0 0x30], resetting := [corePage 0 0x30] } } : State).failed (corePage 0 0x30) = true ∧
    (withRegs [(Reg.unitCtrl (corePage 0 0x30), 3)]).stopping (corePage 0 0x30) = true ∧
    base.present 9 = true ∧ base.present 0 = true := by decide +kernel

theorem wit_KeysAndFuses : base.hasPort 39 = true ∧ base.boot.fuseSvn = 0 ∧ (base.boot.running.map Image.svn).getD 0 = 0 ∧
    1 % 128 ≤ (({ base.boot with running := some { svn := 1, digest := [] } } : Boot).running.map Image.svn).getD 0 := by decide +kernel

theorem wit_FirmwareCommands : State.reset.boot.restarting = false ∧ State.reset.boot.running.isSome = false ∧
    State.reset.boot.verified ≠ some (State.reset.reg Reg.mgFwSlotSel % 2) ∧ State.reset.reg Reg.mgFwOffset % 2 ^ 24 % 1024 = 0 ∧
    State.reset.boot.check 0 ≠ 0 ∧ ({ State.reset.boot with running := some { svn := 0, digest := [] } } : Boot).running.isSome = true := by
  decide +kernel

/-- GET_VERSION and GET_CAPABILITIES as SPDM_BUF holds them. -/
theorem wit_SpdmResponder : let s := withRegs [(Reg.mgSpdmBuf, 0x00008410), (Reg.mgSpdmLen, 4)]
    let u := withRegs [(Reg.mgSpdmBuf, 0x0000E112), (Reg.mgSpdmLen, 20)]
    s.boot.restarting = false ∧ spdmMin 0x84 ≤ (s.spdmRequest.set 1 0x84).length ∧ s.boot.spdm.phase ≠ 1 ∧
    ({ u with boot := { u.boot with spdm := { u.boot.spdm with phase := 1 } } } : State).boot.spdm.phase = 1 ∧
    spdmMin 0xE1 ≤ (u.spdmRequest.set 1 0xE1).length ∧ leField (u.spdmRequest.set 1 0xE1) 0 1 = 0x12 := by decide +kernel

/-- One source waits; the ring takes its record, or is disabled or full. -/
theorem wit_RecordsLowestSource : let s : State := { withRegs [(Reg.ecEvRingCtrl, 1)] with ev := { base.ev with pend := setBit 0 5 } }
    (s.boot.step = .near ∨ s.boot.step = .bulk) ∧ s.stopping 6 = false ∧ s.nextSource = some 5 ∧ (s.reg Reg.ecEvRingCtrl).testBit 0 = true ∧
    (s.reg Reg.ecEvTail + 1) % s.ringPlaces ≠ s.reg Reg.ecEvHead ∧ base.nextSource = none ∧
    (withRegs [(Reg.ecEvTail, 127)]).ringPlaces = 128 ∧
    ((withRegs [(Reg.ecEvTail, 127)]).reg Reg.ecEvTail + 1) % 128 = (withRegs [(Reg.ecEvTail, 127)]).reg Reg.ecEvHead := by decide +kernel

theorem wit_DoneEndsRecord : let s : State := { base with ev := { base.ev with out := setBit 0 6 }, pwr := { base.pwr with thermOver := true } }
    s.clocked = true ∧ s.ev.out.getLsbD 6 = true ∧ isLevel 6 = true ∧ s.levelCond 6 = true ∧ s.sourceValid 6 = true ∧
    s.ev.mask.getLsbD 6 = false ∧ isLevel 1023 = false := by decide +kernel

theorem wit_EventWrites : let s := withRegs [(Reg.ecEvTail, 127)]
    s.ringPlaces = 128 ∧ s.ringUsed = 127 ∧ 127 < s.ringPlaces ∧ (127 + s.ringPlaces - s.reg Reg.ecEvHead) % s.ringPlaces ≤ s.ringUsed ∧
    s.nearPlaced * 2 ^ 30 ≥ 4096 ∧ base.ev.beaconDue = [] ∧ base.ringUsed = 0 := by decide +kernel

/-- Slot 0 watches near channel 0 with a histogram; a sample at each end of the bins. -/
def slotRuns : State :=
  let s := withRegs [(Reg.moMonCtrl (monPage 0), 0x603), (Reg.moMonPage (monPage 0), nearPage 0)]
  { s with mon := [(0, { run := true })], pal := { s.pal with histHeld := [(0, [.monitor 0])] } }

theorem wit_SamplesFallInBins : let s := slotRuns
    s.clocked = true ∧ (s.slot 0).run = true ∧ s.stopping (monPage 0) = false ∧ s.sampleFits 0 { page := nearPage 0, cls := 0, value := 0 } = true ∧
    s.sampleFits 0 { page := nearPage 0, cls := 0, value := 2 ^ 64 - 1 } = true ∧
    (s.reg (Reg.moMonCtrl (monPage 0))).testBit 1 = true ∧ s.monHolds 0 = true ∧ (6 : Nat) ≤ 33 := by decide +kernel

theorem wit_MonitorSlots : (0x1 &&& 0x00FF3F0F : Nat).testBit 0 = true ∧ (base.reg (Reg.moMonCtrl (monPage 63))).testBit 0 = false ∧
    (withRegs [(Reg.moMonPage (monPage 63), nearPage 0)]).probeOk 0 (nearPage 0) = true ∧ base.probeOk 15 (nearPage 0) = false ∧
    (slotRuns.reg (Reg.moMonCtrl (monPage 0))).testBit 0 = true ∧ (0x602 &&& 0x00FF3F0F : Nat) / 65536 = slotRuns.reg (Reg.moMonCtrl (monPage 0)) / 65536 ∧
    slotRuns.sampleFits 0 { page := nearPage 1, cls := 0, value := 0 } = false ∧
    (let s := slotRuns.setReg (Reg.moMonWindow (monPage 0)) 1
     (s.slot 0).run = true ∧ s.reg (Reg.moMonWindow (monPage 0)) ≠ 0 ∧ (s.slot 0).nextClose ≤ s.now) ∧
    (({ base with pal := { base.pal with histQueue := [(1, [.monitor 1])] } } : State).pal.histQueue.getD 1 []).head? = some (.monitor 1) := by
  decide +kernel

/-- An armed drill unit with a link-drop drill of port 1 staged, and port 0 up. -/
def armed (kind target : Nat) : State :=
  { withRegs [(Reg.drDrillKind, kind), (Reg.drDrillTarget, target), (Reg.drDrillDuration, 1), (Reg.drDrillParam, 1)] with
    drill := { st := .armed, key := 7 } }

theorem wit_DrillUnit : let s := armed 4 0x2001
    s.clocked = true ∧ s.drill.key ≠ 0 ∧ s.since s.drill.armedAt 100000000 = false ∧ (7#16).toNat = s.drill.key ∧ s.boot.service = .full ∧
    s.drill.st ≠ .active ∧ s.serves 0xA = true ∧ s.drill.lastFire = none ∧ s.drillPage = 0x2001 ∧ (s.portSt (0x2001 - s.drillPage)).up = true ∧
    s.present s.drillPage = true ∧ (s.unitCap s.drillPage).testBit 3 = true ∧ s.drillFits = true ∧
    (armed 4 (nearPage 0)).drillFits = false ∧ base.drill.key = 0 ∧
    ({ base with drill := { base.drill with st := .active, kind := 5 } } : State).drill.st = .active := by decide +kernel

theorem wit_RegisterWrites : findReg 0 0xFF8 = none ∧ deviceBase.present 0x1069 = false ∧ base.present (portPage 39) = true ∧
    (stagedWords (portPage 39)).find? (·.1 = 0xA0) = some (0xA0, 51) ∧
    (findReg (portPage 39) 0xA0).map (fun r => (r.1.staged, r.2)) = some (true, 0xA0) ∧
    (findReg 0 0x44).map (fun r => (r.1.acc, r.1.staged, r.2)) = some (.ro, false, 0x44) := by decide +kernel

/-- A committed device: each port has its own address, and the partner's number is not its own. -/
def committed : State := withRegs ([(Reg.rootCfgSeq, 1), (Reg.twPartnerDev, 1)] ++ (List.range 40).flatMap fun p =>
  [(Reg.portPortIp (portPage p), 0xFD000000), (Reg.portPortIp (portPage p) + 12, p + 1)])

theorem wit_CommitOutcomes : committed.boot.restarting = false ∧ committed.boot.step = .bulk ∧ committed.reg Reg.rootCfgSeq < (2#32).toNat ∧
    ¬ committed.reg Reg.rootCfgSeq < (1#32).toNat ∧ committed.reg Reg.rootCfgCommitLo = committed.cfgCrc ∧
    committed.offences committed.shadowReg true = [] ∧ base.offences base.shadowReg true ≠ [] ∧
    (base.setReg Reg.rootCfgCommitLo 1).reg Reg.rootCfgCommitLo ≠ base.cfgCrc := by decide +kernel

theorem wit_LinkRows : let down : State := { base with net := { base.net with ports := [(0, { training := true, serviceDown := false })] } }
    base.hasPort 0 = true ∧ (base.portSt 0).up = true ∧ base.portDrilled 0 = false ∧ (base.portSt 0).lanes &&& ~~~0xF#4 = 0 ∧
    (({ base with net := { base.net with ports := [(0, { up := true, lanes := 0xF })] } } : State).portSt 0).lanes &&& ~~~0x7#4 ≠ 0 ∧
    (down.portSt 0).up = false ∧ (down.portSt 0).training = true ∧ (down.portSt 0).serviceDown = false ∧ (down.trainRate 0).isSome = true ∧
    down.enabled (portPage 0) = true ∧ (base.portSt 0).training = false ∧
    (let s : State := { base with net := { base.net with groups := [(3, { removed := [0] })] }, time := { ran := 64000000, now := 64000000 } }
     (s.groupSt 3).removed.contains 0 = true ∧ (s.groupSt 3).upSince.getD 0 0 + 10000000 ≤ s.ran) ∧
    bit ((withRegs [(Reg.portLldpCtrl (portPage 0), 1)]).reg (Reg.portLldpCtrl (portPage 0))) 0 = true ∧ (base.portSt 0).nextLldp ≤ base.ran := by
  decide +kernel

theorem wit_AckTimer : let k : Conn := { wConn with unackedSince := some 0 }
    let s : State := { base with net := { base.net with conns := [(1, k)] }, time := { ran := 12800, now := 12800 } }
    s.conn? 1 = some k ∧ k.unackedSince = some 0 ∧ 0 + 2000 ≤ s.ran ∧ base.ran < 0 + 2000 ∧ wConn.unackedSince = none ∧
    (Tbl.get? k.paths (s.anyPath 1)).isSome = true ∧ s.outPort (k.paths.getD 0 { }) = some 0 := by decide +kernel

theorem wit_CanSend : base.CanSend 0 := by constructor <;> decide +kernel

theorem wit_TransportTimers : let q : PathSt := { live := true, opened := true, sampled := true, port := 0 }
    let e : TxEntry := { f := { }, path := 0, time := 0, rto := 100000, once := true }
    let k : Conn := { wConn with paths := [(0, q)], unacked := [(1, e)] }
    let s : State := { base with net := { base.net with conns := [(1, k)] }, time := { ran := 64000000, now := 64000000 } }
    s.conn? 1 = some k ∧ Tbl.get? k.paths 0 = some q ∧ k.active = true ∧ q.probeAt = none ∧ q.lastAcked + 25000 ≤ s.ran ∧
    Tbl.get? k.unacked (1#32).toNat = some e ∧ e.time + e.rto ≤ s.ran ∧ q.roundAt + q.srtt ≤ s.ran ∧ k.lastKeep + 1000000 ≤ s.ran ∧
    q.eceSeen = false ∧ q.ackedEce = 0 ∧ 1 ≠ twinConn := by decide +kernel

/-- A path with a lost probe outstanding, and a path dropped long ago. -/
theorem wit_TransportTimers_probes : let q : PathSt := { live := true, probeAt := some 0, lost := 2 }
    let d : PathSt := { live := false, droppedAt := some 0 }
    0 + 25000 ≤ (64000000 : Nat) ∧ q.live = true ∧ q.probeAt = some 0 ∧ 2 ≤ q.lost ∧ d.live = false ∧ d.droppedAt = some 0 := by decide

theorem wit_ConnectionLife : let reclaiming : Conn := { wConn with st := .reclaiming, left := true, leave := some (0, 9) }
    let s : State := { base with time := { ran := 10000000000, now := 10000000000 } }
    s.conn? 1 = some wConn ∧ (∀ e ∈ s.coh.dir, e.2.txn = none) ∧ wConn.lastHeard + 10000000 ≤ s.ran ∧ wConn.active = true ∧
    s.agentConns (bits (0x280#32).toNat 31 20) (bits (0x280#32).toNat 19 7) = [(1, wConn)] ∧
    s.agentConns (bits (0x300#32).toNat 31 20) (bits (0x300#32).toNat 19 7) = [] ∧ s.connAdmitted 1 = 0 ∧
    ({ wConn with st := .leaving } : Conn).st = .leaving ∧ reclaiming.st = .reclaiming ∧ reclaiming.left = true := by decide +kernel

/-- wRx as a frame of TYPE ty. -/
def wAs (ty : Nat) : Rx := asType ty false wRx

/-- A JOIN of tenant 1 on an agent port, under a key of zeros. -/
def joins : State := { base with net := { base.net with ports := [(2, { up := true, serviceDown := false })], joinKeys := [(1, 0)] } }
def wJoin : Rx :=
  let body := beBytes 8 1 ++ beBytes 8 7 ++ [1] ++ List.replicate 7 0
  let t := token 0 (beBytes 2 1 ++ beBytes 2 9 ++ beBytes 8 1)
  { port := 2, dst := joins.portIp 2, f := { ty := 0x50, agent := 9, tenant := 1, len := 40, payload := beBytes 16 t.toNat ++ body } }

theorem wit_JoinHandling : joins.Passes (asType 0x50 false wJoin) := passes_of (by decide +kernel)

theorem wit_JoinHandling_keyed : let f := (asType 0x50 false wJoin).f
    let u := joins.counted (asType 0x50 false wJoin)
    f.len = 40 ∧ f.payload.length = 40 ∧ beField f.payload 32 1 = 1 ∧ f.path.toNat < 1 ∧ beField f.payload 33 7 = 0 ∧ u.boot.service = .full ∧
    Tbl.get? u.net.joinKeys 1 = some 0 ∧ token 0 (beBytes 2 1 ++ beBytes 2 9 ++ beBytes 8 (beField f.payload 16 8)) = BitVec.ofNat 128 (beField f.payload 0 16) ∧
    u.now < beField f.payload 16 8 ∧ u.role 2 = 1 ∧ (∀ e ∈ u.net.conns, e.2.agent = 9 → e.2.tenant = 1) ∧
    u.net.conns.count (fun c _ => c != twinConn) < 8192 ∧ u.agentConns 1 9 = [] := by decide +kernel

/-- Every row of the plain requests, of the control space, of INVAL and of jobs in its turn on the connection of base. -/
theorem wit_InTurn (r : Rx) (h : r ∈ [wRx, asAck 1 true wRx, asAck 2 true wRx, asAck 4 true wRx, asAck 5 true wRx, asAck 3 false wRx,
    asFlag fUnseq false (asType 0x1A true wRx), wAs 0x52, wAs 0xFF]) : base.InTurn 1 wConn r := by
  revert r
  simp only [List.forall_mem_cons]
  refine ⟨?_, ?_, ?_, ?_, ?_, ?_, ?_, ?_, ?_, fun _ h => by cases h⟩ <;>
  exact ⟨passes_of (by decide +kernel), conn_of (by decide +kernel),
    ⟨by decide +kernel, by decide +kernel, ⟨_, rfl, by decide +kernel, by decide +kernel⟩, ⟨_, rfl, by decide +kernel⟩⟩⟩

theorem wit_Request (r : Rx) (h : r ∈ [wRx, asFlag fCompress false (wAs 2), asFlag fCompress true (wAs 2), asAtomic 1 wRx, asAtomic 0 wRx, wAs 0x10,
    wAs 0x13, wAs 0x20, wAs 0x30, wAs 0x31, asJob 4 1 wRx, asJob 5 0x100 wRx, asMergeAct 1 wRx]) :
    base.Request 1 wConn r ∧ ∃ k', (base.asked 1 r).conn? 1 = some k' := by
  revert r
  simp only [List.forall_mem_cons]
  refine ⟨?_, ?_, ?_, ?_, ?_, ?_, ?_, ?_, ?_, ?_, ?_, ?_, ?_, fun _ h => by cases h⟩ <;>
  exact ⟨⟨⟨passes_of (by decide +kernel), conn_of (by decide +kernel),
    ⟨by decide +kernel, by decide +kernel, ⟨_, rfl, by decide +kernel, by decide +kernel⟩, ⟨_, rfl, by decide +kernel⟩⟩⟩,
    ⟨⟨_, rfl, by decide +kernel, by decide +kernel⟩, by decide +kernel, by decide +kernel, by decide +kernel⟩⟩, ⟨_, rfl⟩⟩

/-- The way of a READ that is admitted, and the first and the last clause before it. -/
theorem wit_PlainRequests : let u := base.asked 1 wRx
    let f := wRx.f
    u.boot.service = .full ∧ isCoh f.ty.toNat = false ∧ wellFormed f = true ∧ devOf f.addr.toNat = u.device ∧
    u.accessHeld (offOf f.addr.toNat) = false ∧ u.grantCheck 0 (offOf f.addr.toNat) (spanOf f) (needsOf f) = none ∧
    u.grantCheck 0 (2 ^ 30) (spanOf f) (needsOf f) = some .notPresent ∧
    (u.extent (extentOf (offOf f.addr.toNat))).mirrored = false ∧ (u.poolRefuses 0 0).1 = false ∧
    ((u.setReg Reg.rpPoolTenantMax 0).poolRefuses 0 0).1 = true ∧ wellFormed (asAtomic 0 wRx).f = false := by decide +kernel

/-- A COMPRESS write of one row of 512 INT8 values to slot 1. -/
def wCompress : Rx :=
  let r := asFlag fCompress true (wAs 2)
  { r with f := { r.f with len := 520, payload := [1, 0, 5, 0, 0, 0, 0, 0] ++ List.replicate 512 0 } }

theorem wit_CompressWrites : let u := base.asked 1 wCompress
    let f := wCompress.f
    u.boot.service = .full ∧ (fmtOf (leField f.payload 2 1)).bind smodeOf = some 1 ∧ (fmtOf 0).bind smodeOf = none ∧
    f.len.toNat = 8 + Fmt.int8.rowBytes 512 ∧ f.payload.length = f.len.toNat ∧ leField f.payload 0 2 % 4096 = 1 ∧ Tbl.get? u.pal.slots 1 = none ∧
    devOf f.addr.toNat = u.device ∧ u.accessHeld 0 = false ∧ u.grantCheck 0 0 (frameSize 1 false) { write := true } = none ∧
    u.serves (codecPage 0) = true ∧ (u.extent 0).mirrored = false ∧ (u.poolRefuses 0 0).1 = false := by decide +kernel

theorem wit_ControlMessages : let u := base.asked 1 (wAs 0x30)
    (∃ x, (base.turn 1 (wAs 0x30)).conn? 1 = some x ∧ x.st = .openC ∧ x.opPlace (wAs 0x30).f.opId = .fresh) ∧
    u.connAdmitted 1 < u.reg Reg.pgOpsMax ∧ has (wAs 0x30).f fResp = false ∧ u.role 0 = 0 ∧ wConn.tenant = 0 ∧ u.role 2 = 1 ∧
    (unitOf 0).isSome = true ∧ unitOf 0xFFFF = none ∧ u.boot.step ≠ .recovery ∧ deviceBase.present 0x1069 = false :=
  ⟨⟨_, rfl, by decide +kernel, by decide +kernel⟩, by decide +kernel⟩

theorem wit_HelloAndLeave : base.Passes (asFlag fProbe true (asType 0x53 false wRx)) ∧
    (base.counted (asFlag fProbe true (asType 0x53 false wRx))).OfConn 1 wConn (asFlag fProbe true (asType 0x53 false wRx)) ∧
    base.Passes (asFlag fProbe true (asType 0x53 true wRx)) ∧ base.Passes (asFlag fProbe false (asType 0x53 false wRx)) ∧
    ((asFlag fProbe true (asType 0x53 false wRx)).f.path.toNat < wConn.granted ∧ base.stopping (portPage 0) = false) ∧
    (wConn.paths.getD 0 { }).opened = true :=
  ⟨passes_of (by decide +kernel), conn_of (by decide +kernel), passes_of (by decide +kernel), passes_of (by decide +kernel), by decide +kernel⟩

theorem wit_Invalidations : let w : InvalWait := { conn := 1, f := { }, since := 0, ops := [], peers := [] }
    let s : State := { base with xlat := { base.xlat with invals := [(1, w)], pendCtrl := [(0, 0x101)], pendRoot := [(0, 0)] } }
    s.clocked = true ∧ Tbl.get? s.xlat.invals 1 = some w ∧ s.invalHeld w = false ∧ bit 0x101 0 = true ∧ bits 0x101 12 8 = 1 ∧ devOf 0 = s.device := by
  decide +kernel

/-- A walk of tenant 0 that waits for a walker. -/
def wWalk : Walk := { half := 0, tenant := 0, va := 0, engine := 0, waiters := [] }

theorem wit_Walks : let s : State := { base with xlat := { base.xlat with walks := [(1, wWalk)], ctx := [(0, { en := true, rootBits := 9 })] } }
    s.clocked = true ∧ s.walk? 1 = some wWalk ∧
    (s.xlat.walks.find? fun e => !e.2.started && e.2.half = 0 && s.walkerFree e.2) = some (1, wWalk) ∧
    (s.xlat.walks.find? fun e => !e.2.started && e.2.half = 1 && s.walkerFree e.2) = none ∧
    (s.context 0).en = true ∧ wWalk.va < 2 ^ (39 + 9) ∧ devOf (s.context 0).root = s.device ∧ (base.context 0).en = false := by decide +kernel

/-- Its table read, finished. -/
theorem wit_Walks_reads : let o : Op := { src := .walk 1, conn := 0, f := { }, tenant := 0, extent := 0, half := 0, at_ := 0, finished := true, got := [(0, [1])] }
    let w : Walk := { wWalk with started := true, reading := some 4 }
    let s : State := { base with xlat := { base.xlat with walks := [(1, w)] }, jobs := { base.jobs with ops := [(4, o)] } }
    s.walk? 1 = some w ∧ w.reading = some 4 ∧ s.op? 4 = some o ∧ o.finished = true ∧ o.status = .ok := by decide +kernel

theorem wit_FaultBatches : let b : Batch := { st := .closed, recs := [] }
    let s : State := { base with xlat := { base.xlat with batches := [(1023, b), (0, { b with st := .collecting })] }, time := { ran := 64000000, now := 64000000 } }
    Tbl.get? s.xlat.batches 1023 = some b ∧ b.st = .closed ∧ b.gen % 64 = (1023#16).toNat / 1024 % 64 ∧ (1023#16).toNat % 1024 = 1023 ∧
    0 + bits (s.reg Reg.xlFaultCtrl) 7 0 * 1000 ≤ s.ran ∧ Tbl.get? s.xlat.batches 5 = none := by decide +kernel

/-- Line 0 with an open transaction and its one message, number 1, to the agent of base's connection. -/
def waitsFor (kind : TxnKind) (msg : MsgKind) : State :=
  let t : Txn := { kind := kind, req := { op := 1, kind := .getM, line := 0, at_ := 0 }, msgs := [{ opId := 1, target := 5, kind := msg }], was := .m,
                   fwdDoneAt := some 0 }
  let o : Op := { src := .agent, conn := 1, f := { opId := 1 }, tenant := 0, extent := 0, half := 0, at_ := 0 }
  { base with coh := { base.coh with dir := [(0, { st := .m, owner := 5, txn := some t })] }, jobs := { base.jobs with ops := [(1, o)] },
              time := { ran := 64000000000, now := 64000000000 } }

theorem wit_HomeAnswers : let u := (waitsFor .recalling .recall).turn 1 (asAck 4 true wRx)
    (waitsFor .recalling .recall).Passes (asAck 4 true wRx) ∧
    ∃ l m k, u.conn? 1 = some k ∧ u.findMsg 1 = some (l, m) ∧ m.target = k.agent ∧ m.kind = .recall ∧ u.findMsg 2 = none :=
  ⟨passes_of (by decide +kernel), ⟨_, _, _, rfl, rfl, by decide +kernel, by decide +kernel, by decide +kernel⟩⟩

/-- RECV_DONE of the request that line 0 waits for. -/
theorem wit_HomeAnswers_recvDone : let s := waitsFor .forwarding .fwdM
    ∃ e ∈ s.coh.dir, e.2.txn.any (fun t => t.kind = .forwarding && (s.op? t.req.op).any fun o => o.conn = 1 && o.f.opId = wRx.f.opId) = true := by
  decide +kernel

theorem wit_CoherenceWaits : let s := waitsFor .forwarding .fwdM
    let r : LineReq := { op := 9, kind := .getS, line := 0, at_ := 0 }
    (s.entry 0).txn.any (fun t => t.fwdDoneAt = some 0 && t.kind = .forwarding && !t.recvDone) = true ∧
    0 + bits (s.reg Reg.dsCohCtrl) 7 0 * 10000 ≤ s.ran ∧ r.at_ + bits (s.reg Reg.dsCohCtrl) 23 16 * 1000000 ≤ s.ran ∧ (base.entry 0).txn = none ∧
    (let g := withRegs [(Reg.dsAshClrLines, 1)]
     g.reg Reg.dsAshClrAddr % 64 = 0 ∧ 1 ≤ g.reg Reg.dsAshClrLines ∧ g.placed 0 = true ∧ extentOf 0 = extentOf (0 + 64 * 1 - 1)) ∧
    ({ base with coh := { base.coh with rehomeSt := .opened, rehomeAt := 0 } } : State).coh.rehomeAt + 50000000 ≤ s.ran ∧
    (base.peer 63).st = .idle := by decide +kernel

theorem wit_ExtentCommands : let arg := 0x7000
    base.clocked = true ∧ base.present (tmPage 0) = true ∧ (base.extent 1).st = .free ∧ arg.testBit 18 = false ∧ bits arg 21 20 = 0 ∧
    base.tierReady 1 = true ∧ base.backed 1 = true ∧ base.boot.service = .full ∧ base.extActive < 64 ∧ base.extRoom 1 0 = true ∧
    (base.extent 0).st = .granted ∧ (base.extent 0).mirrored = false ∧ (base.extLocal 1 1 arg).1 = .ok ∧ base.twinOpen = false ∧
    (let s : State := { base with store := { base.store with extents := [(0, { st := .revoked })] } }
     (s.extent 0).st = .revoked ∧ (s.extLocal 3 0 0).1 = .ok) := by decide +kernel

theorem wit_ExtentTimers : let s : State := { base with
      store := { base.store with extents := [(0, { st := .revoking }), (1, { filling := true })], revs := [(0, { tO := some 0 })] } }
    s.clocked = true ∧ (s.extent 1).filling = true ∧ s.boot.service = .full ∧ s.store.revs.get? 0 = some { tO := some 0 } ∧ s.admitted 0 = 0 ∧
    (∀ x ∈ s.coh.dir, extentOf (x.1 * 64) = 0 → x.2.pendingHolders = false) ∧ 0 ≤ s.ran ∧ 0xFFFFE > s.nearExtents ∧ 0 < s.nearExtents ∧ s.bulkExtents = 0 := by
  decide +kernel

/-- A window's end, and a tile of the Blended window that moves, its copy done. -/
theorem wit_TierRows : let m : Move := { target := .near, location := 0, cause := .window }
    let s : State := { base with store := { base.store with moves := [(2 ^ 28, m)], corrected := [1] }, time := { ran := 64000000000, now := 64000000000 } }
    s.clocked = true ∧ s.boot.service = .full ∧ s.store.windowAt.getD 0 0 + s.reg Reg.tmWindow % 1024 * 1000000 ≤ s.ran ∧ s.serves (tmPage 0) = true ∧
    s.store.moves.get? (2 ^ 28) = some m ∧ m.cause ≠ .unmute ∧ m.marked = [] ∧ m.target ≠ .muted ∧ (s.readTile (2 ^ 28)).1 = true ∧
    (s.tile (2 ^ 28)).tier ≠ .muted ∧ s.store.moves.get? (2 ^ 31 - 1) = none ∧ 1 ∈ s.store.corrected := by decide +kernel

/-- A FILL job of one line that is admitted at once. -/
def wFill : Rx :=
  let body := leBytes 2 1 ++ leBytes 2 0 ++ leBytes 4 0 ++ leBytes 8 0 ++ leBytes 2 0x100 ++ leBytes 2 64 ++ List.replicate 12 0 ++ List.replicate 32 0
  asJob 4 1 { wRx with f := { wRx.f with payload := body } }

theorem wit_JobAdmission : let u := base.asked 1 wFill
    let j := jobOf 1 wFill.f true
    u.boot.service = .full ∧ j.ty = 1 ∧ j.headOk = true ∧ j.tenant = 0 ∧ u.kindsPresent j = true ∧ u.creditsUsed j.tenant < (u.tenantJobs j.tenant).credits ∧
    u.stopping (ingressPage 0) = false ∧ u.ctl.resetting.contains (ingressPage 0) = false ∧ u.queueUsed 0 < u.queueCap ∧ (u.poolRefuses 0 0).1 = false := by
  decide +kernel

theorem wit_JobAdmission_unassigned : base.Request 1 wConn (asJob 5 0 wRx) ∧ (base.asked 1 (asJob 5 0 wRx)).boot.service = .full :=
  ⟨⟨⟨passes_of (by decide +kernel), conn_of (by decide +kernel),
    ⟨by decide +kernel, by decide +kernel, ⟨_, rfl, by decide +kernel, by decide +kernel⟩, ⟨_, rfl, by decide +kernel⟩⟩⟩,
    ⟨⟨_, rfl, by decide +kernel, by decide +kernel⟩, by decide +kernel, by decide +kernel, by decide +kernel⟩⟩, by decide +kernel⟩

/-- base with a job of a type in a phase. -/
def wJob (ty : Nat) (phase : JobPhase) : Job :=
  { conn := 1, f := { }, ty := ty, tenant := 0, flags := 0, target := 0, seed := 0, limit := 1, user := 0, body := [], tAdmit := 0, die := 0, phase := phase }
def runs (ty : Nat) (phase : JobPhase) : State :=
  { base with jobs := { base.jobs with jobs := [(1, wJob ty phase)], nextJob := 2 }, time := { ran := 6400000000, now := 6400000000 } }

theorem wit_WorkDeals : let s := runs 0x101 .running
    s.clocked = true ∧ s.dealArray (fun j => j.ty = 0x100 || j.ty = 0x101) (fun a j => s.arrayServes a j.needsExpander) = some (0, 1) ∧
    s.job? 1 = some (wJob 0x101 .running) ∧ (wJob 0x101 .running).nextUnit = some 0 ∧
    (runs 0x203 .running).dealArray (fun j => j.ty = 0x203) (runs 0x203 .running).pieceArray = some (0, 1) ∧
    base.dealArray (fun j => j.ty = 0x404) (fun _ _ => true) = none ∧ base.serves (gatherPage 0) = true ∧ base.gatherHeld 0 = false ∧
    (runs 0x310 .waiting).embReady 1 (wJob 0x310 .waiting) = true ∧
    (wJob 0x310 .running).phase = .running ∧ (wJob 0x310 .running).next = 0 ∧ 4096 ≤ base.mergeFree ∧
    (let t := runs 0x202 .waiting
     0x201 ∉ t.sessionBefore 1 (wJob 0x202 .waiting) ∧ t.sessionWaits 1 (wJob 0x202 .waiting) = false) := by decide +kernel

theorem wit_EngineOwnWork : let v : Version := { num := 1, lo := 0, rows := 1, base := 0, acc := 0, hot := 0, stride := 64, hotRows := 1, due := [0] }
    let s : State := { runs 0x310 .waiting with
      emb := { base.emb with tables := [(0, { opened := true, versions := [v] }), (1, { opened := true, closing := some 1 })] }
      srch := { base.srch with colls := [(0, { opened := true, merge := { st := .running, complete := true } }), (1, { opened := true, merge := { st := .draining } })] } }
    s.clocked = true ∧ s.emb.windowAt + s.reg Reg.geEmbCtrl % 1024 * 1000000 ≤ s.ran ∧ (s.table 0).version? 1 = some v ∧ v.due ≠ [] ∧
    (∀ e ∈ s.jobs.jobs, e.2.bind ≠ [0, 0, 1]) ∧ (s.table 1).closing = some 1 ∧ (s.table 1).versions = [] ∧ (s.coll 0).merge.st = .running ∧
    (s.coll 0).merge.complete = true ∧ s.ownBusy 0 = false ∧ s.boot.service = .full ∧ (s.coll 1).merge.st = .draining ∧
    (∀ e ∈ s.jobs.jobs, e.2.ty ≠ 0x404) := by decide +kernel

theorem wit_JobEnds : let j := { wJob 0x101 .running with finished := 1 }
    let s : State := { runs 0x101 .running with jobs := { base.jobs with jobs := [(1, j)] } }
    s.job? 1 = some j ∧ j.ty ≠ 0 ∧ j.phase = .running ∧ j.finished = j.units ∧ j.blocked = [] ∧ j.todo = [] ∧ j.peerLeft = [] ∧ s.jobBusy 1 = false ∧
    j.limit ≠ 0 ∧ j.admitted + j.limit * 1000 ≤ s.ran ∧ s.job? 2 = none := by decide +kernel

theorem wit_PeerConnections : let w : PeerWrite := { opId := 5, job := 1, offset := 0, len := 64 }
    let s : State := { base with jobs := { base.jobs with peers := [(0, { st := .opened, ports := [0, 1], live := [0], writes := [w] }), (1, { st := .joining }), (2, { st := .closing })] } }
    s.clocked = true ∧ s.peerSel = 0 ∧ (s.peer 0).st = .opened ∧ (s.peer 0).writes.find? (fun w => w.opId = 5) = some w ∧
    (s.peer 0).writes.find? (fun w => w.opId = 6) = none ∧ (1#3).toNat < (s.peer 0).ports.length ∧ (1#3).toNat ∉ (s.peer 0).live ∧
    (s.peer 1).st = .joining ∧ (s.peer 2).st = .closing ∧ (base.peer 0).st = .idle ∧ base.pairTaken 0 1 0 = false := by decide +kernel

theorem wit_PaletteRows : let b : Build := { st := .pending, lens := palette }
    let s : State := { withRegs [(Reg.tcPalSel, 1)] with
      pal := { base.pal with slots := [(1, { smode := 2, build := some b }), (2, { build := some { st := .waiting } })], histQueue := [(0, [.slot 2])] }
      time := { ran := 64000000, now := 64000000 } }
    s.clocked = true ∧ s.palSel = 1 ∧ s.palSlot? 1 = some { smode := 2, build := some b } ∧ s.palRoom 1 = true ∧ b.alarmed = false ∧ b.since + 10000000 ≤ s.ran ∧
    s.histTurn 0 (.slot 2) = true ∧ s.palSlot? 3 = none ∧ base.palSel = 0 := by decide +kernel

/-- A paired device in Full service: its twin port is up, path 0 of the twin connection is open, the partner's incarnation is 3. -/
def paired : State :=
  { withRegs [(Reg.twTwinCtrl, 0x101), (Reg.portPortCtrl (portPage 34), 2)] with
    net := { base.net with
      ports := [(34, { up := true, serviceDown := false })]
      conns := [(twinConn, { wConn with agent := 0, paths := [(0, { live := true, opened := true, port := 34 })] })] }
    twin := { key := some 0, partnerIncarn := some 3
              leases := [(0, { st := .shadow, holder := 1, gen := 4 }), (1, { st := .hold }), (2, { st := .giving }), (3, { st := .fenced, holder := 1, partner := 6 })] }
    time := { ran := 64000000000, now := 64000000000 } }

/-- The next frame of the twin connection, of KIND 5 (GIVE) and extent 0. -/
def wTwin : Rx :=
  { port := 34, dst := paired.portIp 34,
    f := { ty := 0x60, conn := 1, seq := 1, incarn := 3, hlen := 13, ext := [0x02040005, 0, 5, 0] } }

theorem wit_TwinTurn (r : Rx) (h : r ∈ [asTwin 0x03 wTwin, asTwin 0x04 wTwin, asTwin 0x05 wTwin, asTwin 0x06 wTwin, asTwin 0x40 wTwin, asTwin 0x41 wTwin,
    asTwin 0x60 wTwin, asTwin 0x20 wTwin, asTwin 0x21 wTwin, asTwin 0x22 wTwin, asTwin 0x11 wTwin, asTwin 0x12 wTwin, asTwin 0x10 wTwin, asTwin 0x30 wTwin,
    asTwin 0x50 wTwin, asTwin 0x51 wTwin]) : paired.TwinTurn r ∧ (twinExt r.f).any (fun e => e.2.length = 3) = true := by
  revert r
  simp only [List.forall_mem_cons]
  refine ⟨?_, ?_, ?_, ?_, ?_, ?_, ?_, ?_, ?_, ?_, ?_, ?_, ?_, ?_, ?_, ?_, fun _ h => by cases h⟩ <;>
  exact ⟨⟨⟨passes_of (by decide +kernel), by decide +kernel, by decide +kernel, by decide +kernel, by decide +kernel, by decide +kernel, by decide +kernel,
    by decide +kernel, by decide +kernel⟩,
    ⟨by decide +kernel, by decide +kernel, ⟨_, rfl, by decide +kernel, by decide +kernel⟩, ⟨_, rfl, by decide +kernel⟩⟩⟩, by decide +kernel⟩

/-- A PAIR_HELLO and a BEAT, outside the sequence; the leases that GIVE, TAKE, COPY and CHECKPOINT meet. -/
theorem wit_TwinLeases : paired.Passes (asFlag fUnseq true (asTwin 0x01 wTwin)) ∧ paired.Passes (asFlag fUnseq true (asTwin 0x02 wTwin)) ∧
    paired.paired = true ∧ paired.role 34 = 2 ∧ (twinExt (asTwin 0x01 wTwin).f).any (fun e => e.1 = 1) = true ∧
    (let u := paired.twinTurn (asTwin 0x05 wTwin)
     u.twin.leases.get? 0 = some { st := .shadow, holder := 1, gen := 4 } ∧ (u.lease 2).st = .giving ∧ (u.lease 3).st = .fenced ∧
     u.twin.handed.filter (·.orphan) = [] ∧ u.twin.shadows = [] ∧ u.twin.holders = [] ∧ (u.twin.leases.map (·.1)).Nodup) :=
  ⟨passes_of (by decide +kernel), passes_of (by decide +kernel), by decide +kernel⟩

/-- What MIRROR, MIRROR_ACK, TAKEN, DONE, HANDOVER and EXT_DONE meet. -/
theorem wit_TwinOperations : let f := (asTwin 0x20 wTwin).f
    let h : HolderOp := { key := frameKey f, op := 1, conn := 1, extent := 0, addr := 0, value := [], old := [], phase := 1 }
    let w : Handed := { key := frameKey f, op := 1, extent := 0, f := { }, since := 0 }
    let c : Carried := { extent := 0, cmd := 2, arg := 0 }
    let s : State := { paired with twin := { paired.twin with holders := [h], handed := [w], carried := [c] } }
    (s.twin.holders.find? fun h => h.key = frameKey f && h.phase = 1) = some h ∧ (s.twin.handed.find? fun h => h.key = frameKey f && h.front) = some w ∧
    (s.twin.carried.find? fun c => c.extent = 0) = some c ∧ s.holds 1 = true ∧ s.holds 0 = false ∧ paired.shadowRoom 0 = true ∧
    (paired.twin.shadows.find? fun x => x.key = frameKey f) = none := by decide +kernel

theorem wit_StoreMemory : Memory.wf base.store.mem = true ∧ Memory.wf [(5, 1)] = true := by decide

theorem wit_TwinTimers : let s := paired
    s.clocked = true ∧ s.paired = true ∧ s.boot.service ≠ .greyscale ∧ s.twinOpen = true ∧ s.twin.lastBeat + 100000 ≤ s.ran ∧
    s.twin.lastRenew + 1000000 ≤ s.ran ∧ s.twin.lastHeard + 2000000 ≤ s.ran ∧ s.twin.leases.get? 2 = some { st := .giving } ∧
    (∀ h ∈ s.twin.holders, h.extent = 2 → 2 ≤ h.phase) ∧ s.twin.waiting = [] ∧ s.twin.leases.get? 3 = some { st := .fenced, holder := 1, partner := 6 } ∧
    1 = 1 - s.side ∧ s.twin.recordedAt + bits (s.reg Reg.twTakeoverHold) 13 0 * 1000000 ≤ s.ran ∧ base.paired = false := by decide +kernel

/-- A lost lease whose partner is confirmed dead, and a solo lease whose resync is done. -/
theorem wit_TwinTimers_ends : let r : Resync := { extent := 1, pass := 6 }
    let s : State := { paired with twin := { paired.twin with leases := [(0, { st := .lost }), (1, { st := .solo })], resync := some r } }
    (∃ e ∈ s.twin.leases, e.2.st = .lost) ∧ s.twin.partnerIncarn = some 3 ∧ s.twin.leases.get? 1 = some { st := .solo } ∧ s.twin.resync = some r ∧
    r.source = true ∧ r.todo = [] ∧ r.marked = [] ∧ r.suspended = false ∧ s.copiesOut = 0 := by decide +kernel

end Sys2Proof.Tests
end

section
/-! PROOFS. Writes to registers: what a write of a staged register does to the control state (R59), what a write of a
whole value comes to for a register without an effect of its own (Table 0-3), and the statement on both. -/

namespace Sys2Proof.Machine

variable {s : State} {page off : Nat}

/-! ### Staged writes (R59) -/

theorem State.flagsOf_onFlags (s : State) (page p : Nat) (f : CfgFlags → CfgFlags) :
    (s.onFlags page f).flagsOf p = if page = p then f (s.flagsOf page) else s.flagsOf p :=
  getD_put' s.ctl.flags page p (f (s.flagsOf page)) { }

theorem stagedWriteOp_absent (hp : s.present page = false) (v : Nat) : stagedWriteOp page off v s = s := by
  simp [stagedWriteOp, hp]

/-- The control state that a staged write leaves, before STAGED is set: the shadow and the written mark. -/
def Control.stage (c : Control) (a v : Nat) : Control :=
  { c with shadow := c.shadow.put a (BitVec.ofNat 64 v), written := if c.written.contains a then c.written else c.written ++ [a] }

theorem Control.stage_written (c : Control) (a v : Nat) : (c.stage a v).written.contains a = true := by
  by_cases h : a ∈ c.written <;> simp [Control.stage, h]

theorem stagedWriteOp_present {mask : Nat} (hp : s.present page = true)
    (hw : (stagedWords page).find? (·.1 = off) = some (off, mask)) (v : Nat) :
    stagedWriteOp page off v s =
      (s.onCtl (·.stage (page * 4096 + off) (v &&& mask))).onFlags page fun g => { g with staged := true } := by
  simp [stagedWriteOp, hp, hw, Control.stage]

theorem State.shadowReg_stage (s : State) (p a b v : Nat) (hv : v < 2 ^ 64) (f : CfgFlags → CfgFlags) :
    ((s.onCtl (·.stage a v)).onFlags p f).shadowReg b = if a = b then v else s.shadowReg b := by
  simp only [State.shadowReg, State.onFlags, State.onCtl_ctl, Control.stage, Tbl.get?_put]
  by_cases hab : a = b
  · simp only [hab, if_true, BitVec.toNat_ofNat, Nat.mod_eq_of_lt hv]
  · simp only [if_neg hab]; rfl

/-! ### A whole value written to a register without an effect of its own (R10, Table 0-3) -/

theorem State.writeAt_absent (hp : s.present page = false) (wait : Option (Nat × Frame)) (v : Nat) :
    s.writeAt wait page off v = wrote s := by
  unfold State.writeAt
  split
  · simp [hp]
  · rfl

/-- Outside UNIT_CTRL and the drill's staging registers, a write that no owner takes is stored by its access code. -/
theorem State.writeAt_eq_writeStore {u : UnitRef} {r : RegDef} {k : Nat} (hu : unitOf page = some u)
    (hr : findReg page off = some (r, k)) (hp : s.present page = true) (hctrl : off ≠ 0x14)
    (hdrill : u.ty = .drill → drillStaging off = false) {wait : Option (Nat × Frame)} {v : Nat}
    (hown : (if off < 0x40 then none else s.writeOwn wait u page (page * 4096 + off) v) = none) :
    s.writeAt wait page off v = wrote (s.writeStore r page off v) := by
  have hlapse : s.when (u.ty = .drill && drillStaging off) State.drillLapse = s := by
    by_cases h : u.ty = .drill
    · simp [State.when, hdrill h]
    · simp [State.when, h]
  simp only [State.writeAt, hu, hr, hp, hctrl, hlapse, hown, Bool.not_true, Bool.false_eq_true, if_false]

theorem State.writeRow_of_wrote {v : Nat} {t : State} (h : s.writeAt none page off v = wrote t) : s.writeRow page off v = t := by
  rw [State.writeRow, h]; rfl

theorem State.writeStore_staged {r : RegDef} (hr : r.staged = true) (v : Nat) :
    s.writeStore r page off v = stagedWriteOp page off v s := by
  rw [State.writeStore, if_pos hr]

theorem State.writeStore_stores {r : RegDef} (hr : r.staged = false) (ha : r.acc = .rw ∨ r.acc = .rws ∨ r.acc = .wo) (v : Nat) :
    s.writeStore r page off v = s.setReg (page * 4096 + off) (v &&& r.mask) := by
  obtain ha | ha | ha := ha <;> simp [State.writeStore, hr, ha]

theorem State.writeStore_ro {r : RegDef} (hr : r.staged = false) (ha : r.acc = .ro) (v : Nat) : s.writeStore r page off v = s := by
  simp [State.writeStore, hr, ha]

/-- W1C, but for UNIT_ERR of a group, of which FANOUT alone clears. -/
theorem State.writeStore_w1c {r : RegDef} (hr : r.staged = false) (ha : r.acc = .w1c) (hg : off = 0x1C → isGroup page = false) (v : Nat) :
    s.writeStore r page off v =
      s.setReg (page * 4096 + off) (s.reg (page * 4096 + off) - (s.reg (page * 4096 + off) &&& v)) := by
  have hones : (if off = 0x1C && isGroup page then v &&& 2 else v) = v := by
    by_cases h : off = 0x1C
    · simp [hg h]
    · simp [h]
  simp only [State.writeStore, hr, ha, hones, Bool.false_eq_true, if_false]

/-! ### The two rows -/

theorem exec_stagedWrite (hs : s.clocked = true) (v : BitVec 64) :
    exec (.stagedWrite page off v) s = .next (settle (stagedWriteOp page off v.toNat s)) :=
  act_clocked hs _

/-- An offset without a register is reserved (R12). -/
theorem exec_registerWrite_reserved (hs : s.clocked = true) (hr : findReg page off = none) (v : BitVec 64) :
    exec (.registerWrite page off v) s = .next (settle s.progress) := by
  change execRegisterWrite page off v s = _
  rw [execRegisterWrite, work_clocked hs, hr]

theorem exec_registerWrite (hs : s.clocked = true) {r : RegDef} {at_ : Nat} (hr : findReg page off = some (r, at_)) (v : BitVec 64) :
    exec (.registerWrite page off v) s =
      .next (settle (s.writeRow page at_ (if r.wide then v.toNat else v.toNat % 2 ^ 32)).progress) := by
  change execRegisterWrite page off v s = _
  rw [execRegisterWrite, work_clocked hs, hr]

theorem exec_registerWrite_absent (hs : s.clocked = true) (hp : s.present page = false) (v : BitVec 64) :
    exec (.registerWrite page off v) s = .next (settle s.progress) := by
  cases hr : findReg page off with
  | none => exact exec_registerWrite_reserved hs hr v
  | some e => rw [exec_registerWrite hs hr, State.writeRow_of_wrote (State.writeAt_absent hp none _)]

/-- Settles O30: the staged clauses from what staging leaves of the control state, the others from the one lemma that a
write without an owner is stored by its access code. -/
theorem registerWrites : Obligations.RegisterWrites := by
  intro s page off v hs
  refine ⟨fun hr => exec_registerWrite_reserved hs hr v, fun hp => ⟨exec_registerWrite_absent hs hp v, ?_⟩, ?_, ?_⟩
  · rw [exec_stagedWrite hs, stagedWriteOp_absent hp]
  · intro mask hp hw
    have hlt : v.toNat &&& mask < 2 ^ 64 := Nat.lt_of_le_of_lt Nat.and_le_left v.isLt
    refine ⟨_, exec_stagedWrite hs v, ?_⟩
    rw [stagedWriteOp_present hp hw]
    refine ⟨rfl, ?_, fun a ha => ?_, Control.stage_written s.ctl _ (v.toNat &&& mask), ?_, fun p hpne => ?_, fun _ => rfl⟩
    · rw [State.shadowReg_stage _ _ _ _ _ hlt, if_pos rfl]
    · rw [State.shadowReg_stage _ _ _ _ _ hlt, if_neg ha.symm]
    · rw [State.flagsOf_onFlags, if_pos rfl]
    · rw [State.flagsOf_onFlags, if_neg hpne.symm]; rfl
  · intro u r at_ hu hr hat hp hctrl hdrill x a put hown
    have hrow : exec (.registerWrite page off v) s = .next (settle (s.writeStore r page at_ x).progress) := by
      rw [exec_registerWrite hs hr, State.writeRow_of_wrote (State.writeAt_eq_writeStore hu hat hp hctrl hdrill hown)]
    refine ⟨fun hst => ?_, fun hst => ⟨fun hacc => ?_, fun hacc => ?_, fun hacc hg => ?_⟩⟩
    · rw [hrow, State.writeStore_staged hst]
    · rw [hrow, State.writeStore_stores hst hacc]; rfl
    · rw [hrow, State.writeStore_ro hst hacc]
    · rw [hrow, State.writeStore_w1c hst hacc hg]; rfl

end Sys2Proof.Machine
end

section
/-! PROOFS. The state after reset, the rest of a quiet device, and resets: each row that resets the device comes to coldReset
or to a requested warm reset, whose effect the laws of resets state once. -/

namespace Sys2Proof.Machine

variable {s : State}

/-! ### Reset and rest -/

theorem State.reg_reset (a : Nat) : State.reset.reg a = resetValue a := rfl

/-- Settles O2: field by field, and a register that nothing has written reads the reset value of its table. -/
theorem resetState : Obligations.ResetState := by
  refine ⟨rfl, rfl, rfl, rfl, rfl, rfl, rfl, rfl, rfl, rfl, rfl, rfl, rfl, rfl, rfl, rfl, rfl, rfl, rfl, rfl, rfl, rfl, rfl, ?_⟩
  simp only [State.reg_reset]
  decide +kernel

/-- Settles O7: each of the three passes of progress leaves a quiet state as it is. -/
theorem quietDeviceRests : Obligations.QuietDeviceRests := by
  intro s h
  rw [State.progress, goOn_quiet h, goOn_quiet h, goOn_quiet h]

/-! ### Cold resets (R427, R431) -/

/-- A requested cold reset takes the incarnation that standby logic held: the answers before it leave standby logic alone. -/
theorem State.requestedCold_eq (s : State) :
    s.requestedCold = (s.answerAll.sendNotice 2).coldReset 2 (s.boot.standby.getD s.boot.incarn + 1) := by
  have h : s.OnlyAnswers (s.answerAll.sendNotice 2) := (answerAll_only s).trans (sendNotice_only _ 2).answers
  have hb : (s.answerAll.sendNotice 2).boot = s.boot := by rw [h]
  rw [State.requestedCold, State.nextIncarn, hb]

/-- A power-up is a cold reset at TIME 0, under the incarnation that follows the held one, or a free one (R405, R431). -/
theorem powerGoodOp_started (hp : s.boot.powered = false) :
    (powerGoodOp s).now = 0 ∧ s.ColdStarted (powerGoodOp s) 1 (match s.boot.standby with
      | some v => v + 1
      | none => BitVec.ofNat 8 (Config.freeValue s.free)) := by
  rw [powerGoodOp, if_neg (by simp [hp])]
  cases s.boot.standby with
  | some v => exact ⟨rfl, started_time (cold_started s 1 (v + 1))⟩
  | none => exact ⟨rfl, started_time (started_of (cold_started s.draw.2 1 _) rfl rfl rfl rfl)⟩

/-- Settles O8: each of the three rows is coldReset of its kind; the answers before a requested one change none of what
it keeps. -/
theorem coldResets : Obligations.ColdResets := by
  intro s ns
  refine ⟨fun hp hn => ?_, fun h => ?_, fun hp => ?_, fun hp => ?_, fun hs => ?_⟩
  · refine ⟨_, ?_, cold_started s 3 _, cold_now s 3 _⟩
    change Host.Outcome.next (coldBallOp ns s) = _
    rw [coldBallOp, hp, decide_eq_true hn]; rfl
  · change Host.Outcome.next (coldBallOp ns s) = _
    rw [coldBallOp, if_neg]
    obtain hp | hn := h
    · simp [hp]
    · simp [hn]
  · exact ⟨powerGoodOp s, rfl, powerGoodOp_started hp⟩
  · change Host.Outcome.next (powerGoodOp s) = _
    rw [powerGoodOp, if_pos hp]
  · have h : s.OnlyAnswers (s.answerAll.sendNotice 2) := (answerAll_only s).trans (sendNotice_only _ 2).answers
    have hc := cold_started (s.answerAll.sendNotice 2) 2 (s.boot.standby.getD s.boot.incarn + 1)
    refine ⟨_, ?_, ?_, ?_, ?_, hc⟩
    · change act s State.requestedCold = _
      rw [act_clocked hs, State.requestedCold_eq, settle_rom hc.rom]
    · rw [cold_now, State.now, h]; rfl
    · rw [hc.flash, h]
    · rw [hc.pending, h]

/-! ### Requested warm resets (R428, Table 14-10) -/

/-- A requested warm reset (Table 14-9), with what is answered before it left out. -/
theorem State.requestedWarm_started (s : State) :
    s.WarmStarted s.requestedWarm 4 true ∧ s.requestedWarm.coh.dir = rehomeList s.coh.dir := by
  have h : s.OnlyAnswers (s.answerAll.sendNotice 1) := (answerAll_only s).trans (sendNotice_only _ 1).answers
  have hw := warm_started (s.answerAll.sendNotice 1) 4 false
  refine ⟨warm_of h hw.1, (hw.2 rfl).trans ?_⟩
  rw [h]

theorem State.settle_requestedWarm (s : State) : settle s.requestedWarm = s.requestedWarm :=
  settle_rom s.requestedWarm_started.1.rom

/-- UNIT_RESET of the root, its ENABLE and QUIESCE as at reset, asks for a warm reset and does nothing else (R428). -/
theorem State.unitCtrlRow_root (hp : s.present 0 = true) : s.unitCtrlRow 0 5 = s.requestedWarm := by
  have hreset : s.oneReset 0 = s := by rw [State.oneReset, if_pos (by decide +kernel)]
  have hone : s.ctrlOne 0 5 = (false || s.failed 0, s) := by
    have hr : s.ctrlRefused 0 5 = false := rfl
    simp only [State.ctrlOne, hr]
    simp [State.when, hreset, bit]
  rw [State.unitCtrlRow, State.writeUnitCtrl, hp, hone]; rfl

/-- Settles O9: each of the three rows makes the one requested warm reset, which leaves the boot ROM about to run, where no
level is sampled. -/
theorem requestedWarmResets : Obligations.RequestedWarmResets := by
  intro s hs
  obtain ⟨hw, hd⟩ := s.requestedWarm_started
  refine ⟨fun ns hn => ⟨_, ?_, hw, hd⟩, fun ns hn => ?_, ⟨_, ?_, hw, hd⟩, fun hp hr => ⟨_, ?_, hw, hd⟩⟩
  · change act s (warmBallOp ns) = _
    rw [act_clocked hs, warmBallOp, if_pos hn, s.settle_requestedWarm]
  · change act s (warmBallOp ns) = _
    rw [act_clocked hs, warmBallOp, if_neg (by omega)]
  · change act s State.requestedWarm = _
    rw [act_clocked hs, s.settle_requestedWarm]
  · change work s (fun s => s.unitCtrlRow 0 (4 + s.reg (Reg.unitCtrl 0) % 4)) = _
    rw [work_clocked hs, hr, State.unitCtrlRow_root hp]
end Sys2Proof.Machine
end

section
/-! PROOFS. The time base, pace readings and the carve change: what each row's effect comes to where its condition holds and
where it does not. -/

namespace Sys2Proof.Machine

variable {s : State}

/-! ### The time base (R24 to R30) -/

theorem timeSetOp_eq (s : State) (hi : BitVec 32) : timeSetOp hi s =
    { s with time :=
        if s.ptpOn = true ∨ hi.toNat * 2 ^ 32 + s.reg Reg.rootTimeSetLo < s.now then { s.time with setRefused := true }
        else { s.time with now := hi.toNat * 2 ^ 32 + s.reg Reg.rootTimeSetLo, frac := 0, setRefused := false } } := by
  simp only [timeSetOp, Bool.or_eq_true, decide_eq_true_eq]
  split <;> rfl

theorem ptpSyncOp_idle {port : Nat} (h : s.disciplined = false ∨ port ≠ s.ptpPort ∨ (s.portSt port).up = false) (offset : Int) :
    ptpSyncOp port offset s = s := by
  rw [ptpSyncOp, if_neg]
  obtain h | h | h := h <;> simp [h]

theorem holdoverOp_idle (h : s.disciplined = false ∨ s.time.holdover = true ∨
    (s.since (s.time.lastSync.getD 0) 3000000000 = false ∧ (s.portSt s.ptpPort).up = true)) : holdoverOp s = s := by
  obtain h | h | ⟨hs, hu⟩ := h
  · simp [holdoverOp, h]
  · simp [holdoverOp, State.enterHoldover, h]
  · simp [holdoverOp, hs, hu]

/-- Settles O16: each row by its own guard, and where the guard fails the row leaves the state as it is. -/
theorem timeRows : Obligations.TimeRows := by
  intro s hs
  refine ⟨fun hi => ?_, fun port offset hd hp hu => ?_, fun port offset h => ?_, fun hd hh h => ?_, fun h => ?_⟩
  · change act s (timeSetOp hi) = _
    rw [act_clocked hs, timeSetOp_eq]
  · change act s (ptpSyncOp port offset) = _
    rw [act_clocked hs, ptpSyncOp, if_pos (by simp [hd, hu, ← hp])]
    simp only [Bool.and_eq_true, decide_eq_true_eq]
    rfl
  · change act s (ptpSyncOp port offset) = _
    rw [act_clocked hs, ptpSyncOp_idle h]
  · change act s holdoverOp = _
    have hdue : (s.disciplined && (s.since (s.time.lastSync.getD 0) 3000000000 || !(s.portSt s.ptpPort).up)) = true := by
      obtain h | h := h <;> simp [hd, h]
    rw [act_clocked hs, holdoverOp, if_pos hdue, State.enterHoldover, if_neg (by simp [hh])]; rfl
  · change act s holdoverOp = _
    rw [act_clocked hs, holdoverOp_idle h]

/-! ### Pace (R21, R474) -/

/-- What the count of one unit does (R21, R474); low is the grid value. -/
def State.paceReading (s : State) (low page n : Nat) : State :=
  if s.present page && !isGroup page then
    let pace := n * 1000 / 1024
    (s.setReg (Reg.unitPace page) (pace % 2 ^ 32)).when (pace * 100 < low * 99) fun s => s.onPwr fun p => { p with paceLow := true }
  else s

theorem paceWindowOp_append (s : State) (l : List (Nat × Nat)) (page n : Nat) :
    paceWindowOp (l ++ [(page, n)]) s = (paceWindowOp l s).paceReading (paceFloor s.pwr.req s.pwr.tj) page n := by
  simp only [paceWindowOp, List.foldl_append, List.foldl_cons, List.foldl_nil]; rfl

theorem State.paceReading_eq (s : State) (low page n : Nat) : s.paceReading low page n =
    if s.present page = true ∧ isGroup page = false then
      { s with ctl := { s.ctl with regs := s.ctl.regs.put (Reg.unitPace page) (BitVec.ofNat 64 (n * 1000 / 1024 % 2 ^ 32)) }
               pwr := { s.pwr with paceLow := s.pwr.paceLow || decide (n * 1000 / 1024 * 100 < low * 99) } }
    else s := by
  simp only [State.paceReading, Bool.and_eq_true, Bool.not_eq_true']
  split
  · cases decide (n * 1000 / 1024 * 100 < low * 99) <;> simp [State.setReg, State.onCtl, State.onPwr]
  · rfl

theorem State.paceReading_conditions (s : State) (low page n : Nat) :
    (s.paceReading low page n).pwr.req = s.pwr.req ∧ (s.paceReading low page n).pwr.tj = s.pwr.tj ∧
      (s.paceReading low page n).present = s.present := by
  rw [State.paceReading_eq]; split <;> exact ⟨rfl, rfl, rfl⟩

/-- The request and the junction, by which readings are judged, and the units stay as they are. -/
theorem paceWindowOp_conditions (l : List (Nat × Nat)) (s : State) :
    (paceWindowOp l s).pwr.req = s.pwr.req ∧ (paceWindowOp l s).pwr.tj = s.pwr.tj ∧
      (paceWindowOp l s).present = s.present := by
  induction l using List.reverseRecOn with
  | nil => exact ⟨rfl, rfl, rfl⟩
  | append_singleton l c ih =>
    rw [paceWindowOp_append]
    obtain ⟨hreq, htj, hpages⟩ := ih
    rw [← hreq, ← htj, ← hpages]
    exact State.paceReading_conditions _ _ c.1 c.2

/-- Settles O18: one more count is one more reading, and no reading changes what later ones are judged by. -/
theorem paceWindows : Obligations.PaceWindows := by
  intro s hs
  have hrow (l : List (Nat × Nat)) : exec (.paceWindow l) s = .next (settle (paceWindowOp l s)) := act_clocked hs _
  refine ⟨hrow [], fun l page n => ?_, fun tj => ⟨rfl, rfl⟩, rfl, rfl, rfl⟩
  obtain ⟨hreq, htj, hpages⟩ := paceWindowOp_conditions l s
  refine ⟨paceWindowOp l s, hrow l, hreq, htj, ?_⟩
  rw [hrow, paceWindowOp_append, State.paceReading_eq, hpages]

/-! ### The carve change (R409, R410) -/

/-- The state in which the requests that waited for the carve change are admitted (R410). -/
def State.carved (s : State) : State :=
  let laid : State := { s with boot := { s.boot with carve := s.carveSizes, carveWait := false, entered := true, waiting := [] } }
  { laid with coh := { laid.respill.coh with
      rehomeSt := if s.coh.rehomeSt = .awaiting then .opened else s.coh.rehomeSt,
      rehomeAt := if s.coh.rehomeSt = .awaiting then s.ran else s.coh.rehomeAt } }

/-- Admission of what waited, in its order, for connections that are still OPEN (R409). -/
def State.admitWaiting (s : State) (l : List Waiting) : State :=
  l.foldl (fun v w => if (v.conn? w.conn).any fun k => k.st = .openC then v.admitReq w.conn w.port w.f else v) s

theorem carveChangeOp_idle (h : ¬(s.boot.service = .full ∧ s.boot.carveWait = true ∧ s.poolUsed 0 = 0 ∧ s.poolUsed 1 = 0)) :
    carveChangeOp s = s := by
  rw [carveChangeOp, if_pos]
  by_contra hc
  exact h (by simpa [and_assoc] using hc)

theorem carveChangeOp_due (hf : s.boot.service = .full) (hw : s.boot.carveWait = true) (h0 : s.poolUsed 0 = 0)
    (h1 : s.poolUsed 1 = 0) : carveChangeOp s = s.carved.admitWaiting s.boot.waiting := by
  have hopen (u : State) : (u.onCoh fun c => if c.rehomeSt = .awaiting then { c with rehomeSt := .opened, rehomeAt := u.ran } else c) =
      { u with coh := { u.coh with
        rehomeSt := if u.coh.rehomeSt = .awaiting then .opened else u.coh.rehomeSt,
        rehomeAt := if u.coh.rehomeSt = .awaiting then u.ran else u.coh.rehomeAt } } := by
    by_cases h : u.coh.rehomeSt = .awaiting <;> simp [State.onCoh, h]
  rw [carveChangeOp, if_neg (by simp [hf, hw, h0, h1])]
  simp only [hopen]
  rfl

/-- Settles O15: when due, the carve is laid out and what waited is admitted; else the row leaves the state as it is. -/
theorem carveChangeAdmitsWhatWaited : Obligations.CarveChangeAdmitsWhatWaited := by
  intro s hs
  have hrow : exec .carveChange s = .next (settle (carveChangeOp s).progress) := work_clocked hs _
  refine ⟨fun h => ?_, fun hf hw h0 h1 => ?_⟩
  · rw [hrow, carveChangeOp_idle h]
  · dsimp only
    rw [hrow, carveChangeOp_due hf hw h0 h1]; rfl

end Sys2Proof.Machine
end

section
/-! PROOFS. Tiles and lines of the store: what an attempt to begin a move leaves, window ends, copy passes and unmutes, freed
sources, scrubbing and write-backs. -/

namespace Sys2Proof

/-! ### Sparse tables -/

theorem Tbl.length_put_le {α : Type} (t : Tbl α) (i : Nat) (v : α) : (Tbl.put t i v).length ≤ t.length + 1 := by
  induction t with
  | nil => simp [Tbl.put]
  | cons e t ih =>
    obtain ⟨k, w⟩ := e
    simp only [Tbl.put]
    split
    · simp
    · split <;> simp; omega

theorem Tbl.get?_mapVals {α β : Type} (f : Nat → α → β) (t : Tbl α) (i : Nat) :
    Tbl.get? (List.map (fun e => (e.1, f e.1 e.2)) t) i = (Tbl.get? t i).map (f i) := by
  induction t with
  | nil => rfl
  | cons e t ih =>
    obtain ⟨k, w⟩ := e
    by_cases h : k = i
    · subst h; simp [Tbl.get?]
    · simp only [List.map_cons, Tbl.get?, if_neg h]; exact ih

namespace Machine

variable {s : State}

/-! ### Beginning moves (R122, R124, R126) -/

/-- What an attempt to begin a move leaves of the store: all of it where none begins, and else one entry more in the table of
moves, for a tile of its own (steps 2 and 3 of a migration). -/
def State.MoveTried (s : State) (k : Nat) (r : MoveAns × State) : Prop :=
  (r.1 ≠ .begun ∧ r.2.store = s.store) ∨
  (r.1 = .begun ∧ ∃ x m, r.2.store = { s.store with tiles := s.store.tiles.put k x, moves := s.store.moves.put k m })

theorem State.MoveTried.not_begun {k : Nat} {a : MoveAns} {u : State} (ha : a ≠ .begun) (hu : u.store = s.store) :
    s.MoveTried k (a, u) := .inl ⟨ha, hu⟩

theorem State.MoveTried.begun {k : Nat} {u : State} (hu : u.store = s.store) (f : Tile → Tile) (m : Move) :
    s.MoveTried k (.begun, (u.onTile k f).onStore fun st => { st with moves := st.moves.put k m }) := by
  refine .inr ⟨rfl, f (u.tile k), m, ?_⟩
  rw [State.onTile, State.onStore_store, State.onStore_store, hu]

@[simp] theorem State.nearFrame_store (s : State) : s.nearFrame.2.store = s.store := rfl
@[simp] theorem State.bulkFrame_store (s : State) : s.bulkFrame.2.store = s.store := rfl
@[simp] theorem State.bulkSectors_store (s : State) (n : Nat) : (s.bulkSectors n).2.store = s.store := rfl

theorem State.MoveTried.ite {k : Nat} {c : Prop} [Decidable c] {r r' : MoveAns × State} (h : s.MoveTried k r)
    (h' : s.MoveTried k r') : s.MoveTried k (if c then r else r') := by
  split <;> assumption

theorem State.moveTried_beginMove (s : State) (k : Nat) (target : Tier) (cause : MoveCause) :
    s.MoveTried k (s.beginMove k target cause) := by
  unfold State.beginMove
  extract_lets d x ten refuse codec start
  have hstart (u : State) (hu : u.store = s.store) (loc sectors : Nat) : s.MoveTried k (start u loc sectors) := .begun hu _ _
  have hrefuse (u : State) (hu : u.store = s.store) (a : MoveAns) (ha : a ≠ .begun) : s.MoveTried k (refuse u a) := .not_begun ha hu
  clear_value start refuse codec
  refine .ite (.not_begun (by simp) rfl) (.ite (hrefuse _ rfl _ (by simp)) ?_)
  split
  · refine .ite (hrefuse _ rfl _ (by simp)) ?_
    split
    · next f u h => exact hstart _ (congrArg (·.2.store) h).symm _ _
    · next u h => exact hrefuse _ (congrArg (·.2.store) h).symm _ (by simp)
  · refine .ite (hrefuse _ rfl _ (by simp)) ?_
    split
    · next f u h => exact hstart _ (congrArg (·.2.store) h).symm _ _
    · next u h => exact hrefuse _ (congrArg (·.2.store) h).symm _ (by simp)
  · refine .ite (hrefuse _ rfl _ (by simp)) ?_
    refine .ite (.not_begun (by simp) rfl) (.ite (hrefuse _ rfl _ (by simp)) ?_)
    split
    · next f u h => exact hstart _ (congrArg (·.2.store) h).symm _ _
    · next u h => exact hrefuse _ (congrArg (·.2.store) h).symm _ (by simp)
  · exact .not_begun (by simp) rfl

theorem State.moveTiles_cons (budget : Nat) (target : Tile → Tier) (a : Nat × Nat × State) (k : Nat) (l : List Nat) :
    State.moveTiles budget target a (k :: l) = State.moveTiles budget target (State.moveTiles budget target a [k]) l := rfl

/-- One attempt of a window end counts exactly when a move begins, and none is made once the budget is used up. -/
theorem State.moveTiles_one (budget : Nat) (target : Tile → Tier) (n short k : Nat) (s : State) :
    let r := State.moveTiles budget target (n, short, s) [k]
    (r.1 = n ∧ r.2.2.store = s.store) ∨
    (n < budget ∧ r.1 = n + 1 ∧ ∃ x m, r.2.2.store =
      { s.store with tiles := s.store.tiles.put k x, moves := s.store.moves.put k m }) := by
  have htry := s.moveTried_beginMove k (target (s.tile k)) .window
  simp only [State.moveTiles, List.foldl_cons, List.foldl_nil]
  split
  · exact .inl ⟨rfl, rfl⟩
  · next hb =>
    obtain ⟨ha, hu⟩ | ⟨ha, hu⟩ := htry
    · refine .inl ?_
      split
      · next u h => exact absurd (congrArg (·.1) h) ha
      · next u h => exact ⟨rfl, (congrArg (·.2.store) h).symm.trans hu⟩
      · next a u _ _ h => exact ⟨rfl, (congrArg (·.2.store) h).symm.trans hu⟩
    · refine .inr ⟨by omega, ?_⟩
      split
      · next u h => rw [h] at hu; exact ⟨rfl, hu⟩
      · next u h => rw [h] at ha; cases ha
      · next a u hne _ h => rw [h] at ha; exact absurd ha hne

/-- A run of attempts within a budget: the windows stay as they are, and no more moves begin than it counts. -/
theorem State.moveTiles_store (budget : Nat) (target : Tile → Tier) (l : List Nat) (n short : Nat) (s : State) (hn : n ≤ budget) :
    let r := State.moveTiles budget target (n, short, s) l
    r.1 ≤ budget ∧ r.2.2.store.windowAt = s.store.windowAt ∧ r.2.2.store.moves.length + n ≤ s.store.moves.length + r.1 := by
  induction l generalizing n short s with
  | nil => exact ⟨hn, rfl, Nat.le_refl _⟩
  | cons k l ih =>
    rw [State.moveTiles_cons]
    have hone := State.moveTiles_one budget target n short k s
    generalize State.moveTiles budget target (n, short, s) [k] = a at hone ⊢
    obtain ⟨n', short', u⟩ := a
    obtain ⟨rfl, hu⟩ | ⟨hlt, rfl, x, m, hu⟩ := hone
    · dsimp only at hu
      rw [← hu]; exact ih n' short' u hn
    · dsimp only at hu
      obtain ⟨hle, hwin, hlen⟩ := ih (n + 1) short' u hlt
      have hput := Tbl.length_put_le s.store.moves k m
      rw [hu] at hwin hlen
      exact ⟨hle, hwin, by dsimp only at hlen ⊢; omega⟩

theorem State.windowMoves_store (s : State) (d : Nat) :
    (s.windowMoves d).store.windowAt = s.store.windowAt ∧
      (s.windowMoves d).store.moves.length ≤ s.store.moves.length + s.reg Reg.tmMoveBudget % 65536 := by
  unfold State.windowMoves
  extract_lets ctrl budget pin hot
  obtain ⟨hle, hwin, hlen⟩ := State.moveTiles_store budget (fun _ => .near) (pin ++ hot) 0 0 s (Nat.zero_le _)
  generalize State.moveTiles budget (fun _ => .near) (0, 0, s) (pin ++ hot) = a at hle hwin hlen ⊢
  obtain ⟨done, short, u⟩ := a
  have hcold (l : List Nat) :
      let v := (State.moveTiles budget (fun x => if x.policy = 3 then .muted else .bulk) (done, 0, u) l).2.2
      v.store.windowAt = s.store.windowAt ∧ v.store.moves.length ≤ s.store.moves.length + budget := by
    obtain ⟨hle', hwin', hlen'⟩ :=
      State.moveTiles_store budget (fun x => if x.policy = 3 then .muted else .bulk) l done 0 u hle
    exact ⟨hwin'.trans hwin, by dsimp only at hlen hlen' ⊢; omega⟩
  exact hcold _

/-! ### Tiles at a window end (R124) -/

/-- A change of every listed tile that leaves an untouched one alone is that change of every tile. -/
theorem State.tile_mapTiles (s : State) (f : Nat → Tile → Tile) (k : Nat) (hf : ∀ p, f k { policy := p } = { policy := p }) :
    (s.onStore fun st => { st with tiles := st.tiles.map fun e => (e.1, f e.1 e.2) }).tile k = f k (s.tile k) := by
  simp only [State.tile, State.onStore_store, Tbl.get?_mapVals]
  cases s.store.tiles.get? k with
  | none => exact (hf _).symm
  | some x => rfl

/-- A tile after its window: SEEN and the idle count brought up to date (Table 4-9). -/
def Tile.aged (x : Tile) : Tile :=
  { x with seen := min (x.seen + 1) 2, idle := if x.accesses = 0 then min (x.idle + 1) 16 else 0 }

theorem State.tile_ageTiles (s : State) (d k : Nat) :
    (s.ageTiles d).tile k = if tileDie k = d && (s.tile k).tier != .unbacked then (s.tile k).aged else s.tile k :=
  s.tile_mapTiles (fun k x => if tileDie k = d && x.tier != .unbacked then x.aged else x) k fun p => by simp

theorem State.tile_clearAccesses (s : State) (d k : Nat) :
    (s.clearAccesses d).tile k = if tileDie k = d then { s.tile k with accesses := 0 } else s.tile k :=
  s.tile_mapTiles (fun k x => if tileDie k = d then { x with accesses := 0 } else x) k fun p => by simp

/-- The state once a window's end has been noted and every tile of the die is brought up to date. -/
def State.windowNoted (s : State) (d : Nat) : State :=
  (s.onStore fun st => { st with windowAt := st.windowAt.set d s.ran }).ageTiles d

/-- Whether the window of die d has ended: a window after the last, in full service (R124). -/
def State.WindowDue (s : State) (d : Nat) : Prop :=
  s.boot.service = .full ∧ s.store.windowAt.getD d 0 + s.reg Reg.tmWindow % 1024 * 1000000 ≤ s.ran ∧ s.serves (tmPage d) = true

theorem tierWindowEndOp_early {d : Nat} (h : ¬s.WindowDue d) : tierWindowEndOp d s = s := by
  rw [tierWindowEndOp, if_pos]
  by_contra hc
  exact h (by simpa [State.WindowDue, State.since, and_assoc] using hc)

theorem tierWindowEndOp_due {d : Nat} (h : s.WindowDue d) : tierWindowEndOp d s =
    ((s.windowNoted d).when (bit (s.reg Reg.tmMigrateCtrl) 0) fun s => s.windowMoves d).clearAccesses d := by
  obtain ⟨hfull, hwin, hserves⟩ := h
  rw [tierWindowEndOp, if_neg (by simpa [State.since, hfull, hserves] using hwin)]; rfl

/-- What the moves of a window end leave of its windows and of the number of moves, with migration on or off. -/
theorem State.whenMoves_store (s : State) (d : Nat) (on : Bool) :
    (s.when on fun s => s.windowMoves d).store.windowAt = s.store.windowAt ∧
      (s.when on fun s => s.windowMoves d).store.moves.length ≤ s.store.moves.length + s.reg Reg.tmMoveBudget % 65536 := by
  cases on
  · exact ⟨rfl, Nat.le_add_right _ _⟩
  · exact s.windowMoves_store d

theorem tierWindowEndOp_store {d : Nat} (h : s.WindowDue d) : let t := tierWindowEndOp d s
    t.store.windowAt = s.store.windowAt.set d s.ran ∧ (∀ k, tileDie k = d → (t.tile k).accesses = 0) ∧
      t.store.moves.length ≤ s.store.moves.length + s.reg Reg.tmMoveBudget % 65536 := by
  rw [tierWindowEndOp_due h]
  have hmoves := (s.windowNoted d).whenMoves_store d (bit (s.reg Reg.tmMigrateCtrl) 0)
  refine ⟨hmoves.1, fun k hk => ?_, hmoves.2⟩
  rw [State.tile_clearAccesses, if_pos hk]

theorem tierWindowEndOp_noMigration {d : Nat} (h : s.WindowDue d) (hoff : (s.reg Reg.tmMigrateCtrl).testBit 0 = false) :
    let t := tierWindowEndOp d s
    t.store.moves = s.store.moves ∧ (∀ k, tileDie k ≠ d → t.tile k = s.tile k) ∧
      ∀ k, tileDie k = d → (s.tile k).tier ≠ .unbacked → t.tile k = { (s.tile k).aged with accesses := 0 } := by
  have htile (k : Nat) : (s.windowNoted d).tile k = if tileDie k = d && (s.tile k).tier != .unbacked then (s.tile k).aged else s.tile k :=
    State.tile_ageTiles _ d k
  rw [tierWindowEndOp_due h, show bit (s.reg Reg.tmMigrateCtrl) 0 = false from hoff, State.when_false]
  refine ⟨rfl, fun k hk => ?_, fun k hk ht => ?_⟩
  · rw [State.tile_clearAccesses, if_neg hk, htile, if_neg (by simp [hk])]
  · rw [State.tile_clearAccesses, if_pos hk, htile, if_pos (by simp [hk, ht])]

/-! ### Copy passes and unmutes (R32, R126, R127, R285) -/

theorem State.finishMove_plain {k : Nat} {m : Move} (h : (s.tile k).tier ≠ .muted) :
    s.finishMove k m = ((s.switchTile k m).countMove k m (s.tile k).tier).endMove k m .moved := by
  rw [State.finishMove, if_neg h]

/-- A muted source is decoded before the switch, and a tile that does not decode stays where it is (R285). -/
theorem State.finishMove_muted {k : Nat} {m : Move} (h : (s.tile k).tier = .muted) :
    s.finishMove k m = match unmuteTile (s.tile k).coded with
      | some bs => (((s.poke (k * 65536) bs).switchTile k m).countMove k m .muted).endMove k m .moved
      | none => (s.decodeFails k).endMove k m .failed := by
  rw [State.finishMove, if_pos h, State.decodeTile]
  cases unmuteTile (s.tile k).coded <;> simp only [h]

theorem moveCopyPassDoneOp_idle {k : Nat} (h : s.store.moves.get? k = none ∨ s.boot.service ≠ .full) :
    moveCopyPassDoneOp k s = s := by
  unfold moveCopyPassDoneOp
  split
  · rfl
  · next m hm =>
    obtain h | h := h
    · rw [hm] at h; cases h
    · rw [if_pos (by simp [h])]

section
variable {k : Nat} {m : Move} (hm : s.store.moves.get? k = some m) (hfull : s.boot.service = .full)
include hm hfull

/-- A copy pass that has read the whole tile, or has met a line that cannot be read. -/
theorem moveCopyPassDoneOp_pass (hc : m.cause ≠ .unmute) :
    moveCopyPassDoneOp k s =
      if !(s.readTile k).1 then (s.readTile k).2.abandonMove k m
      else if !m.marked.isEmpty then
        (s.readTile k).2.onStore fun st => { st with moves := st.moves.put k { m with pass := m.pass + 1, marked := [] } }
      else if m.target = .muted && muteSectors ((s.readTile k).2.tileBytes k) != m.sectors then
        if 15 < muteSectors ((s.readTile k).2.tileBytes k) then
          ((s.readTile k).2.bump (Reg.tmMuteNoGain (tmPage (tileDie k)))).endMove k m .noGain
        else
          match ((s.readTile k).2.onStore fun st => { st with moves := st.moves.del k }).bulkSectors
              (muteSectors ((s.readTile k).2.tileBytes k)) with
          | (some f, t) => t.finishMove k { m with location := f, sectors := muteSectors ((s.readTile k).2.tileBytes k) }
          | (none, t) => (t.bump (Reg.tmMoveRefused (tmPage (tileDie k)))).endMove k m .failed
      else (s.readTile k).2.finishMove k m := by
  have hgo : ¬(decide (m.cause = .unmute) || s.boot.service != .full) = true := by simp [hc, hfull]
  rw [moveCopyPassDoneOp, hm]
  refine (if_neg hgo).trans ?_
  generalize s.readTile k = read
  obtain ⟨ok, r⟩ := read
  rfl

theorem moveCopyPassDoneOp_lost (hc : m.cause ≠ .unmute) (hr : (s.readTile k).1 = false) :
    moveCopyPassDoneOp k s = (s.readTile k).2.abandonMove k m := by
  rw [moveCopyPassDoneOp_pass hm hfull hc, if_pos (by simp [hr])]

theorem moveCopyPassDoneOp_again (hc : m.cause ≠ .unmute) (hr : (s.readTile k).1 = true) (hl : m.marked ≠ []) :
    moveCopyPassDoneOp k s = (s.readTile k).2.onStore fun st =>
      { st with moves := st.moves.put k { m with pass := m.pass + 1, marked := [] } } := by
  rw [moveCopyPassDoneOp_pass hm hfull hc, if_neg (by simp [hr]), if_pos (by simp [hl])]

theorem moveCopyPassDoneOp_finish (hc : m.cause ≠ .unmute) (hr : (s.readTile k).1 = true) (hl : m.marked = [])
    (hn : m.target = .muted → muteSectors ((s.readTile k).2.tileBytes k) = m.sectors) :
    moveCopyPassDoneOp k s = (s.readTile k).2.finishMove k m := by
  rw [moveCopyPassDoneOp_pass hm hfull hc, if_neg (by simp [hr]), if_neg (by simp [hl]), if_neg (by simpa using hn)]

theorem moveCopyPassDoneOp_noGain (hc : m.cause ≠ .unmute) (hr : (s.readTile k).1 = true) (hl : m.marked = [])
    (ht : m.target = .muted) (hn : muteSectors ((s.readTile k).2.tileBytes k) ≠ m.sectors)
    (h15 : 15 < muteSectors ((s.readTile k).2.tileBytes k)) :
    moveCopyPassDoneOp k s = ((s.readTile k).2.bump (Reg.tmMuteNoGain (tmPage (tileDie k)))).endMove k m .noGain := by
  rw [moveCopyPassDoneOp_pass hm hfull hc, if_neg (by simp [hr]), if_neg (by simp [hl])]
  exact (if_pos (by simp [ht, hn])).trans (if_pos h15)

/-- The end of an unmute whose codec was chosen when it began. -/
theorem unmuteDoneOp_codec {g : Nat} (hc : m.cause = .unmute) (hg : m.codec = some g) (decodes : Bool) :
    unmuteDoneOp k decodes s =
      if !(s.readTile k).1 then (s.readTile k).2.abandonMove k m
      else if decodes then (s.readTile k).2.finishMove k m
      else ((s.readTile k).2.decodeFails k).endMove k m .failed := by
  have hsame : { m with codec := some g } = m := by rw [← hg]
  rw [unmuteDoneOp, hm]
  refine (if_neg (by simp [hc, hfull])).trans ?_
  generalize s.readTile k = read
  obtain ⟨ok, r⟩ := read
  rw [hg]
  change (if !ok then r.abandonMove k { m with codec := some g } else _) = _
  rw [hsame]

end

theorem unmuteDoneOp_idle {k : Nat} (h : s.store.moves.get? k = none ∨ s.boot.service ≠ .full) (decodes : Bool) :
    unmuteDoneOp k decodes s = s := by
  unfold unmuteDoneOp
  split
  · rfl
  · next m hm =>
    obtain h | h := h
    · rw [hm] at h; cases h
    · rw [if_pos (by simp [h])]

theorem State.tile_onTile (s : State) (k : Nat) (f : Tile → Tile) : (s.onTile k f).tile k = f (s.tile k) := by
  simp [State.onTile, State.tile, Tbl.get?_put]

theorem State.decodeFails_bad (s : State) (k : Nat) : ((s.decodeFails k).tile k).bad = true := by
  rw [State.decodeFails, State.tile_onTile]

theorem State.tile_switchTile (s : State) (k : Nat) (m : Move) : ((s.switchTile k m).tile k).tier = m.target ∧
    ((s.switchTile k m).tile k).location = m.location ∧ ((s.switchTile k m).tile k).moving = false := by
  have h (x : Tile) (g : Store → Store) (hg : (g s.store).tiles = s.store.tiles.put k x) : (s.onStore g).tile k = x := by
    simp [State.tile, hg, Tbl.get?_put]
  rw [State.switchTile, h _ _ rfl]; exact ⟨rfl, rfl, rfl⟩

/-! ### Freed sources (R33) -/

/-- The sources of a tile that accesses still use. -/
def State.sourcesInUse (s : State) (k : Nat) : List FreeSrc :=
  (s.store.freeing.getD k []).filter fun x => x.ops.any fun i => (s.op? i).any fun o => !o.finished

theorem moveSourceFreeOp_freeing (s : State) (k j : Nat) :
    (moveSourceFreeOp k s).store.freeing.getD j [] = if k = j then s.sourcesInUse k else s.store.freeing.getD j [] := by
  change (if (s.sourcesInUse k).isEmpty then s.store.freeing.del k else s.store.freeing.put k (s.sourcesInUse k)).getD j [] = _
  split
  · next h =>
    rw [List.isEmpty_iff.mp h, Tbl.getD, Tbl.get?_del]
    split <;> rfl
  · rw [getD_put']

/-! ### Scrubbing and write-backs (R110, R112) -/

/-- A read through the code of a channel notes a corrected line and changes nothing else of the store. -/
theorem State.readLine_keeps (s : State) (l : Nat) :
    ∃ c, (s.readLine l).2.store = { s.store with corrected := c } ∧ (s.readLine l).2.time = s.time := by
  unfold State.readLine
  dsimp only
  split
  · exact ⟨_, rfl, rfl⟩
  · split
    · exact ⟨_, rfl, rfl⟩
    · split
      · exact ⟨_, rfl, rfl⟩
      · split
        · generalize (!isNearPage _ && _ && _ && _) = device
          cases device <;> exact ⟨_, rfl, rfl⟩
        · exact ⟨_, rfl, rfl⟩

/-- From s to t some lines of the store have been read through their code and written back where it corrected them. -/
def State.OnlyCorrects (s t : State) : Prop :=
  t.store.mem = s.store.mem ∧ t.time = s.time ∧ ∀ l ∈ t.store.flawed, l ∈ s.store.flawed

theorem State.OnlyCorrects.trans {t u : State} (h : s.OnlyCorrects t) (h' : t.OnlyCorrects u) : s.OnlyCorrects u :=
  ⟨h'.1.trans h.1, h'.2.1.trans h.2.1, fun l hl => h.2.2 l (h'.2.2 l hl)⟩

theorem State.onlyCorrects_readLine (s : State) (l : Nat) : s.OnlyCorrects (s.readLine l).2 := by
  obtain ⟨c, hstore, htime⟩ := s.readLine_keeps l
  exact ⟨by rw [hstore], htime, by rw [hstore]; exact fun _ h => h⟩

theorem State.onlyCorrects_freshLine (s : State) (l : Nat) : s.OnlyCorrects (s.freshLine l) :=
  ⟨rfl, rfl, fun _ h => (List.mem_filter.mp h).1⟩

/-- Scrubbing of one line: it is written back where its code corrects it. -/
def State.scrubLine (s : State) (l : Nat) : State := if (s.readLine l).1 then (s.readLine l).2.freshLine l else (s.readLine l).2

theorem State.onlyCorrects_scrub (l : List Nat) (s : State) : s.OnlyCorrects (l.foldl State.scrubLine s) := by
  induction l generalizing s with
  | nil => exact ⟨rfl, rfl, fun _ h => h⟩
  | cons a l ih =>
    refine State.OnlyCorrects.trans ?_ (ih _)
    unfold State.scrubLine
    split
    · exact (s.onlyCorrects_readLine a).trans (State.onlyCorrects_freshLine _ a)
    · exact s.onlyCorrects_readLine a

/-- Whether a scrub of a channel is due (R112). -/
def State.ScrubDue (s : State) (page : Nat) : Prop :=
  isChannel page = true ∧ (s.reg Reg.tmScrubCtrl).testBit 0 = true ∧ s.boot.service = .full ∧ (s.channel page).trained = true ∧
    s.serves page = true ∧ (s.channel page).scrubAt + bits (s.reg Reg.tmScrubCtrl) 15 8 * 3600000000000 ≤ s.ran

theorem scrubPassOp_early {page : Nat} (h : ¬s.ScrubDue page) : scrubPassOp page s = s := by
  rw [scrubPassOp, if_neg]
  intro hc
  exact h (by simpa [State.ScrubDue, State.since, bit, and_assoc] using hc)

/-- The flawed lines of a channel's medium. -/
def State.flawedLines (s : State) (page : Nat) : List Nat :=
  (s.store.flawed.map (·.1)).filter fun l => s.channelOf (s.mediumOf (l * 64)) = some page

/-- The state that a scrub pass leaves before it is counted. -/
def State.scrubbed (s : State) (page : Nat) : State :=
  let u := (s.flawedLines page).foldl State.scrubLine s
  u.onChannel page fun c => { c with scrubAt := u.ran }

theorem scrubPassOp_due {page : Nat} (h : s.ScrubDue page) : scrubPassOp page s = (s.scrubbed page).bump (Reg.chScrubPasses page) := by
  obtain ⟨hch, hon, hfull, htr, hserves, hat⟩ := h
  rw [scrubPassOp, if_pos (by simp [State.since, bit, hch, hon, hfull, htr, hserves, hat])]
  rfl

theorem State.channel_onChannel (s : State) (page : Nat) (f : Channel → Channel) :
    (s.onChannel page f).channel page = f (s.channel page) := by
  by_cases h : isNearPage page = true <;> simp [State.onChannel, State.channel, h, getD_put']

theorem State.scrubbed_keeps (s : State) (page : Nat) : ((s.scrubbed page).channel page).scrubAt = s.ran ∧
    (s.scrubbed page).store.mem = s.store.mem ∧ ∀ l ∈ (s.scrubbed page).store.flawed, l ∈ s.store.flawed := by
  obtain ⟨hmem, htime, hflawed⟩ := State.onlyCorrects_scrub (s.flawedLines page) s
  have hstore : (s.scrubbed page).store.mem = ((s.flawedLines page).foldl State.scrubLine s).store.mem ∧
      (s.scrubbed page).store.flawed = ((s.flawedLines page).foldl State.scrubLine s).store.flawed := by
    simp only [State.scrubbed, State.onChannel, State.onStore_store]
    split <;> exact ⟨rfl, rfl⟩
  refine ⟨?_, hstore.1.trans hmem, by rw [hstore.2]; exact hflawed⟩
  rw [State.scrubbed, State.channel_onChannel]
  exact congrArg TimeBase.ran htime

theorem correctedWritebackOp_waits {l : Nat} (h : l ∈ s.store.corrected) : correctedWritebackOp l s = s.freshLine l := by
  rw [correctedWritebackOp, if_pos (by simpa using h)]

theorem correctedWritebackOp_idle {l : Nat} (h : l ∉ s.store.corrected) : correctedWritebackOp l s = s := by
  rw [correctedWritebackOp, if_neg (by simpa using h)]

theorem State.freshLine_store (s : State) (l : Nat) : (s.freshLine l).store.flawed.get? l = none ∧
    l ∉ (s.freshLine l).store.corrected ∧ (s.freshLine l).store.mem = s.store.mem := by
  refine ⟨?_, ?_, rfl⟩
  · rw [State.freshLine, State.onStore_store, Tbl.get?_del, if_pos rfl]
  · simp [State.freshLine]

/-! ### The rows -/

/-- Settles O49, row by row: what its effect comes to where its condition holds, and that it has none where it does not. -/
theorem tierRows : Obligations.TierRows := by
  intro s hs ok
  refine ⟨fun d => ?_, fun k m hm hc hfull => ?_, fun k h => ?_, fun k => ?_, fun k dec m g hm hc hfull hg => ?_, fun k dec h => ?_,
    fun page => ?_, fun l => ?_⟩
  · have hrow : exec (.tierWindowEnd d) s = ok (tierWindowEndOp d s) := work_clocked hs _
    refine ⟨fun hdue => ⟨_, hrow, ?_⟩, fun hdue => ?_⟩
    · obtain ⟨hwin, hacc, hlen⟩ := tierWindowEndOp_store hdue
      exact ⟨hwin, hacc, hlen, tierWindowEndOp_noMigration hdue⟩
    · rw [hrow, tierWindowEndOp_early hdue]
  · have hrow : exec (.moveCopyPassDone k) s = ok (moveCopyPassDoneOp k s) := work_clocked hs _
    rw [hrow]
    refine ⟨fun hr => ?_, fun hr hl => ?_, fun hr hl ht hx => ⟨?_, State.tile_switchTile _ k m⟩, fun hr hl ht hx => ?_,
      fun hr hl ht hx => ⟨fun hn => ?_, fun hn h15 => ?_⟩⟩
    · rw [moveCopyPassDoneOp_lost hm hfull hc hr]; rfl
    · rw [moveCopyPassDoneOp_again hm hfull hc hr hl]
    · rw [moveCopyPassDoneOp_finish hm hfull hc hr hl (fun h => absurd h ht), State.finishMove_plain hx]
    · rw [moveCopyPassDoneOp_finish hm hfull hc hr hl (fun h => absurd h ht), State.finishMove_muted hx]
      cases unmuteTile ((s.readTile k).2.tile k).coded <;> rfl
    · rw [moveCopyPassDoneOp_finish hm hfull hc hr hl (fun _ => hn), State.finishMove_plain hx]
    · rw [moveCopyPassDoneOp_noGain hm hfull hc hr hl ht hn h15]
  · have hrow : exec (.moveCopyPassDone k) s = ok (moveCopyPassDoneOp k s) := work_clocked hs _
    rw [hrow, moveCopyPassDoneOp_idle h]
  · have hrow : exec (.moveSourceFree k) s = ok (moveSourceFreeOp k s) := work_clocked hs _
    refine ⟨_, hrow, fun j hj => ?_, ?_⟩
    · rw [moveSourceFreeOp_freeing, if_neg hj.symm]
    · rw [moveSourceFreeOp_freeing, if_pos rfl]; rfl
  · have hrow : exec (.unmuteDone k dec) s = ok (unmuteDoneOp k dec s) := work_clocked hs _
    rw [hrow, unmuteDoneOp_codec hm hfull hc hg]
    refine ⟨fun hr => ?_, fun hr hd => ⟨?_, State.decodeFails_bad _ k⟩, fun hr hd hx => ?_⟩
    · rw [if_pos (by simp [hr])]; rfl
    · rw [if_neg (by simp [hr]), if_neg (by simp [hd])]
    · rw [if_neg (by simp [hr]), if_pos hd, State.finishMove_muted hx]
      cases unmuteTile ((s.readTile k).2.tile k).coded <;> rfl
  · have hrow : exec (.unmuteDone k dec) s = ok (unmuteDoneOp k dec s) := work_clocked hs _
    rw [hrow, unmuteDoneOp_idle h]
  · have hrow : exec (.scrubPass page) s = ok (scrubPassOp page s) := work_clocked hs _
    refine ⟨fun hdue => ⟨s.scrubbed page, ?_, s.scrubbed_keeps page⟩, fun hdue => ?_⟩
    · rw [hrow, scrubPassOp_due hdue]
    · rw [hrow, scrubPassOp_early hdue]
  · have hrow : exec (.correctedWriteback l) s = ok (correctedWritebackOp l s) := work_clocked hs _
    refine ⟨fun hl => ⟨s.freshLine l, ?_, s.freshLine_store l⟩, fun hl => ?_⟩
    · rw [hrow, correctedWritebackOp_waits hl]
    · rw [hrow, correctedWritebackOp_idle hl]

end Machine
end Sys2Proof
end

section
/-! PROOFS. Accesses: READ, WRITE, ATOMIC and the coherence requests at admission, their checks in order, and entry as an
operation. -/

namespace Sys2Proof.Machine

variable {s : State} {c : Nat} {f : Frame}

/-! ### Admission of an access (Table 3-7 step 11) -/

/-- The types of the requests that Table 3-7 step 11 takes as accesses: READ, WRITE, ATOMIC and the coherence requests. -/
def accessTypes : List Nat := [0x01, 0x02, 0x03, 0x10, 0x11, 0x12, 0x13, 0x14, 0x15]

theorem type_ne_of_access {ty : Byte} (ht : ty.toNat ∈ accessTypes) (n : Nat) (hlt : n < 256) (hn : n ∉ accessTypes) :
    ty ≠ BitVec.ofNat 8 n := by
  rintro rfl
  rw [BitVec.toNat_ofNat, Nat.mod_eq_of_lt hlt] at ht
  exact hn ht

/-- An access that arrives in its turn and is admitted is taken, and CMD_END and held frames follow. -/
theorem State.Request.rxFrame_access {k : Conn} {r : Rx} (h : s.Request c k r) (hc : c ≠ twinConn) (ht : r.f.ty.toNat ∈ accessTypes)
    (hresp : has r.f fResp = false) : s.rxFrame r = ((s.asked c r).takeAccess c r.f).done c r := by
  have hne := type_ne_of_access ht
  have hadmit : (s.asked c r).admitReq c r.port r.f = (s.asked c r).takeAccess c r.f :=
    admit_access h.admits.room h.admits.service h.admits.carve ht
  rw [rxFrame_request h hc (hne 0x1A (by decide) (by decide)) (hne 0x1B (by decide) (by decide)) (hne 0x52 (by decide) (by decide)) hresp,
    hadmit]

/-! ### Entry as an operation (R18, R220) -/

theorem State.poolRefuses_gives {h t : Nat} (hp : (s.poolRefuses h t).1 = false) : (s.poolRefuses h t).2 = s := by
  revert hp
  unfold State.poolRefuses
  dsimp only
  split_ifs <;> simp

/-- A frame as the operation of its connection, with the command that its OP_ID belongs to (R80), stamped with a tag (R221). -/
def State.opOf (s : State) (src : OpSrc) (conn tenant : Nat) (f : Frame) (mirrored : Bool) : Op :=
  let cmd := match s.conn? conn with
    | some k => match k.ops.find? (·.opId = f.opId) with
      | some o => o.cmd
      | none => k.cmd
    | none => 0
  { src := src, conn := conn, f := f, tenant := tenant, extent := extentOf (offOf f.addr.toNat),
    half := homeDie (offOf f.addr.toNat), at_ := s.ran, cmd := cmd, tag := (s.stampTag tenant (costOf f) (s.weightOf tenant 0)).1,
    left := linesOf (offOf f.addr.toNat) (spanOf f), fence := has f fFence, mirrored := mirrored }

/-- The state in which a frame stands as a new operation that has not begun. -/
def State.entered (s : State) (src : OpSrc) (conn tenant : Nat) (f : Frame) (mirrored : Bool) : State :=
  ((s.stampTag tenant (costOf f) (s.weightOf tenant 0)).2.addOp (s.opOf src conn tenant f mirrored)).2.when (writesOf f)
    fun s => s.soil (extentOf (offOf f.addr.toNat))

theorem State.enterPlain_refused {src : OpSrc} {tenant : Nat} {mirrored : Bool}
    (hp : (s.poolRefuses (homeDie (offOf f.addr.toNat)) tenant).1 = true) :
    s.enterPlain src c tenant f mirrored = (none, (s.poolRefuses (homeDie (offOf f.addr.toNat)) tenant).2) := by
  unfold State.enterPlain
  dsimp only
  split
  · next h => rw [h]
  · next h => rw [h] at hp; cases hp

theorem State.enterPlain_enters {src : OpSrc} {tenant : Nat} {mirrored : Bool}
    (hp : (s.poolRefuses (homeDie (offOf f.addr.toNat)) tenant).1 = false) :
    s.enterPlain src c tenant f mirrored =
      (some s.jobs.nextOp, (s.entered src c tenant f mirrored).startOp s.jobs.nextOp) := by
  have hsame := State.poolRefuses_gives hp
  unfold State.enterPlain
  dsimp only
  split
  · next h => rw [h] at hp; cases hp
  · next u h =>
    rw [h] at hsame
    subst hsame
    rfl

@[simp] theorem State.notePool_jobs (s : State) (h : Nat) : (s.notePool h).jobs = s.jobs := by
  unfold State.notePool; dsimp only; split <;> rfl

@[simp] theorem State.notePool_store (s : State) (h : Nat) : (s.notePool h).store = s.store := by
  unfold State.notePool; dsimp only; split <;> rfl

@[simp] theorem State.notePool_coh (s : State) (h : Nat) : (s.notePool h).coh = s.coh := by
  unfold State.notePool; dsimp only; split <;> rfl

@[simp] theorem State.soil_jobs (s : State) (e : Nat) : (s.soil e).jobs = s.jobs := by
  unfold State.soil; split <;> rfl

@[simp] theorem State.soil_coh (s : State) (e : Nat) : (s.soil e).coh = s.coh := by
  unfold State.soil; split <;> rfl

/-- Clearing CLEAN depends on the store alone. -/
theorem State.soil_store_congr {t : State} (h : t.store = s.store) (e : Nat) : (t.soil e).store = (s.soil e).store := by
  have hx : t.extent e = s.extent e := by rw [State.extent, h, State.extent]
  simp only [State.soil, hx, apply_ite State.store, State.onExtent, State.onStore_store, h]

section
variable (s : State) (src : OpSrc) (conn tenant : Nat) (f : Frame) (mirrored : Bool)

theorem State.op?_entered (j : Nat) : (s.entered src conn tenant f mirrored).op? j =
    if s.jobs.nextOp = j then some (s.opOf src conn tenant f mirrored) else s.op? j := by
  have hjobs : (s.entered src conn tenant f mirrored).jobs.ops = s.jobs.ops.put s.jobs.nextOp (s.opOf src conn tenant f mirrored) := by
    unfold State.entered
    cases writesOf f <;> simp [State.addOp, State.stampTag, State.onTenant]
  rw [State.op?, hjobs, Tbl.get?_put]; rfl

theorem State.entered_store : (s.entered src conn tenant f mirrored).store =
    (s.when (writesOf f) fun s => s.soil (extentOf (offOf f.addr.toNat))).store := by
  have hadd : ((s.stampTag tenant (costOf f) (s.weightOf tenant 0)).2.addOp (s.opOf src conn tenant f mirrored)).2.store = s.store := by
    simp [State.addOp, State.stampTag, State.onTenant]
  unfold State.entered
  cases writesOf f
  · exact hadd
  · exact State.soil_store_congr hadd _

theorem State.entered_coh : (s.entered src conn tenant f mirrored).coh = s.coh := by
  unfold State.entered
  cases writesOf f <;> simp [State.addOp, State.stampTag, State.onTenant]

end

/-! ### From the checks to entry -/

/-- Whether a frame is a WRITE with COMPRESS. -/
def isCompressWrite (f : Frame) : Bool := f.ty = 0x02 && has f fCompress

/-- The checks of an access, of a WRITE with COMPRESS or of any other: the first that fails. -/
def State.accessCheck (s : State) (tenant : Nat) (f : Frame) : Option Status × State :=
  if isCompressWrite f then s.compressCheck tenant f else s.plainCheck tenant f

section
variable {k : Conn} (hk : s.conn? c = some k)
include hk

theorem State.takeAccess_fails {st : Status} {u : State} (hbad : s.accessCheck k.tenant f = (some st, u)) :
    s.takeAccess c f = u.respond c f st := by
  unfold State.takeAccess
  rw [hk]
  dsimp only
  rw [show (if f.ty = 0x02 && has f fCompress then s.compressCheck k.tenant f else s.plainCheck k.tenant f) = (some st, u) from hbad]

/-- An access to a mirrored extent that passes its checks goes the way of mirrored operations; a coherence request does not. -/
theorem State.takeAccess_mirrored (hgood : s.accessCheck k.tenant f = (none, s))
    (hm : (s.extent (extentOf (offOf f.addr.toNat))).mirrored = true) (hcoh : isCoh f.ty.toNat = false) :
    s.takeAccess c f = s.takeMirrored c k.tenant f := by
  unfold State.takeAccess
  rw [hk]
  dsimp only
  rw [show (if f.ty = 0x02 && has f fCompress then s.compressCheck k.tenant f else s.plainCheck k.tenant f) = (none, s) from hgood]
  dsimp only
  rw [if_pos (by simp [hm, hcoh])]

section
variable (hgood : s.accessCheck k.tenant f = (none, s))
  (hm : (s.extent (extentOf (offOf f.addr.toNat))).mirrored = false ∨ isCoh f.ty.toNat = true)
include hgood hm

/-- An access of this device's own that passes its checks asks the pool for an entry; a block is coded first. -/
theorem State.takeAccess_own : s.takeAccess c f =
    if isCompressWrite f then
      if (s.poolRefuses (homeDie (offOf f.addr.toNat)) k.tenant).1 then
        (s.poolRefuses (homeDie (offOf f.addr.toNat)) k.tenant).2.respond c f .busy
      else match (s.compressFrame f).2.2.enterPlain .agent c k.tenant (s.compressFrame f).1 false with
        | (none, t) => t.respond c f .busy
        | (some i, t) => t.onOp i fun o => { o with ref := (s.compressFrame f).2.1 }
    else match s.enterPlain .agent c k.tenant f false with
      | (none, t) => t.respond c f .busy
      | (some _, t) => t := by
  have hown : ¬((s.extent (extentOf (offOf f.addr.toNat))).mirrored && !isCoh f.ty.toNat) = true := by
    obtain h | h := hm <;> simp [h]
  unfold State.takeAccess
  rw [hk]
  dsimp only
  rw [show (if f.ty = 0x02 && has f fCompress then s.compressCheck k.tenant f else s.plainCheck k.tenant f) = (none, s) from hgood]
  dsimp only
  rw [if_neg hown]
  rfl

theorem State.takeAccess_plain_refused (hplain : isCompressWrite f = false)
    (hp : (s.poolRefuses (homeDie (offOf f.addr.toNat)) k.tenant).1 = true) :
    s.takeAccess c f = (s.poolRefuses (homeDie (offOf f.addr.toNat)) k.tenant).2.respond c f .busy := by
  rw [State.takeAccess_own hk hgood hm, if_neg (by simp [hplain]), State.enterPlain_refused hp]

theorem State.takeAccess_plain_enters (hplain : isCompressWrite f = false)
    (hp : (s.poolRefuses (homeDie (offOf f.addr.toNat)) k.tenant).1 = false) :
    s.takeAccess c f = (s.entered .agent c k.tenant f false).startOp s.jobs.nextOp := by
  rw [State.takeAccess_own hk hgood hm, if_neg (by simp [hplain]), State.enterPlain_enters hp]

theorem State.takeAccess_compress_refused (hz : isCompressWrite f = true)
    (hp : (s.poolRefuses (homeDie (offOf f.addr.toNat)) k.tenant).1 = true) :
    s.takeAccess c f = (s.poolRefuses (homeDie (offOf f.addr.toNat)) k.tenant).2.respond c f .busy := by
  rw [State.takeAccess_own hk hgood hm, if_pos hz, if_pos hp]

theorem State.takeAccess_compress_enters (hz : isCompressWrite f = true)
    (hp : (s.poolRefuses (homeDie (offOf f.addr.toNat)) k.tenant).1 = false)
    (hp' : ((s.compressFrame f).2.2.poolRefuses (homeDie (offOf f.addr.toNat)) k.tenant).1 = false) :
    s.takeAccess c f =
      (((s.compressFrame f).2.2.entered .agent c k.tenant (s.compressFrame f).1 false).startOp (s.compressFrame f).2.2.jobs.nextOp).onOp
        (s.compressFrame f).2.2.jobs.nextOp fun o => { o with ref := (s.compressFrame f).2.1 } := by
  rw [State.takeAccess_own hk hgood hm, if_pos hz, if_neg (by simp [hp]), State.enterPlain_enters]
  exact hp'

end
end

/-! ### READ, WRITE, ATOMIC and coherence requests: the checks in their order -/

section
variable {tenant : Nat}

/-- Whether the service gate holds a request: any in Dark hold, a coherence request outside full service (R169, R419). -/
def State.GateHolds (s : State) (f : Frame) : Prop :=
  s.boot.service = .darkHold ∨ (isCoh f.ty.toNat = true ∧ s.boot.service ≠ .full)

theorem State.gateHolds_iff : s.GateHolds f ↔ (s.boot.service = .darkHold || (isCoh f.ty.toNat && s.boot.service != .full)) = true := by
  simp [State.GateHolds]

theorem State.plainCheck_gate (h : s.GateHolds f) : s.plainCheck tenant f = (some .held, s) := by
  rw [State.plainCheck, if_pos (State.gateHolds_iff.mp h)]

section
variable (h : ¬s.GateHolds f)
include h

theorem State.plainCheck_malformed (hw : wellFormed f = false) : s.plainCheck tenant f = (some .unsupported, s) := by
  rw [State.plainCheck, if_neg (mt State.gateHolds_iff.mpr h), if_pos (by simp [hw])]

section
variable (hw : wellFormed f = true)
include hw

theorem State.plainCheck_foreign (hd : devOf f.addr.toNat ≠ s.device) :
    s.plainCheck tenant f = (some .notPresent, s.bump Reg.rootForeignAddr) := by
  rw [State.plainCheck, if_neg (mt State.gateHolds_iff.mpr h), if_neg (by simp [hw]), if_pos (by simp [hd])]

theorem State.plainCheck_held (hd : devOf f.addr.toNat = s.device) (ha : s.accessHeld (offOf f.addr.toNat) = true) :
    s.plainCheck tenant f = (some .held, s) := by
  rw [State.plainCheck, if_neg (mt State.gateHolds_iff.mpr h), if_neg (by simp [hw]), if_neg (by simp [hd]), if_pos ha]

theorem State.plainCheck_grant (hd : devOf f.addr.toNat = s.device) (ha : s.accessHeld (offOf f.addr.toNat) = false) :
    s.plainCheck tenant f = (s.grantCheck tenant (offOf f.addr.toNat) (spanOf f) (needsOf f), s) := by
  rw [State.plainCheck, if_neg (mt State.gateHolds_iff.mpr h), if_neg (by simp [hw]), if_neg (by simp [hd]), if_neg (by simp [ha])]

end
end
end

theorem State.accessCheck_plain {tenant : Nat} (hplain : isCompressWrite f = false) : s.accessCheck tenant f = s.plainCheck tenant f := by
  rw [State.accessCheck, if_neg (by simp [hplain])]

/-! ### The rows -/

/-- A row that is the access of a frame: whether of a WRITE with COMPRESS. -/
structure AccessRow (row : Instr) (r : Rx) (compress : Bool) : Prop where
  rx : ∀ s, exec row s = work s fun s => s.rxFrame r
  type : r.f.ty.toNat ∈ accessTypes
  request : has r.f fResp = false
  compresses : isCompressWrite r.f = compress

/-- What the row of an access that arrives in its turn and is admitted answers. -/
theorem AccessRow.exec_eq {row : Instr} {r : Rx} {on : Bool} {k : Conn} (h : AccessRow row r on) (hreq : s.Request c k r) (hc : c ≠ twinConn) :
    exec row s = .next (settle (((s.asked c r).takeAccess c r.f).done c r).progress) := by
  rw [h.rx, work_clocked hreq.turn.passes.clocked, hreq.rxFrame_access hc h.type h.request]

/-- A row of another type than WRITE. -/
theorem AccessRow.of_type {row : Instr} {r : Rx} (n : Nat) (hn : n ∈ accessTypes) (hw : n ≠ 2) (hty : r.f.ty = BitVec.ofNat 8 n)
    (hresp : has r.f fResp = false) (hrx : ∀ s, exec row s = work s fun s => s.rxFrame r) : AccessRow row r false := by
  have hlt : n < 256 := (by decide : ∀ n ∈ accessTypes, n < 256) n hn
  have hnat : r.f.ty.toNat = n := by rw [hty, BitVec.toNat_ofNat, Nat.mod_eq_of_lt hlt]
  have hne : ¬r.f.ty = 0x02 := fun he => hw (by rw [← hnat, he]; rfl)
  exact ⟨hrx, by rw [hnat]; exact hn, hresp, by rw [isCompressWrite, decide_eq_false hne]; rfl⟩

theorem AccessRow.of_asType {row : Instr} {rx : Rx} (n : Nat) (hn : n ∈ accessTypes) (hw : n ≠ 2)
    (hrx : ∀ s, exec row s = work s fun s => s.rxFrame (asType n false rx)) : AccessRow row (asType n false rx) false :=
  .of_type n hn hw (type_ty n false rx) (type_resp n false rx) hrx

theorem AccessRow.of_asAtomic {row : Instr} {rx : Rx} (op : Nat) (hrx : ∀ s, exec row s = work s fun s => s.rxFrame (asAtomic op rx)) :
    AccessRow row (asAtomic op rx) false :=
  .of_type 3 (by decide) (by decide) (type_ty 3 false rx) (type_resp 3 false rx) hrx

theorem AccessRow.of_write {row : Instr} {rx : Rx} (on : Bool)
    (hrx : ∀ s, exec row s = work s fun s => s.rxFrame (asFlag fCompress on (asType 0x02 false rx))) :
    AccessRow row (asFlag fCompress on (asType 0x02 false rx)) on := by
  have hty : (asFlag fCompress on (asType 0x02 false rx)).f.ty = 0x02 := by rw [flag_ty, type_ty]; rfl
  refine ⟨hrx, by rw [hty]; decide, ?_, ?_⟩
  · rw [as_has_ne fCompress fResp on _ (by decide) (by decide), type_resp]
  · rw [isCompressWrite, hty, as_has fCompress on _ (by decide)]; rfl

theorem atomicAllowed_unlisted {op : Nat} (h : op = 0 ∨ 12 < op) (n : Nat) : atomicAllowed op n = false := by
  unfold atomicAllowed
  split <;> simp_all

/-- An ATOMIC of an opcode outside Table 7-6 is not in form. -/
theorem wellFormed_asAtomic_unlisted {op : Nat} (rx : Rx) (h : op = 0 ∨ 12 < op) (hlt : op < 256) : wellFormed (asAtomic op rx).f = false := by
  have hty : (asAtomic op rx).f.ty.toNat = 3 := by
    rw [show (asAtomic op rx).f.ty = BitVec.ofNat 8 3 from type_ty 3 false rx]; rfl
  have hop : atomicOpcode (asAtomic op rx).f = 0 ∨ atomicOpcode (asAtomic op rx).f = op := by
    have hpay : (asAtomic op rx).f.payload = (asType 3 false rx).f.payload.set 0 (BitVec.ofNat 8 op) := rfl
    rw [atomicOpcode, hpay]
    cases (asType 3 false rx).f.payload with
    | nil => exact .inl rfl
    | cons b bs => exact .inr (by simp [leField, leNat, Nat.mod_eq_of_lt hlt])
  have hnone : atomicAllowed (atomicOpcode (asAtomic op rx).f) (asAtomic op rx).f.len.toNat = false :=
    atomicAllowed_unlisted (by omega) _
  unfold wellFormed
  dsimp only
  rw [hty]
  simp [hnone]

/-- The opcode that the row of unlisted ATOMICs sends. -/
def unlistedOpcode (rx : Rx) : Nat := if 1 ≤ atomicOpcode rx.f && atomicOpcode rx.f ≤ 0x0C then 0 else atomicOpcode rx.f

theorem unlistedOpcode_unlisted (rx : Rx) : (unlistedOpcode rx = 0 ∨ 12 < unlistedOpcode rx) ∧ unlistedOpcode rx < 256 := by
  have hbyte : atomicOpcode rx.f < 256 := by
    rw [atomicOpcode, leField]
    cases rx.f.payload with
    | nil => exact Nat.zero_lt_succ _
    | cons b bs => exact b.isLt
  unfold unlistedOpcode
  split
  · omega
  · next h =>
    simp only [Bool.and_eq_true, decide_eq_true_eq] at h
    omega

/-- The rows of plain accesses, atomics and coherence requests, each with its frame. -/
def plainRows (rx : Rx) : List (Instr × Rx) :=
  [(.read rx, asType 0x01 false rx), (.write rx, asFlag fCompress false (asType 0x02 false rx)),
    (.faddI32 rx, asAtomic 1 rx), (.faddI64 rx, asAtomic 2 rx), (.faddF32 rx, asAtomic 3 rx), (.atomicSwap rx, asAtomic 4 rx),
    (.atomicCas rx, asAtomic 5 rx), (.atomicSmin rx, asAtomic 6 rx), (.atomicSmax rx, asAtomic 7 rx), (.atomicUmin rx, asAtomic 8 rx),
    (.atomicUmax rx, asAtomic 9 rx), (.atomicAnd rx, asAtomic 10 rx), (.atomicOr rx, asAtomic 11 rx), (.atomicXor rx, asAtomic 12 rx),
    (.atomicBadOpcode rx, asAtomic (unlistedOpcode rx) rx),
    (.getS rx, asType 0x10 false rx), (.getM rx, asType 0x11 false rx), (.upgrade rx, asType 0x12 false rx),
    (.putM rx, asType 0x13 false rx), (.putO rx, asType 0x14 false rx), (.putE rx, asType 0x15 false rx)]

theorem plainRows_access (rx : Rx) : ∀ e ∈ plainRows rx, AccessRow e.1 e.2 false := by
  have htype {row : Instr} (n : Nat) (hn : n ∈ accessTypes) (hw : n ≠ 2)
      (hrx : ∀ s, exec row s = work s fun s => s.rxFrame (asType n false rx)) : AccessRow row (asType n false rx) false := .of_asType n hn hw hrx
  have hatomic {row : Instr} (op : Nat) (hrx : ∀ s, exec row s = work s fun s => s.rxFrame (asAtomic op rx)) :
      AccessRow row (asAtomic op rx) false := .of_asAtomic op hrx
  unfold plainRows
  simp only [List.forall_mem_cons]
  refine ⟨htype 0x01 ?_ ?_ fun _ => rfl, .of_write false fun _ => rfl, hatomic 1 fun _ => rfl, hatomic 2 fun _ => rfl,
    hatomic 3 fun _ => rfl, hatomic 4 fun _ => rfl, hatomic 5 fun _ => rfl, hatomic 6 fun _ => rfl, hatomic 7 fun _ => rfl,
    hatomic 8 fun _ => rfl, hatomic 9 fun _ => rfl, hatomic 10 fun _ => rfl, hatomic 11 fun _ => rfl, hatomic 12 fun _ => rfl,
    hatomic (unlistedOpcode rx) fun _ => rfl, htype 0x10 ?_ ?_ fun _ => rfl, htype 0x11 ?_ ?_ fun _ => rfl,
    htype 0x12 ?_ ?_ fun _ => rfl, htype 0x13 ?_ ?_ fun _ => rfl, htype 0x14 ?_ ?_ fun _ => rfl, htype 0x15 ?_ ?_ fun _ => rfl,
    fun _ h => absurd h List.not_mem_nil⟩ <;> decide

/-- Among them the row of unlisted ATOMICs alone has that command, and its frame is not in form. -/
theorem plainRows_unlisted {rx : Rx} {r : Rx} (h : (.atomicBadOpcode rx, r) ∈ plainRows rx) : wellFormed r.f = false := by
  obtain ⟨hop, hlt⟩ := unlistedOpcode_unlisted rx
  have hr : r = asAtomic (unlistedOpcode rx) rx := by simpa [plainRows] using h
  rw [hr]
  exact wellFormed_asAtomic_unlisted rx hop hlt

/-- Settles O38: the row of an access is its frame in turn, and the checks of `plainCheck` are those of the statement one by one. -/
theorem plainRequests : Obligations.PlainRequests := by
  intro s c k k' rx row r hc hrow hreq hk u f off coh after heldNow
  have hacc : AccessRow row r false := plainRows_access rx (row, r) hrow
  have hexec : exec row s = after (u.takeAccess c f) := hacc.exec_eq hreq hc
  have hcheck : u.accessCheck k'.tenant f = u.plainCheck k'.tenant f := State.accessCheck_plain hacc.compresses
  rw [hexec]
  refine ⟨fun hheld => ?_, fun hgo hw => ?_, fun he => plainRows_unlisted (he ▸ hrow), fun hgo hw => ⟨fun hd => ?_, fun hd => ⟨fun ha => ?_,
    fun ha => ?_⟩⟩⟩
  · rw [State.takeAccess_fails hk (hcheck.trans (State.plainCheck_gate hheld))]
  · rw [State.takeAccess_fails hk (hcheck.trans (State.plainCheck_malformed hgo hw))]
  · rw [State.takeAccess_fails hk (hcheck.trans (State.plainCheck_foreign hgo hw hd))]
  · rw [State.takeAccess_fails hk (hcheck.trans (State.plainCheck_held hgo hw hd ha))]
  · have hgrant := hcheck.trans (State.plainCheck_grant hgo hw hd ha)
    refine ⟨fun st hst => ?_, fun hst hm hcoh => ?_, fun hst hm => ⟨fun hp => ?_, fun hp => ?_⟩⟩
    · rw [State.takeAccess_fails hk (hgrant.trans (by rw [hst]))]
    · rw [State.takeAccess_mirrored hk (hgrant.trans (by rw [hst])) hm hcoh]
    · rw [State.takeAccess_plain_refused hk (hgrant.trans (by rw [hst])) hm hacc.compresses hp]
    · refine ⟨u.entered .agent c k'.tenant f false, ?_, ?_, fun j hj => ?_, State.entered_store .., State.entered_coh ..⟩
      · rw [State.takeAccess_plain_enters hk (hgrant.trans (by rw [hst])) hm hacc.compresses hp]
      · rw [State.op?_entered, if_pos rfl]
        simp [State.opOf, off]
      · rw [State.op?_entered, if_neg hj.symm]

end Sys2Proof.Machine
end

section
/-! PROOFS. WRITE with COMPRESS: its checks, the block that the newest generation codes, and its entry as an operation. -/

namespace Sys2Proof.Machine

variable {s : State} {c : Nat} {f : Frame}

/-! ### WRITE with COMPRESS: the checks (R275, R286) -/

/-- Whether a WRITE with COMPRESS has the form of 512 values of a format, for a slot of the format's mode or of none yet. -/
def State.BlockFormed (s : State) (f : Frame) (fmt : Fmt) (mode : Nat) : Prop :=
  f.len.toNat = 8 + fmt.rowBytes 512 ∧ f.payload.length = f.len.toNat ∧ leField f.payload 0 2 % 4096 ≠ 0 ∧
    offOf f.addr.toNat % 64 = 0 ∧ ∀ y, Tbl.get? s.pal.slots (leField f.payload 0 2 % 4096) = some y → y.smode = mode

theorem State.blockFormed_iff (fmt : Fmt) (mode : Nat) : s.BlockFormed f fmt mode ↔
    (f.len.toNat != 8 + fmt.rowBytes 512 || f.payload.length != f.len.toNat || decide (leField f.payload 0 2 % 4096 = 0) ||
      offOf f.addr.toNat % 64 != 0 || (s.palSlot? (leField f.payload 0 2 % 4096)).any (fun x => x.smode != mode)) = false := by
  rw [State.BlockFormed, State.palSlot?]
  cases Tbl.get? s.pal.slots (leField f.payload 0 2 % 4096) <;> simp [and_assoc]

section
variable {tenant : Nat}

theorem State.compressCheck_held (h : s.boot.service ≠ .full) : s.compressCheck tenant f = (some .held, s) := by
  unfold State.compressCheck compressPrefix
  dsimp only
  rw [if_pos (by simp [h])]

section
variable (hfull : s.boot.service = .full)
include hfull

theorem State.compressCheck_uncoded (h : (fmtOf (leField f.payload 2 1)).bind smodeOf = none) :
    s.compressCheck tenant f = (some .unsupported, s) := by
  unfold State.compressCheck compressPrefix
  dsimp only
  rw [if_neg (by simp [hfull])]
  cases hfmt : fmtOf (leField f.payload 2 1) with
  | none => rfl
  | some fmt =>
    rw [hfmt] at h
    dsimp only
    rw [show smodeOf fmt = none from h]

section
variable {fmt : Fmt} {mode : Nat} (hfmt : fmtOf (leField f.payload 2 1) = some fmt) (hmode : smodeOf fmt = some mode)
include hfmt hmode

theorem State.compressCheck_malformed (h : ¬s.BlockFormed f fmt mode) : s.compressCheck tenant f = (some .unsupported, s) := by
  unfold State.compressCheck compressPrefix
  dsimp only
  rw [if_neg (by simp [hfull]), hfmt]
  dsimp only
  rw [hmode]
  exact if_pos (by simpa only [State.blockFormed_iff, Bool.not_eq_false] using h)

theorem State.compressCheck_formed (h : s.BlockFormed f fmt mode) : s.compressCheck tenant f =
    if devOf f.addr.toNat != s.device then (some .notPresent, s.bump Reg.rootForeignAddr)
    else if s.accessHeld (offOf f.addr.toNat) then (some .held, s)
    else match s.grantCheck tenant (offOf f.addr.toNat)
        (frameSize mode ((Tbl.get? s.pal.slots (leField f.payload 0 2 % 4096)).any (·.always))) { write := true } with
      | some st => (some st, s)
      | none => (if s.serves (codecPage (homeDie (offOf f.addr.toNat))) then none else some .busy, s) := by
  unfold State.compressCheck compressPrefix
  dsimp only
  rw [if_neg (by simp [hfull]), hfmt]
  dsimp only
  rw [hmode]
  exact if_neg (by simpa only [State.blockFormed_iff, Bool.not_eq_true] using h)

end
end
end

/-! ### The coded block (R268, R276) -/

/-- The newest generation of a slot, and whether its blocks are always coded: what a block is coded under. -/
def State.palCode (s : State) (n : Nat) : Option Gen × Bool :=
  let x := (s.palSlot? n).getD { }
  (x.newer, x.always)

theorem State.palCode_eq (s : State) (n : Nat) :
    s.palCode n = ((Tbl.get? s.pal.slots n).bind (·.newer), (Tbl.get? s.pal.slots n).any (·.always)) := by
  unfold State.palCode State.palSlot?
  cases Tbl.get? s.pal.slots n <;> rfl

theorem State.histTake_slots (s : State) (g : Nat) : (s.histTake g).pal.slots = s.pal.slots := by
  rw [State.histTake, State.onPal_pal]
  split <;> rfl

theorem State.histAsk_slots (s : State) (g : Nat) (u : HistUser) : (s.histAsk g u).pal.slots = s.pal.slots := by
  unfold State.histAsk
  dsimp only
  split
  · exact State.histTake_slots _ g
  · rfl

theorem State.palCode_onPalSlot (s : State) (n : Nat) (b : Slot → Option Build) :
    (s.onPalSlot n fun x => { x with build := b x }).palCode n = s.palCode n := by
  simp only [State.palCode_eq, State.onPalSlot, State.onPal_pal, Tbl.get?_update, if_true]
  cases Tbl.get? s.pal.slots n <;> rfl

theorem State.palCode_congr {t : State} (h : t.pal.slots = s.pal.slots) (n : Nat) : t.palCode n = s.palCode n := by
  rw [State.palCode_eq, State.palCode_eq, h]

theorem State.palCode_buildAsk (s : State) (n : Nat) : (s.buildAsk n).palCode n = s.palCode n := by
  have hask : ((s.onPalSlot n fun x => { x with build := some { st := .waiting } }).histAsk (n % 2) (.slot n)).palCode n = s.palCode n :=
    (State.palCode_congr (State.histAsk_slots _ _ _) n).trans (s.palCode_onPalSlot n _)
  unfold State.buildAsk
  dsimp only
  split
  · exact (State.palCode_onPalSlot _ n _).trans hask
  · exact hask

theorem State.palCode_palConfigure (s : State) (n mode : Nat) : (s.palConfigure n mode).palCode n = s.palCode n := by
  unfold State.palConfigure
  split
  · rfl
  · next h =>
    rw [State.palCode_eq, State.palCode_eq, State.onPal_pal, Tbl.get?_put, if_pos rfl, show Tbl.get? s.pal.slots n = none from h]
    rfl

theorem State.codeBlock_block (s : State) (d n : Nat) (fmt : Fmt) (fc : Nat) (values : List Byte) :
    (s.codeBlock d n fmt fc values).1 = encodeBlock fmt fc ((s.palCode n).1.map fun g => (g.num, g.lens)) n (s.palCode n).2 values ∧
    (s.codeBlock d n fmt fc values).2.1 = (s.palCode n).1.map fun g => { slot := n, gen := g.num } := by
  have hcode (b : Bool) : (s.when b fun s => s.buildAsk n).palCode n = s.palCode n := by
    cases b
    · rfl
    · exact s.palCode_buildAsk n
  rw [← hcode (((s.palSlot? n).getD { }).auto && ((s.palSlot? n).getD { }).newer.isNone && ((s.palSlot? n).getD { }).build.isNone)]
  exact ⟨rfl, rfl⟩

theorem State.compressFrame_block {fmt : Fmt} (hfmt : fmtOf (leField f.payload 2 1) = some fmt) :
    let n := leField f.payload 0 2 % 4096
    let x := Tbl.get? s.pal.slots n
    let newest := (x.bind (·.newer)).map fun g => (g.num, g.lens)
    let block := (encodeBlock fmt (leField f.payload 2 1) newest n (x.any (·.always)) (f.payload.drop 8)).frame
    (s.compressFrame f).1 = { f with len := BitVec.ofNat 16 block.length, payload := block } ∧
      (s.compressFrame f).2.1 = newest.map fun g => { slot := n, gen := g.1 } := by
  intro n x newest block
  let u := s.palConfigure n ((smodeOf fmt).getD 0)
  have hcode : u.palCode n = (x.bind (·.newer), x.any (·.always)) := (s.palCode_palConfigure n _).trans (s.palCode_eq n)
  obtain ⟨hblock, href⟩ := u.codeBlock_block (homeDie (offOf f.addr.toNat)) n fmt (leField f.payload 2 1) (f.payload.drop 8)
  rw [hcode] at hblock href
  have hframe : s.compressFrame f =
      let r := u.codeBlock (homeDie (offOf f.addr.toNat)) n fmt (leField f.payload 2 1) (f.payload.drop 8)
      ({ f with len := BitVec.ofNat 16 r.1.frame.length, payload := r.1.frame }, r.2.1, r.2.2) := by
    unfold State.compressFrame compressPrefix
    dsimp only
    rw [hfmt]
    rfl
  rw [hframe]
  dsimp only
  rw [hblock, href]
  exact ⟨rfl, by simp only [newest, Option.map_map, Function.comp_def]⟩

theorem State.accessCheck_compress {tenant : Nat} (hz : isCompressWrite f = true) :
    s.accessCheck tenant f = s.compressCheck tenant f := by
  rw [State.accessCheck, if_pos hz]

theorem isCoh_of_compressWrite (hz : isCompressWrite f = true) : isCoh f.ty.toNat = false := by
  rw [isCompressWrite, Bool.and_eq_true, decide_eq_true_eq] at hz
  rw [hz.1]
  decide

/-- Settles O39: the row is its frame in turn, its checks are those of `compressCheck` one by one, and the operation that enters
carries what `compressFrame` makes of the block. -/
theorem compressWrites : Obligations.CompressWrites := by
  intro s c k k' rx hc r hreq hk u f off n fc x after
  have hacc : AccessRow (.compressWrite rx) r true := .of_write true fun _ => rfl
  have hexec : exec (.compressWrite rx) s = after (u.takeAccess c f) := hacc.exec_eq hreq hc
  have hz : isCompressWrite f = true := hacc.compresses
  have hcheck : u.accessCheck k'.tenant f = u.compressCheck k'.tenant f := State.accessCheck_compress hz
  rw [hexec]
  refine ⟨fun hs => ?_, fun hs hu => ?_, fun hs fmt mode hfmt hmode => ?_⟩
  · rw [State.takeAccess_fails hk (hcheck.trans (State.compressCheck_held hs))]
  · rw [State.takeAccess_fails hk (hcheck.trans (State.compressCheck_uncoded hs hu))]
  intro formed grant
  refine ⟨fun hform => ?_, fun hform => ?_⟩
  · rw [State.takeAccess_fails hk (hcheck.trans (State.compressCheck_malformed hs hfmt hmode hform))]
  have hformed := hcheck.trans (State.compressCheck_formed (tenant := k'.tenant) hs hfmt hmode hform)
  refine ⟨fun hd => ?_, fun hd ha => ?_, fun hd ha => ?_⟩
  · rw [State.takeAccess_fails hk (hformed.trans (if_pos (bne_iff_ne.mpr hd)))]
  · rw [State.takeAccess_fails hk (hformed.trans ((if_neg (by simp [hd])).trans (if_pos ha)))]
  have hgrant := hformed.trans ((if_neg (by simp [hd])).trans (if_neg (Bool.not_eq_true _ ▸ ha)))
  have hpass (hg : grant = none) (hv : u.serves (codecPage (homeDie off)) = true) : u.accessCheck k'.tenant f = (none, u) := by
    rw [hgrant, show u.grantCheck _ _ _ _ = none from hg]
    exact congrArg (·, u) (if_pos hv)
  refine ⟨fun st hg => ?_, fun hg hv => ?_, fun hg hv hm => ?_, fun hg hv hm => ⟨fun hp => ?_, fun hp hp' => ?_⟩⟩
  · rw [State.takeAccess_fails hk (hgrant.trans (by rw [show u.grantCheck _ _ _ _ = some st from hg]))]
  · rw [State.takeAccess_fails hk (hgrant.trans (by rw [show u.grantCheck _ _ _ _ = none from hg, if_neg (by simpa using hv)]))]
  · rw [State.takeAccess_mirrored hk (hpass hg hv) hm (isCoh_of_compressWrite hz)]
  · rw [State.takeAccess_compress_refused hk (hpass hg hv) (.inl hm) hz hp]
  · intro newest block i
    obtain ⟨hframe, href⟩ : (u.compressFrame f).1 = { f with len := BitVec.ofNat 16 block.length, payload := block } ∧
        (u.compressFrame f).2.1 = newest.map fun g => { slot := n, gen := g.1 } := State.compressFrame_block hfmt
    refine ⟨(u.compressFrame f).2.2.entered .agent c k'.tenant (u.compressFrame f).1 false, ?_, ?_⟩
    · rw [State.takeAccess_compress_enters hk (hpass hg hv) (.inl hm) hz hp hp', href]
    · rw [State.op?_entered, if_pos rfl, hframe]
      simp [State.opOf, off, has]

end Sys2Proof.Machine
end

section
/-! PROOFS. Steps of the queue, CFG_DISCARD and records: a step is exec of the front command, DISCARD puts back the running
shadows alone, and EVENT_RECORD writes or loses the record of the lowest waiting source. -/

namespace Sys2Proof

/-! ### Sparse tables -/

theorem Tbl.getD_mapVals {α β : Type} (f : α → β) (t : Tbl α) (i : Nat) (d : α) :
    Tbl.getD (List.map (fun e => (e.1, f e.2)) t) i (f d) = f (Tbl.getD t i d) := by
  rw [Tbl.getD, Tbl.get?_mapVals fun _ => f, Tbl.getD, Option.getD_map]

/-- Values put under keys that differ: what a key of the list holds afterwards. -/
theorem Tbl.get?_foldl_put {α : Type} {key : Nat → Nat} (hkey : key.Injective) (skip : Nat → Prop) [DecidablePred skip]
    (val : Nat → α) (l : List Nat) (t : Tbl α) (i : Nat) :
    Tbl.get? (l.foldl (fun t j => if skip j then t else t.put (key j) (val j)) t) (key i) =
      if i ∈ l ∧ ¬skip i then some (val i) else Tbl.get? t (key i) := by
  induction l generalizing t with
  | nil => simp
  | cons j l ih =>
    rw [List.foldl_cons, ih]
    by_cases hj : j = i
    · subst hj
      by_cases hs : skip j <;> simp [hs, Tbl.get?_put]
    · by_cases hs : skip j <;> simp [hs, Tbl.get?_put, hkey.eq_iff, hj, Ne.symm hj]

/-- Values put under other keys leave what a key holds. -/
theorem Tbl.get?_foldl_put_ne {α : Type} {key : Nat → Nat} (skip : Nat → Prop) [DecidablePred skip] (val : Nat → α)
    (l : List Nat) (t : Tbl α) {a : Nat} (ha : ∀ j ∈ l, a ≠ key j) :
    Tbl.get? (l.foldl (fun t j => if skip j then t else t.put (key j) (val j)) t) a = Tbl.get? t a := by
  induction l generalizing t with
  | nil => rfl
  | cons j l ih =>
    rw [List.foldl_cons, ih _ fun i hi => ha i (List.mem_cons_of_mem j hi)]
    split
    · rfl
    · rw [Tbl.get?_put, if_neg (ha j List.mem_cons_self).symm]

namespace Machine

variable {s : State}

/-- Settles O1: both cases are the match of step on the queue. -/
theorem stepTakesTheFront : Obligations.StepTakesTheFront := ⟨fun _ _ _ => rfl, fun _ => rfl⟩

/-! ### CFG_DISCARD (R63) -/

/-- The shadow of a carve SIZE returns to the RUN of its part. -/
theorem cfgDiscardOp_carve (s : State) {i : Nat} (hi : i < 6) :
    (cfgDiscardOp s).shadowReg (Reg.rootCarveDir + 4 * i) % 64 = s.boot.carve.getD i 0 % 64 := by
  have hkey : (fun i => Reg.rootCarveDir + 4 * i).Injective := fun i j h => by dsimp only at h; omega
  have hget : Tbl.get? s.runningShadows (Reg.rootCarveDir + 4 * i) = _ :=
    Tbl.get?_foldl_put hkey (fun i => s.reg (Reg.rootCarveDir + 4 * i) % 64 = s.boot.carve.getD i 0)
      (fun i => BitVec.ofNat 64 (s.boot.carve.getD i 0)) (List.range 6) [] i
  change (match Tbl.get? s.runningShadows (Reg.rootCarveDir + 4 * i) with
    | some v => v.toNat
    | none => s.reg (Reg.rootCarveDir + 4 * i)) % 64 = _
  rw [hget]
  by_cases hrun : s.reg (Reg.rootCarveDir + 4 * i) % 64 = s.boot.carve.getD i 0
  · rw [if_neg (by simp [hrun]), ← hrun, Nat.mod_mod]; rfl
  · rw [if_pos ⟨List.mem_range.mpr hi, hrun⟩]
    exact Nat.mod_mod_of_dvd _ (by decide)

/-- Every other shadow returns to its running value. -/
theorem cfgDiscardOp_shadow (s : State) {a : Nat} (ha : ∀ i, i < 6 → a ≠ Reg.rootCarveDir + 4 * i) :
    (cfgDiscardOp s).shadowReg a = s.reg a := by
  have hget : Tbl.get? s.runningShadows a = none :=
    Tbl.get?_foldl_put_ne (key := fun i => Reg.rootCarveDir + 4 * i)
      (fun i => s.reg (Reg.rootCarveDir + 4 * i) % 64 = s.boot.carve.getD i 0)
      (fun i => BitVec.ofNat 64 (s.boot.carve.getD i 0)) (List.range 6) [] fun i hi => ha i (List.mem_range.mp hi)
  change (match Tbl.get? s.runningShadows a with
    | some v => v.toNat
    | none => s.reg a) = _
  rw [hget]

theorem cfgDiscardOp_flags (s : State) (page : Nat) :
    (cfgDiscardOp s).flagsOf page = { s.flagsOf page with staged := false } :=
  Tbl.getD_mapVals (α := CfgFlags) (β := CfgFlags) (fun g => { g with staged := false }) s.ctl.flags page { }

/-- Settles O21: DISCARD changes shadows, marks and flags only, and each is read back. -/
theorem discardReturnsShadows : Obligations.DiscardReturnsShadows := by
  intro s hs
  refine ⟨cfgDiscardOp s, act_clocked hs _, rfl, fun i hi => cfgDiscardOp_carve s hi, fun a ha => cfgDiscardOp_shadow s ha,
    fun _ => rfl, fun page => ?_, rfl⟩
  rw [cfgDiscardOp_flags]
  exact ⟨rfl, rfl, rfl, rfl⟩

/-! ### EVENT_RECORD (R44, R442, R443) -/

/-- Whether the event controller takes up records: the near tier is trained, and it is not asked to stop (R44, R442). -/
def State.TakesRecords (s : State) : Prop := (s.boot.step = .near ∨ s.boot.step = .bulk) ∧ s.stopping 6 = false

theorem State.takesRecords_iff (s : State) : s.TakesRecords ↔ ¬(!s.canRecord || s.stopping 6) = true := by
  simp [State.TakesRecords, State.canRecord, or_iff_not_imp_left]

theorem eventRecordOp_idle (h : ¬s.TakesRecords ∨ s.nextSource = none) : eventRecordOp s = s := by
  unfold eventRecordOp
  split
  · rfl
  · next hgo => rw [h.resolve_left (not_not.mpr (s.takesRecords_iff.mpr hgo))]

/-- The state once a record's source is outstanding. -/
def State.recordTaken (s : State) (src : Nat) : State :=
  s.onEv fun e => { e with out := setBit e.out src, args := e.args.del src }

/-- The state with the record of a source written at EV_TAIL (R442). -/
def State.recordStored (s : State) (src : Nat) : State :=
  let bytes := recordBytes src s.ev.seq (s.ev.args.getD src { }) s.ev.lostBefore
  let tail := s.reg Reg.ecEvTail
  (((s.recordTaken src).poke (s.reg Reg.ecEvRingBase + 32 * tail) bytes).setReg Reg.ecEvTail ((tail + 1) % s.ringPlaces)).onEv
    fun e => { e with seq := (e.seq + 1) % 2 ^ 32, lostBefore := false }

/-- The state with the record of a source lost to a full or disabled ring (R443). -/
def State.recordLost (s : State) (src : Nat) : State :=
  ((s.recordTaken src).bump Reg.ecEvOverflow).onEv fun e => { e with lostBefore := true, ringRaised := true }

section
variable {src : Nat} (hcan : s.TakesRecords) (hsrc : s.nextSource = some src)
include hcan hsrc

theorem eventRecordOp_takes : eventRecordOp s =
    if !bit (s.reg Reg.ecEvRingCtrl) 0 || (s.reg Reg.ecEvTail + 1) % s.ringPlaces = s.reg Reg.ecEvHead then s.recordLost src
    else if s.reg Reg.ecEvTail = s.reg Reg.ecEvHead then (s.recordStored src).beacon else s.recordStored src := by
  rw [eventRecordOp, if_neg (s.takesRecords_iff.mp hcan), hsrc]
  rfl

theorem eventRecordOp_stores (hon : (s.reg Reg.ecEvRingCtrl).testBit 0 = true)
    (hroom : (s.reg Reg.ecEvTail + 1) % s.ringPlaces ≠ s.reg Reg.ecEvHead) : eventRecordOp s =
      if s.reg Reg.ecEvTail = s.reg Reg.ecEvHead then (s.recordStored src).beacon else s.recordStored src := by
  rw [eventRecordOp_takes hcan hsrc, if_neg (by simp [bit, hon, hroom])]

theorem eventRecordOp_loses (h : (s.reg Reg.ecEvRingCtrl).testBit 0 = false ∨
    (s.reg Reg.ecEvTail + 1) % s.ringPlaces = s.reg Reg.ecEvHead) : eventRecordOp s = s.recordLost src := by
  rw [eventRecordOp_takes hcan hsrc, if_pos (by simpa [bit] using h)]

end

/-- Settles O24: no source is taken, or its record is stored or lost. -/
theorem recordsLowestSource : Obligations.RecordsLowestSource := by
  intro s hs
  have hrow : exec .eventRecord s = .next (settle (eventRecordOp s)) := act_clocked hs _
  refine ⟨fun h => ?_, fun src hcan hsrc => ⟨fun hon hroom => ?_, fun h => ?_⟩⟩
  · rw [hrow, eventRecordOp_idle h]
  · rw [hrow, eventRecordOp_stores hcan hsrc hon hroom]; rfl
  · rw [hrow, eventRecordOp_loses hcan hsrc h]; rfl

end Machine
end Sys2Proof
end

section
/-! PROOFS. Monitor slots: starting and stopping by MON_CTRL, samples, window ends, and the grant of a histogram unit. -/

namespace Sys2Proof.Machine

variable {s : State} {m : Nat}

/-! ### Slots and histogram units -/

theorem State.slot_onSlot (s : State) (m k : Nat) (f : MonSlot → MonSlot) :
    (s.onSlot m f).slot k = if m = k then f (s.slot m) else s.slot k :=
  getD_put' s.mon m k (f (s.slot m)) { }

/-- Asking for a histogram unit changes the queue and the holders alone. -/
theorem State.histAsk_pal (s : State) (g : Nat) (u : HistUser) : s.histAsk g u = { s with pal := (s.histAsk g u).pal } := by
  unfold State.histAsk
  dsimp only
  split <;> rfl

theorem State.histTurn_head {g : Nat} {u : HistUser} (h : (s.pal.histQueue.getD g []).head? = some u) :
    s.histTurn g u = decide ((s.pal.histHeld.getD g []).length < 16) := by
  rw [State.histTurn, h, decide_eq_true rfl, Bool.true_and]; rfl

theorem histUnitGrantOp_turn {g : Nat} (h : (s.pal.histQueue.getD g []).head? = some (.monitor m)) :
    histUnitGrantOp g s = if (s.pal.histHeld.getD g []).length < 16 then s.histTake g else s := by
  simp only [histUnitGrantOp, h, State.histTurn_head h, decide_eq_true_eq]

/-- The head of the queue becomes a holder. -/
theorem State.histTake_head {g : Nat} {u : HistUser} (h : (s.pal.histQueue.getD g []).head? = some u) :
    s.histTake g = { s with pal := { s.pal with
      histQueue := s.pal.histQueue.put g (s.pal.histQueue.getD g []).tail
      histHeld := s.pal.histHeld.put g (s.pal.histHeld.getD g [] ++ [u]) } } := by
  obtain ⟨q, hq⟩ := List.head?_eq_some_iff.mp h
  simp only [State.histTake, State.onPal, hq, List.tail_cons]

/-! ### MON_CTRL (R449, R452) -/

/-- The bits of MON_CTRL that a write of a value gives. -/
def monCtrlBits (v : BitVec 32) : Nat := v.toNat &&& 0x00FF3F0F

theorem monCtrlBits_lt (v : BitVec 32) : monCtrlBits v < 2 ^ 64 :=
  Nat.lt_of_le_of_lt Nat.and_le_left (Nat.lt_trans v.isLt (by decide))

/-- A slot as it starts: it runs, and its results are cleared. -/
def MonSlot.started (x : MonSlot) : MonSlot := { x with run := true, badProbe := false, latched := { } }

/-- The state in which a slot has started: its control value is stored, and it asks for a histogram unit with HIST_EN. -/
def State.monStarted (s : State) (m n : Nat) : State :=
  ((s.setReg (Reg.moMonCtrl (monPage m)) n).onSlot m MonSlot.started).when (n.testBit 1) fun s =>
    s.histAsk (m % 2) (.monitor m)

theorem State.monStarted_eq (s : State) (m n : Nat) : s.monStarted m n =
    { (s.setReg (Reg.moMonCtrl (monPage m)) n).onSlot m MonSlot.started with pal := (s.monStarted m n).pal } := by
  unfold State.monStarted
  cases n.testBit 1
  · rfl
  · exact State.histAsk_pal _ _ _

theorem State.monStarted_slots (s : State) (m n : Nat) : ((s.monStarted m n).slot m).run = true ∧
    ((s.monStarted m n).slot m).latched = { } ∧ ∀ k, k ≠ m → (s.monStarted m n).slot k = s.slot k := by
  have hslot (k : Nat) : (s.monStarted m n).slot k =
      if m = k then (s.slot m).started else s.slot k := by
    rw [State.monStarted_eq]
    exact State.slot_onSlot _ m k MonSlot.started
  have hself : (s.monStarted m n).slot m = (s.slot m).started := (hslot m).trans (if_pos rfl)
  exact ⟨by rw [hself]; rfl, by rw [hself]; rfl, fun k hk => (hslot k).trans (if_neg hk.symm)⟩

theorem State.monStarted_monW (s : State) (m n : Nat) : (s.monStarted m n).monW m = s.monW m := by
  have hne : Reg.moMonCtrl (monPage m) ≠ Reg.moMonWindow (monPage m) := by
    simp only [Reg.moMonCtrl, Reg.moMonWindow]; omega
  rw [State.monStarted_eq]
  exact (State.reg_setReg s _ _ n).trans (if_neg hne)

theorem State.monStarted_ctrl (s : State) (m : Nat) {n : Nat} (hn : n < 2 ^ 64) :
    (s.monStarted m n).reg (Reg.moMonCtrl (monPage m)) = n := by
  rw [State.monStarted_eq]
  exact (State.reg_setReg s _ _ n).trans ((if_pos rfl).trans (Nat.mod_eq_of_lt hn))

section
variable {v : BitVec 32} (hm : m < 64)
include hm

section
variable (hon : (monCtrlBits v).testBit 0 = true) (hoff : (s.reg (Reg.moMonCtrl (monPage m))).testBit 0 = false)
include hon hoff

/-- EN 1 on a stopped slot: the probe decides. -/
theorem monCtrlOp_enables : monCtrlOp m v s =
    let n := monCtrlBits v
    if s.probeOk (bits n 23 20) (s.reg (Reg.moMonPage (monPage m)) % 2 ^ 20) then
      (s.monStarted m n).onSlot m fun x => { x with
        now := (s.monStarted m n).newWin m true,
        nextClose := if (s.monStarted m n).monW m = 0 then 0
          else ((s.monStarted m n).now / (s.monStarted m n).monW m + 1) * (s.monStarted m n).monW m }
    else (s.setReg (Reg.moMonCtrl (monPage m)) (n - 1)).onSlot m fun x => { x with run := false, badProbe := true } := by
  unfold monCtrlBits at hon
  unfold monCtrlOp
  rw [if_neg (by omega)]
  simp only [bit, hon, hoff, Bool.false_and, Bool.false_eq_true, if_false, State.when_false, Bool.not_false, Bool.and_self, if_true]
  rfl

/-- A fresh PARTIAL window opens, which ends at the next boundary of its width. -/
theorem monCtrlOp_starts (hp : s.probeOk (bits (monCtrlBits v) 23 20) (s.reg (Reg.moMonPage (monPage m)) % 2 ^ 20) = true) :
    monCtrlOp m v s = (s.monStarted m (monCtrlBits v)).onSlot m fun x => { x with
      now := { partialW := true, noHist := (monCtrlBits v).testBit 1 && !(s.monStarted m (monCtrlBits v)).monHolds m }
      nextClose := if s.monW m = 0 then 0 else (s.now / s.monW m + 1) * s.monW m } := by
  have hnow : (s.monStarted m (monCtrlBits v)).now = s.now := by rw [State.monStarted_eq]; rfl
  have hctrl := s.monStarted_ctrl m (monCtrlBits_lt v)
  rw [monCtrlOp_enables hm hon hoff]
  simp only [hp, if_true, State.newWin, State.monStarted_monW, hnow, hctrl, bit]

theorem monCtrlOp_badProbe (hp : s.probeOk (bits (monCtrlBits v) 23 20) (s.reg (Reg.moMonPage (monPage m)) % 2 ^ 20) = false) :
    monCtrlOp m v s = (s.setReg (Reg.moMonCtrl (monPage m)) (monCtrlBits v - 1)).onSlot m fun x =>
      { x with run := false, badProbe := true } := by
  rw [monCtrlOp_enables hm hon hoff]
  simp only [hp, Bool.false_eq_true, if_false]

end

/-- EN 0 on a running slot, with KIND and SUB as they stand. -/
theorem monCtrlOp_stops (hoff : (monCtrlBits v).testBit 0 = false) (hon : (s.reg (Reg.moMonCtrl (monPage m))).testBit 0 = true)
    (hkind : monCtrlBits v / 65536 = s.reg (Reg.moMonCtrl (monPage m)) / 65536) :
    monCtrlOp m v s = ((s.setReg (Reg.moMonCtrl (monPage m)) (monCtrlBits v)).onSlot m fun x => { x with run := false }).histDrop
      (m % 2) (.monitor m) := by
  unfold monCtrlBits at hoff hkind
  unfold monCtrlOp
  rw [if_neg (by omega)]
  simp only [bit, hoff, hon, hkind, bne_self_eq_false, Bool.and_false, Bool.false_and, Bool.false_eq_true, if_false, State.when_false,
    Bool.not_true, Bool.not_false, Bool.and_self, if_true]
  rfl

end

/-! ### Samples and window ends (R449, R450, R453) -/

/-- What a sample that is taken adds to the window of its slot (R450, R451). -/
def State.monSampled (s : State) (m : Nat) (p : MonSample) (y : MonSlot) : MonSlot :=
  let v := p.value % 2 ^ 64
  let ctrl := s.reg (Reg.moMonCtrl (monPage m))
  let b := binOf (bits ctrl 13 8) v
  { y with now := { y.now with
      min := min y.now.min v, max := max y.now.max v, count := satAdd 64 y.now.count 1, sum := satAdd 64 y.now.sum v,
      sumSat := y.now.sumSat || decide (2 ^ 64 ≤ y.now.sum + v),
      noHist := y.now.noHist || (bit ctrl 1 && !s.monHolds m),
      bins := if bit ctrl 1 && s.monHolds m then y.now.bins.put b (satAdd 32 (y.now.bins.getD b 0) 1) else y.now.bins } }

theorem monSampleOp_takes {p : MonSample} (hrun : (s.slot m).run = true) (hgo : s.stopping (monPage m) = false)
    (hfit : s.sampleFits m p = true) : monSampleOp m p s = s.onSlot m (s.monSampled m p) := by
  rw [monSampleOp, if_pos (by simp [hrun, hgo, hfit])]
  rfl

theorem monSampleOp_idle {p : MonSample} (h : (s.slot m).run = false ∨ s.stopping (monPage m) = true ∨ s.sampleFits m p = false) :
    monSampleOp m p s = s := by
  rw [monSampleOp, if_neg]
  obtain h | h | h := h <;> simp [h]

/-- Whether the window of a slot has come to its end. -/
theorem State.monDue_iff : ((s.slot m).run && s.monW m != 0 && decide ((s.slot m).nextClose ≤ s.now)) = true ↔
    (s.slot m).run = true ∧ s.monW m ≠ 0 ∧ (s.slot m).nextClose ≤ s.now := by
  simp [and_assoc]

theorem monWindowCloseOp_idle (h : (s.slot m).run = false ∨ s.monW m = 0 ∨ s.now < (s.slot m).nextClose) :
    monWindowCloseOp m s = s := by
  rw [monWindowCloseOp, if_neg]
  rw [State.monDue_iff]
  rintro ⟨hrun, hw, hdue⟩
  obtain h | h | h := h
  · simp [h] at hrun
  · exact hw h
  · omega

/-- Settles O28: each row by its guard, a start and a sample through what they leave of the slots. -/
theorem monitorSlots : Obligations.MonitorSlots := by
  intro s m hs hm a x w alarmOf
  have hctrl (v : BitVec 32) : exec (.monCtrl m v) s = .next (settle (monCtrlOp m v s)) := act_clocked hs _
  have hsample (p : MonSample) : exec (.monSample m p) s = .next (settle (monSampleOp m p s)) := act_clocked hs _
  have hclose : exec (.monWindowClose m) s = .next (settle (monWindowCloseOp m s)) := act_clocked hs _
  refine ⟨fun v hon hoff => ⟨fun hp => ?_, fun hp => ?_⟩, fun v hoff hon hkind => ?_, fun p hrun hgo hfit => ?_, fun p h => ?_,
    fun hrun hw hdue => ?_, fun h => ?_, fun g hhead => ⟨fun hroom => ?_, fun hfull => ?_⟩⟩
  · intro u h
    have hh : h = s.monStarted m (monCtrlBits v) := rfl
    clear_value h
    subst hh
    obtain ⟨hrun, hres, hother⟩ := s.monStarted_slots m (monCtrlBits v)
    refine ⟨_, hctrl v, ?_⟩
    rw [monCtrlOp_starts hm hon hoff hp]
    refine ⟨rfl, ?_⟩
    simp only [State.slot_onSlot, if_true]
    exact ⟨hrun, hres, rfl, rfl, fun k hk => (if_neg hk.symm).trans (hother k hk)⟩
  · rw [hctrl, monCtrlOp_badProbe hm hon hoff hp]; rfl
  · rw [hctrl, monCtrlOp_stops hm hoff hon hkind]; rfl
  · have hslot := State.slot_onSlot s m
    refine ⟨_, hsample p, ?_⟩
    rw [monSampleOp_takes hrun hgo hfit]
    simp only [hslot, if_true]
    exact ⟨rfl, fun k hk => if_neg hk.symm, rfl, rfl, rfl, rfl, rfl, rfl⟩
  · rw [hsample, monSampleOp_idle h]
  · rw [hclose, monWindowCloseOp, if_pos (State.monDue_iff.mpr ⟨hrun, hw, hdue⟩)]
    rfl
  · rw [hclose, monWindowCloseOp_idle h]
  · change act s (histUnitGrantOp g) = _
    rw [act_clocked hs, histUnitGrantOp_turn hhead, if_pos hroom, State.histTake_head hhead]
  · change act s (histUnitGrantOp g) = _
    rw [act_clocked hs, histUnitGrantOp_turn hhead, if_neg (by omega)]

end Sys2Proof.Machine
end

section
/-! PROOFS. UNIT_CTRL: what a write comes to for a leaf, a group and a refusing unit, DRAIN_DONE and UNIT_RESET_DONE. -/

namespace Sys2Proof.Machine

variable {s : State} {page v : Nat}

/-! ### Stopping and storing (R44) -/

/-- A unit is asked to drain unless ENABLE is 1 and QUIESCE is 0. -/
theorem State.stopping_setReg (s : State) (page : Nat) (hv : v < 4) :
    (s.setReg (Reg.unitCtrl page) v).stopping page = decide (v ≠ 1) := by
  have hreg : (s.setReg (Reg.unitCtrl page) v).reg (Reg.unitCtrl page) = v := by
    rw [State.reg_setReg, if_pos rfl, Nat.mod_eq_of_lt (by omega)]
  rw [State.stopping, State.enabled, State.quiesced, hreg]
  exact (by decide : ∀ v < 4, (!bit v 0 || bit v 1) = decide (v ≠ 1)) v hv

theorem drainDoneOp_stopping (hp : s.present page = true) (hst : s.stopping page = true) : drainDoneOp page s =
    if s.leafBusy page = false ∧ s.ctl.drained.contains page = false then
      { s with ctl := { s.ctl with drained := s.ctl.drained ++ [page] } }
    else s := by
  simp only [drainDoneOp, hp, hst, Bool.and_self, Bool.true_and, Bool.and_eq_true, Bool.not_eq_true']
  rfl

theorem drainDoneOp_running (hst : s.stopping page = false) : drainDoneOp page s = s := by
  simp [drainDoneOp, hst]

/-- ENABLE 1 with QUIESCE 0 returns a leaf to service. -/
theorem State.storeCtrl_enables (hv : v % 4 = 1) : s.storeCtrl page v =
    (s.setReg (Reg.unitCtrl page) 1).onCtl fun c => { c with drained := s.ctl.drained.filter (· != page) } := by
  have hst : (s.setReg (Reg.unitCtrl page) 1).stopping page = false := s.stopping_setReg page (v := 1) (by decide)
  rw [State.storeCtrl, hv]
  simp only [hst, Bool.false_eq_true, if_false]
  split
  · rfl
  · exact drainDoneOp_running hst

/-- Any other value asks a leaf to drain. -/
theorem State.storeCtrl_stops (hg : isGroup page = false) (hv : v % 4 ≠ 1) :
    s.storeCtrl page v = drainDoneOp page (s.setReg (Reg.unitCtrl page) (v % 4)) := by
  have hst := s.stopping_setReg page (v := v % 4) (Nat.mod_lt v (by decide))
  rw [State.storeCtrl]
  simp only [hst, hv, hg, ne_eq, not_false_eq_true, decide_true, if_true, Bool.false_eq_true, if_false]

theorem State.storeCtrl_group (hg : isGroup page = true) (hv : v % 4 ≠ 1) :
    s.storeCtrl page v = s.setReg (Reg.unitCtrl page) (v % 4) := by
  have hst := s.stopping_setReg page (v := v % 4) (Nat.mod_lt v (by decide))
  rw [State.storeCtrl]
  simp only [hst, hv, hg, ne_eq, not_false_eq_true, decide_true, if_true]

theorem State.storeCtrl_drill (s : State) (page v : Nat) : (s.storeCtrl page v).drill = s.drill := by
  unfold State.storeCtrl drainDoneOp
  dsimp only
  split_ifs <;> rfl

/-! ### A write at one unit (R45, R53, R54, R433) -/

theorem State.ctrlOne_stores (h0 : page ≠ 0) (h9 : page ≠ 9) (hr : s.ctrlRefused page v = false) (hf : s.failed page = false) :
    (s.ctrlOne page v).2 = (s.storeCtrl page v).when (bit v 2) fun s => s.oneReset page := by
  simp only [State.ctrlOne, hr, hf, h0, h9, State.when_false, decide_false, Bool.or_self, Bool.false_eq_true, if_false]

theorem State.ctrlOne_failed (hr : s.ctrlRefused page v = false) (hf : s.failed page = true) :
    (s.ctrlOne page v).2 = s.when (bit v 2) fun s => s.oneReset page := by
  simp only [State.ctrlOne, hr, hf, State.when_false, Bool.or_true, Bool.true_or, if_true]

theorem State.ctrlOne_refused (hr : s.ctrlRefused page v = true) (hv : bit v 2 = false) : (s.ctrlOne page v).2 = s.refuse := by
  simp only [State.ctrlOne, hr, hv, State.when_true, State.when_false, Bool.true_or, if_true]

/-- The unit reset of a leaf that no drill holds begins. -/
theorem State.oneReset_leaf (hg : isGroup page = false) (hl : (unitOf page).any (fun u => u.ty = .lockGroup) = false) (h9 : page ≠ 9)
    (hA : page ≠ 0xA) (hd : s.drill.page ≠ page) : s.oneReset page = State.resetWork { s with ctl := { s.ctl with
      resetting := if s.ctl.resetting.contains page then s.ctl.resetting else s.ctl.resetting ++ [page]
      regs := if isSlice page then s.ctl.regs else s.ctl.regs.filter fun r => !counterReg page r.1 } } page := by
  rw [State.oneReset, hg, hl, Bool.or_self, if_neg Bool.false_ne_true, if_neg h9, State.leafReset]
  simp only [hd, hA, decide_false, Bool.or_self, Bool.false_eq_true, if_false]
  cases isSlice page <;> rfl

/-! ### A write at a page and below it (R53) -/

/-- A write of UNIT_CTRL passed on to every page that the written one reaches: whether one skipped or refused it, and the state. -/
def State.ctrlFanned (s : State) (page v : Nat) : Bool × State :=
  (s.fanout page).foldl (fun a p => (a.1 || (a.2.ctrlOne p v).1, (a.2.ctrlOne p v).2)) (false, s)

theorem State.unitCtrlRow_eq (hp : s.present page = true) (h0 : page ≠ 0) : s.unitCtrlRow page v =
    let go := (s.ctrlOne page v).2.ctrlFanned page v
    (go.2.when (bit v 2) fun s =>
      ((page :: s.fanout page).filter fun p => !(s.fanout p).isEmpty).foldl (fun s p => s.noteGroupReset p) s).when go.1
        fun s => s.setReg (Reg.unitErr page) (s.reg (Reg.unitErr page) ||| 2) := by
  rw [State.unitCtrlRow, State.writeUnitCtrl, if_neg (by simp [hp]), if_neg h0]
  rfl

section
variable (hl : (unitOf page).any (fun u => u.ty = .lockGroup) = false) (hk : fixedChildren page = [])
include hl hk

theorem State.presentChildren_leaf (s : State) : s.presentChildren page = [] := by
  have hc : s.children page = [] := by
    unfold State.children
    split
    · next u hu =>
      rw [hu, Option.any_some, decide_eq_false_iff_not] at hl
      rw [if_neg hl, hk]
    · rfl
  rw [State.presentChildren, hc, List.filter_nil]

theorem State.fanout_leaf (s : State) : s.fanout page = [] := by
  simp [State.fanout, s.presentChildren_leaf hl hk]

/-- A write at a unit without children reaches that unit alone. -/
theorem State.unitCtrlRow_leaf (hp : s.present page = true) (h0 : page ≠ 0) : s.unitCtrlRow page v = (s.ctrlOne page v).2 := by
  rw [State.unitCtrlRow_eq hp h0]
  simp only [State.ctrlFanned, State.fanout_leaf hl hk, List.foldl_nil, State.when_false, List.isEmpty_nil, Bool.not_true,
    List.filter_cons, Bool.false_eq_true, if_false, List.filter_nil]
  cases bit v 2 <;> rfl

end

theorem State.unitCtrlRow_group (hp : s.present page = true) (h0 : page ≠ 0) (hv : bit v 2 = false) :
    s.unitCtrlRow page v = let go := (s.ctrlOne page v).2.ctrlFanned page v
      if go.1 = true then go.2.setReg (Reg.unitErr page) (go.2.reg (Reg.unitErr page) ||| 2) else go.2 := by
  rw [State.unitCtrlRow_eq hp h0, hv]
  rfl

/-- The management unit refuses a stop (R54). -/
theorem State.unitCtrlRow_management (hp : s.present 9 = true) (hv : bit v 2 = false) (hst : (!bit v 0 || bit v 1) = true) :
    s.unitCtrlRow 9 v = s.refuse := by
  rw [State.unitCtrlRow_leaf (by decide) (by decide) hp (by decide)]
  exact State.ctrlOne_refused hst hv

/-- The root refuses a stop (R54). -/
theorem State.unitCtrlRow_root_refused (hp : s.present 0 = true) (hv : bit v 2 = false) (hst : (!bit v 0 || bit v 1) = true) :
    s.unitCtrlRow 0 v = s.refuse := by
  have hone : (s.ctrlOne 0 v).2 = s.refuse := State.ctrlOne_refused hst hv
  rw [State.unitCtrlRow, State.writeUnitCtrl, if_neg (by simp [hp]), if_pos rfl, hv, hone]

/-! ### UNIT_RESET_DONE (R433) -/

theorem unitResetDoneOp_idle (h : s.ctl.resetting.contains page = false) : unitResetDoneOp page s = s := by
  rw [unitResetDoneOp, h]; rfl

/-- The state in which a unit's reset is over and it no longer reads FAILED. -/
def State.resetOver (s : State) (page : Nat) : State :=
  s.onCtl fun c => { c with
    resetting := c.resetting.filter (· != page), failed := c.failed.filter (· != page),
    groupResets := c.groupResets.map fun (g, l) => (g, l.filter (· != page)) }

/-- A unit that is neither a slice, a channel nor the management unit works again, unless it is asked to stop. -/
theorem unitResetDoneOp_plain (h : s.ctl.resetting.contains page = true) (hc : isChannel page = false)
    (hs : (unitOf page).map UnitRef.ty ≠ some .directorySlice) (h9 : page ≠ 9) : unitResetDoneOp page s =
      if (s.resetOver page).stopping page = true then drainDoneOp page (s.resetOver page) else s.resetOver page := by
  have hslice : isSlice page = false := by
    unfold isSlice
    cases hu : unitOf page <;> simp_all
  have hbulk : (unitOf page).map UnitRef.ty ≠ some .bulkChannel := by
    unfold isChannel at hc
    cases hu : unitOf page <;> simp_all
  rw [unitResetDoneOp, h]
  simp only [hslice, hbulk, hc, h9, Bool.not_true, Bool.false_and, decide_false, Bool.false_eq_true, if_false]
  rfl

/-! ### The rows -/

theorem exec_quiesce (hs : s.clocked = true) (en : Bool) :
    exec (.quiesce page en) s = .next (settle (s.unitCtrlRow page (2 + b2n en)).progress) := by
  change execQuiesce page en s = _
  rw [execQuiesce, work_clocked hs]

theorem exec_enable (hs : s.clocked = true) (on : Bool) :
    exec (.enable page on) s = .next (settle (s.unitCtrlRow page (b2n on)).progress) := by
  change execEnable page on s = _
  rw [execEnable, work_clocked hs]

theorem exec_unitReset (hs : s.clocked = true) :
    exec (.unitReset page) s = .next (settle (s.unitCtrlRow page (4 + s.reg (Reg.unitCtrl page) % 4)).progress) := by
  change execUnitReset page s = _
  rw [execUnitReset, work_clocked hs]

/-- ENABLE 1 with QUIESCE 0 is refused nowhere. -/
theorem State.ctrlRefused_enable (s : State) (page : Nat) : s.ctrlRefused page (b2n true) = false := by
  have hst : (!bit (b2n true) 0 || bit (b2n true) 1) = false := by decide
  simp [State.ctrlRefused, hst]

theorem State.ctrlRefused_group (h0 : page ≠ 0) (h9 : page ≠ 9) (hg : isGroup page = true) (v : Nat) : s.ctrlRefused page v = false := by
  have hport : page ≠ 0x2000 ∧ page ≠ 0x2001 := by
    constructor <;> rintro rfl <;> exact absurd hg (by decide)
  simp [State.ctrlRefused, h0, h9, hport]

/-- The values that QUIESCE and ENABLE write. -/
theorem ctrlValues (b : Bool) : bit (2 + b2n b) 2 = false ∧ bit (b2n b) 2 = false ∧ (2 + b2n b) % 4 = 2 + b2n b ∧ b2n b % 4 = b2n b ∧
    2 + b2n b ≠ 1 := by
  cases b <;> decide

/-- The value that UNIT_RESET writes over ENABLE and QUIESCE as they stand. -/
theorem resetValues : ∀ v < 4, bit (4 + v) 2 = true ∧ (4 + v) % 4 = v := by decide

/-- Settles O19: each row by what a write comes to at a leaf, a group or a unit that refuses it. -/
theorem unitControl : Obligations.UnitControl := by
  intro s page hs hp h0 h9 put drains stored resets v leaf
  have hdrains (u : State) (hpu : u.present page = true) (hst : u.stopping page = true) : drainDoneOp page u = drains u :=
    drainDoneOp_stopping hpu hst
  obtain ⟨hv2, hv4⟩ : bit (4 + v) 2 = true ∧ (4 + v) % 4 = v := resetValues v (Nat.mod_lt _ (by decide))
  have hstored (hg : isGroup page = false) {w n : Nat} (hw : w % 4 = n) : s.storeCtrl page w = stored n := by
    subst hw
    by_cases h1 : w % 4 = 1
    · rw [State.storeCtrl_enables h1]
      exact (if_pos h1).symm
    · have hst := s.stopping_setReg page (v := w % 4) (Nat.mod_lt w (by decide))
      rw [State.storeCtrl_stops hg h1, hdrains (s.setReg (Reg.unitCtrl page) (w % 4)) hp (hst.trans (decide_eq_true h1))]
      exact (if_neg h1).symm
  refine ⟨fun ⟨hg, hl, hk⟩ hf => ⟨fun en hr => ?_, fun on hr => ?_, fun hA hd hr => ?_⟩,
    fun ⟨hg, hl, hk⟩ hf => ⟨fun en hr => ?_, ?_, fun hA hd hr => ?_⟩, fun hst => ?_, fun hst => ?_, fun hr hc hty => ?_, fun hr => ?_,
    fun hg hf en => ?_, fun en => ⟨fun hp9 => ?_, fun hp0 => ?_⟩, fun hp9 => ?_, fun hp0 => ?_⟩
  · obtain ⟨hbit, -, hmod, -, -⟩ := ctrlValues en
    rw [exec_quiesce hs, State.unitCtrlRow_leaf hl hk hp h0, State.ctrlOne_stores h0 h9 hr hf, hbit, State.when_false, hstored hg hmod]
  · obtain ⟨-, hbit, -, hmod, -⟩ := ctrlValues on
    rw [exec_enable hs, State.unitCtrlRow_leaf hl hk hp h0, State.ctrlOne_stores h0 h9 hr hf, hbit, State.when_false, hstored hg hmod]
  · have hd' : (s.storeCtrl page (4 + v)).drill.page ≠ page := by rw [State.storeCtrl_drill]; exact hd
    rw [exec_unitReset hs, State.unitCtrlRow_leaf hl hk hp h0, State.ctrlOne_stores h0 h9 hr hf, hv2, State.when_true,
      State.oneReset_leaf hg hl h9 hA hd', hstored hg hv4]
  · obtain ⟨hbit, -⟩ := ctrlValues en
    rw [exec_quiesce hs, State.unitCtrlRow_leaf hl hk hp h0, State.ctrlOne_failed hr hf, hbit, State.when_false]
  · rw [exec_enable hs, State.unitCtrlRow_leaf hl hk hp h0, State.ctrlOne_failed (s.ctrlRefused_enable page) hf, (ctrlValues true).2.1,
      State.when_false]
  · rw [exec_unitReset hs, State.unitCtrlRow_leaf hl hk hp h0, State.ctrlOne_failed hr hf, hv2, State.when_true,
      State.oneReset_leaf hg hl h9 hA hd]
  · change work s (drainDoneOp page) = _
    rw [work_clocked hs, hdrains s hp hst]
  · change work s (drainDoneOp page) = _
    rw [work_clocked hs, drainDoneOp_running hst]
  · change work s (unitResetDoneOp page) = _
    have hover : (if (s.resetOver page).stopping page = true then drainDoneOp page (s.resetOver page) else s.resetOver page) =
        if (s.resetOver page).stopping page = true then drains (s.resetOver page) else s.resetOver page :=
      ite_congr rfl (fun hst => hdrains (s.resetOver page) hp hst) fun _ => rfl
    rw [work_clocked hs, unitResetDoneOp_plain hr hc hty h9, hover]
    rfl
  · change work s (unitResetDoneOp page) = _
    rw [work_clocked hs, unitResetDoneOp_idle hr]
  · obtain ⟨hbit, -, hmod, -, hne⟩ := ctrlValues en
    rw [exec_quiesce hs, State.unitCtrlRow_group hp h0 hbit, State.ctrlOne_stores h0 h9 (State.ctrlRefused_group h0 h9 hg _) hf, hbit,
      State.when_false, State.storeCtrl_group hg (by rw [hmod]; exact hne), hmod]
    rfl
  · rw [exec_quiesce hs, State.unitCtrlRow_management hp9 (ctrlValues en).1 (by cases en <;> rfl)]
  · rw [exec_quiesce hs, State.unitCtrlRow_root_refused hp0 (ctrlValues en).1 (by cases en <;> rfl)]
  · rw [exec_enable hs, State.unitCtrlRow_management hp9 rfl rfl]
  · rw [exec_enable hs, State.unitCtrlRow_root_refused hp0 rfl rfl]

end Sys2Proof.Machine
end

section
/-! PROOFS. The commit: what sending, retraining and the end of work leave of the boot state and of the configuration's control
state, then what an accepted and what a rejected commit leave. -/

namespace Sys2Proof.Machine

variable {s t : State}

/-! ### What the operations within a commit keep -/

theorem foldl_keeps {α β : Type} (g : State → β) {f : State → α → State} (h : ∀ s a, g (f s a) = g s) (l : List α) (s : State) :
    g (l.foldl f s) = g s := by
  induction l generalizing s with
  | nil => rfl
  | cons a l ih => rw [List.foldl_cons, ih, h]

theorem when_keeps {β : Type} (g : State → β) {f : State → State} (h : ∀ s, g (f s) = g s) (s : State) (b : Bool) :
    g (s.when b f) = g s := by
  cases b
  · rfl
  · exact h s

/-- The boot state and the control state but for the running values of registers. -/
def State.cfgPart (s : State) : Boot × Control := (s.boot, { s.ctl with regs := [] })

theorem State.OnlySends.cfgPart (h : s.OnlySends t) : t.cfgPart = s.cfgPart := by
  unfold State.OnlySends at h
  rw [h]; rfl

theorem State.OnlyAnswers.cfgPart (h : s.OnlyAnswers t) : t.cfgPart = s.cfgPart := by
  unfold State.OnlyAnswers at h
  rw [h]; rfl

theorem OnlyDrillEnd.cfgPart (h : OnlyDrillEnd s t) : t.cfgPart = s.cfgPart := by
  unfold OnlyDrillEnd at h
  rw [h]; rfl

theorem State.stopJob_cfgPart (s : State) (i : Nat) (st : Status) : (s.stopJob i st).cfgPart = s.cfgPart := rfl

theorem State.endDown_cfgPart (s : State) (p : Nat) : (s.endDown p).cfgPart = s.cfgPart :=
  when_keeps State.cfgPart (f := fun u => u.bump64 _ _) (fun _ => rfl) s _

theorem State.sendPairHello_cfgPart (s : State) (n echo : Nat) : (s.sendPairHello n echo).cfgPart = s.cfgPart := by
  unfold State.sendPairHello
  split
  · rfl
  · exact (sendUnseq_only _ _ _ _).cfgPart

theorem State.twinReopen_cfgPart (s : State) : s.twinReopen.cfgPart = s.cfgPart := by
  have hfresh : s.twinFresh.cfgPart = s.cfgPart := by
    unfold State.twinFresh
    split <;> rfl
  unfold State.twinReopen
  dsimp only
  refine Eq.trans (foldl_keeps State.cfgPart ?_ _ _) ?_
  · exact fun s e => s.sendPairHello_cfgPart e.1 0
  refine Eq.trans (foldl_keeps State.cfgPart (fun s c => ?_) _ _) (Eq.trans (when_keeps State.cfgPart ?_ _ _) hfresh)
  · cases c.wait with
    | none => rfl
    | some w => exact (respond_only _ _ _ _ _).cfgPart
  · exact fun _ => rfl

theorem State.sendHome_cfgPart (s : State) (line : Nat) (t : Txn) (m : HomeMsg) : (s.sendHome line t m).cfgPart = s.cfgPart := by
  unfold State.sendHome
  split
  · rfl
  · refine (sendSeq_only _ _ _).cfgPart.trans ?_
    cases m.kind <;> rfl

theorem State.sendUnsent_cfgPart (s : State) : s.sendUnsent.cfgPart = s.cfgPart := by
  unfold State.sendUnsent
  dsimp only
  refine Eq.trans (foldl_keeps State.cfgPart ?_ _ _) (foldl_keeps State.cfgPart ?_ _ _)
  · intro s line
    split
    · rfl
    · next t _ => exact foldl_keeps State.cfgPart (fun s m => s.sendHome_cfgPart line t m) _ _
  · exact fun s e => s.sendHome_cfgPart e.1 (looseTxn e.1) e.2

/-! ### Flags (Table 2-5) -/

theorem State.foldl_onFlags (f : Nat → CfgFlags → CfgFlags) (l : List Nat) (s : State) :
    ∃ flags, l.foldl (fun s p => s.onFlags p (f p)) s = { s with ctl := { s.ctl with flags := flags } } := by
  induction l generalizing s with
  | nil => exact ⟨_, rfl⟩
  | cons p l ih =>
    obtain ⟨flags, h⟩ := ih (s.onFlags p (f p))
    exact ⟨flags, h⟩

theorem State.flagsOf_foldl_onFlags {f : Nat → CfgFlags → CfgFlags} (hf : ∀ p g, f p (f p g) = f p g) (l : List Nat) (s : State)
    (p : Nat) : (l.foldl (fun s p => s.onFlags p (f p)) s).flagsOf p = if p ∈ l then f p (s.flagsOf p) else s.flagsOf p := by
  induction l generalizing s with
  | nil => rfl
  | cons q l ih =>
    rw [List.foldl_cons, ih, State.flagsOf_onFlags]
    by_cases hq : q = p
    · subst hq
      by_cases hl : q ∈ l <;> simp [hl, hf]
    · simp [hq, Ne.symm hq]

/-! ### A rejected commit (R62, R421) -/

/-- The boot state at entry to Dark hold. -/
def Boot.darkened (b : Boot) : Boot :=
  { b with service := .darkHold, carveWait := false, waiting := [], retrain := [], retraining := none }

theorem State.enterDarkHold_cfgPart (h : s.boot.service ≠ .darkHold) :
    s.enterDarkHold.cfgPart = (s.boot.darkened, { s.ctl with regs := [] }) := by
  obtain ⟨hboot, hctl⟩ := Prod.ext_iff.mp (ode_drillEnds s .ok).cfgPart
  rw [State.enterDarkHold, if_neg h]
  dsimp only
  refine Eq.trans (foldl_keeps State.cfgPart (fun s p => ?_) _ _) ?_
  · split
    · rfl
    · exact s.endDown_cfgPart p
  refine Eq.trans (b := State.cfgPart (List.foldl (fun (s : State) (j : Nat × Job) => s.stopJob j.1 .held) _ _)) rfl ?_
  refine Eq.trans (foldl_keeps State.cfgPart (fun s (j : Nat × Job) => s.stopJob_cfgPart j.1 .held) _ _) ?_
  refine Eq.trans (foldl_keeps State.cfgPart (fun s w => (refuseWaiting_only s w .held).cfgPart) _ _) ?_
  exact Prod.ext (congrArg Boot.darkened hboot) hctl

/-- Dark hold leaves shadows, marks and flags as they are. -/
theorem State.enterDarkHold_keeps (s : State) : s.enterDarkHold.boot.service = .darkHold ∧ s.enterDarkHold.boot.order = s.boot.order ∧
    s.enterDarkHold.ctl.shadow = s.ctl.shadow ∧ s.enterDarkHold.ctl.written = s.ctl.written ∧ s.enterDarkHold.ctl.flags = s.ctl.flags := by
  by_cases h : s.boot.service = .darkHold
  · rw [State.enterDarkHold, if_pos h]
    exact ⟨h, rfl, rfl, rfl, rfl⟩
  · have hcfg := State.enterDarkHold_cfgPart h
    have hboot : s.enterDarkHold.boot = s.boot.darkened := congrArg Prod.fst hcfg
    rw [hboot]
    exact ⟨rfl, rfl, congrArg (fun c => c.2.shadow) hcfg, congrArg (fun c => c.2.written) hcfg, congrArg (fun c => c.2.flags) hcfg⟩

/-- The flags of a page that a rejection gives its reason (Table 2-5). -/
def rejectedFlags (l : List (Nat × Nat)) (page : Nat) (g : CfgFlags) : CfgFlags :=
  { g with rejected := reasonOf l page != 0, reason := BitVec.ofNat 8 (reasonOf l page) }

/-- The state of a rejected commit, before source 2 is raised. -/
def State.commitRejected (s : State) (l : List (Nat × Nat)) : State :=
  let u := s.enterDarkHold.stagedPages.foldl (fun s p => s.onFlags p (rejectedFlags l p)) s.enterDarkHold
  let first := (s.enterDarkHold.stagedPages.find? fun p => reasonOf l p != 0).getD 0
  (u.setReg Reg.rootCfgReason (first * 4096 + reasonOf l first)).setReg Reg.rootCfgStatus 3

theorem State.rejectCommit_eq (s : State) (l : List (Nat × Nat)) : s.rejectCommit l = (s.commitRejected l).raise 2 := rfl

section
variable (s : State) (l : List (Nat × Nat))

theorem State.commitRejected_status : (s.commitRejected l).reg Reg.rootCfgStatus = 3 := by
  rw [State.commitRejected, State.reg_setReg, if_pos rfl]; rfl

theorem State.stagedPages_darkHold : s.enterDarkHold.stagedPages = s.stagedPages := by
  obtain ⟨-, horder, -, -, -⟩ := s.enterDarkHold_keeps
  have hpresent : s.enterDarkHold.present = s.present := by
    funext p
    rw [State.present, horder, State.present]
  rw [State.stagedPages, hpresent, State.stagedPages]

/-- CFG_REASON names the lowest offending page and its reason (R62). -/
theorem State.commitRejected_reason : (s.commitRejected l).reg Reg.rootCfgReason =
    let first := (s.stagedPages.find? fun p => reasonOf l p != 0).getD 0
    (first * 4096 + reasonOf l first) % 2 ^ 64 := by
  rw [State.commitRejected, State.reg_setReg, if_neg (by decide), State.reg_setReg, if_pos rfl, State.stagedPages_darkHold]

/-- A rejection leaves shadows and marks as they are. -/
theorem State.commitRejected_keeps : (s.commitRejected l).boot.service = .darkHold ∧
    (s.commitRejected l).ctl.shadow = s.ctl.shadow ∧ (s.commitRejected l).ctl.written = s.ctl.written := by
  obtain ⟨hservice, -, hshadow, hwritten, -⟩ := s.enterDarkHold_keeps
  obtain ⟨flags, hflags⟩ := State.foldl_onFlags (rejectedFlags l) s.enterDarkHold.stagedPages s.enterDarkHold
  rw [State.commitRejected, hflags]
  exact ⟨hservice, hshadow, hwritten⟩

/-- The reason stands in the flags of every page that holds staged registers. -/
theorem State.commitRejected_flags (p : Nat) : (s.commitRejected l).flagsOf p =
    if p ∈ s.stagedPages then rejectedFlags l p (s.flagsOf p) else s.flagsOf p := by
  obtain ⟨-, -, -, -, hctl⟩ := s.enterDarkHold_keeps
  have hflags : s.enterDarkHold.flagsOf p = s.flagsOf p := by rw [State.flagsOf, hctl, State.flagsOf]
  rw [← hflags, ← State.stagedPages_darkHold]
  exact State.flagsOf_foldl_onFlags (f := rejectedFlags l) (fun p g => rfl) _ _ p

end

/-! ### An accepted commit (R62, R408, R426) -/

theorem State.retrain_cfgPart (s : State) (p : Nat) (exempt : Bool) : (s.retrain p exempt).cfgPart = s.cfgPart :=
  (ode_retrain s p exempt).cfgPart

theorem State.applyConfig_cfgPart (s : State) (old : Nat → Nat) : (s.applyConfig old).cfgPart = s.cfgPart := by
  unfold State.applyConfig
  refine Eq.trans (when_keeps State.cfgPart ?_ _ _) (Eq.trans (when_keeps State.cfgPart State.twinReopen_cfgPart _ _)
    (foldl_keeps State.cfgPart ?_ _ _))
  · exact fun _ => rfl
  · intro s n
    dsimp only
    split <;> rfl

theorem State.retrainCommitted_service (s : State) (written : List Nat) :
    (s.retrainCommitted written).boot.service = s.boot.service := by
  refine foldl_keeps (fun s => s.boot.service) (fun s p => ?_) _ _
  split
  · split
    · rfl
    · exact congrArg (fun c => c.1.service) (s.retrain_cfgPart p false)
  · rfl

theorem State.enterFull_service (s : State) : s.enterFull.boot.service = .full := by
  have hcfg : s.enterFull.cfgPart = (State.cfgPart (s.onBoot fun b =>
      { b with service := .full, carveWait := !b.entered, retraining := none, retrain := [2, 3, 4, 5, 0, 1] })) := by
    unfold State.enterFull
    refine Eq.trans (State.sendUnsent_cfgPart _) (Eq.trans (when_keeps State.cfgPart State.twinReopen_cfgPart _ _)
      (Eq.trans (foldl_keeps State.cfgPart ?_ _ _) (Eq.trans (foldl_keeps State.cfgPart ?_ _ _) rfl)))
    · exact fun s p => when_keeps State.cfgPart (fun s => s.retrain_cfgPart p true) _ _
    · exact fun _ _ => rfl
  exact congrArg (fun c => c.1.service) hcfg

/-- The staged set as the running values, each page of it COMMITTED (R62). -/
def State.commitRunning (s : State) (set : List Nat) (v : Candidate) : State :=
  let u := set.foldl (fun s p => (stagedWords p).foldl (fun s w => s.setReg (p * 4096 + w.1) (v (p * 4096 + w.1) &&& w.2)) s) s
  set.foldl (fun s p => s.onFlags p fun g => { g with committed := true }) (u.onCtl fun c =>
    { c with flags := c.flags.map fun (p, g) => (p, { g with rejected := false, reason := 0 }) })

theorem State.commitRunning_boot (s : State) (set : List Nat) (v : Candidate) : (s.commitRunning set v).boot = s.boot := by
  refine Eq.trans (foldl_keeps State.boot ?_ _ _) (foldl_keeps State.boot (fun s p => foldl_keeps State.boot ?_ _ _) _ _)
  · exact fun _ _ => rfl
  · exact fun _ _ => rfl

/-- The running configuration in effect, in full service (R62, R71, R408). -/
def State.commitApplied (s : State) (set : List Nat) (v : Candidate) : State :=
  let u := (s.commitRunning set v).applyConfig s.reg
  if s.boot.service = .full then u.retrainCommitted s.ctl.written else u.enterFull

theorem State.commitApplied_service (s : State) (set : List Nat) (v : Candidate) :
    (s.commitApplied set v).boot.service = .full := by
  unfold State.commitApplied
  dsimp only
  split
  · next h =>
    have hboot : ((s.commitRunning set v).applyConfig s.reg).boot = (s.commitRunning set v).boot :=
      congrArg Prod.fst (State.applyConfig_cfgPart _ _)
    rw [State.retrainCommitted_service, hboot, State.commitRunning_boot, h]
  · exact State.enterFull_service _

theorem State.acceptCommit_eq (s : State) (set : List Nat) (v : Candidate) (seq : Nat) : s.acceptCommit set v seq =
    ((((s.commitApplied set v).setReg Reg.rootCfgSeq seq).setReg Reg.rootCfgStatus 2).setReg Reg.rootCfgReason 0).raise 2 := by
  simp only [State.acceptCommit]
  rfl

/-- The state that an accepted commit leaves (R62, R426): the shadows and STAGED are gone, and the set is copied. -/
def State.commitAccepted (s : State) (seq : Nat) : State :=
  let u := (s.acceptCommit s.stagedSet s.shadowReg seq).onCtl fun c =>
    { c with shadow := [], written := [], flags := c.flags.map fun (p, g) => (p, { g with staged := false }) }
  u.onCtl fun c => { c with copies := { seq := seq, values := u.committedValues } :: c.copies.take 1 }

section
variable (s : State) {seq : Nat}

theorem State.commitAccepted_regs (hseq : seq < 2 ^ 32) : (s.commitAccepted seq).reg Reg.rootCfgSeq = seq ∧
    (s.commitAccepted seq).reg Reg.rootCfgStatus = 2 ∧ (s.commitAccepted seq).reg Reg.rootCfgReason = 0 := by
  have hreg (a : Nat) : (s.commitAccepted seq).reg a = ((((s.commitApplied s.stagedSet s.shadowReg).setReg Reg.rootCfgSeq seq).setReg
      Reg.rootCfgStatus 2).setReg Reg.rootCfgReason 0).reg a := by
    rw [State.commitAccepted, State.acceptCommit_eq]; rfl
  simp only [hreg, State.reg_setReg]
  exact ⟨Nat.mod_eq_of_lt (by omega), rfl, rfl⟩

theorem State.commitAccepted_service : (s.commitAccepted seq).boot.service = .full := by
  rw [State.commitAccepted, State.acceptCommit_eq]
  exact s.commitApplied_service s.stagedSet s.shadowReg

theorem State.commitAccepted_flags (p : Nat) : ((s.commitAccepted seq).flagsOf p).staged = false := by
  have h := Tbl.getD_mapVals (α := CfgFlags) (β := CfgFlags) (fun g => { g with staged := false })
    (s.acceptCommit s.stagedSet s.shadowReg seq).ctl.flags p { }
  exact congrArg CfgFlags.staged h

end

/-! ### The row (R61, R62) -/

section
variable {seq : Nat}

theorem cfgCommitOp_busy (h : s.boot.step ≠ .bulk ∨ s.boot.restarting = true) : (cfgCommitOp seq s).2 = s := by
  rw [cfgCommitOp, if_pos (by simpa using h)]

section
variable (hstep : s.boot.step = .bulk) (hgo : s.boot.restarting = false)
include hstep hgo

theorem cfgCommitOp_crc (hcrc : s.reg Reg.rootCfgCommitLo ≠ s.cfgCrc) : (cfgCommitOp seq s).2 = s.rejectCommit [(0, 1)] := by
  rw [cfgCommitOp, if_neg (by simp [hstep, hgo]), if_pos (by simpa using hcrc)]

theorem cfgCommitOp_old (hcrc : s.reg Reg.rootCfgCommitLo = s.cfgCrc) (hseq : ¬s.reg Reg.rootCfgSeq < seq) :
    (cfgCommitOp seq s).2 = s.rejectCommit [(0, 2)] := by
  rw [cfgCommitOp, if_neg (by simp [hstep, hgo]), if_neg (by simp [hcrc]), if_pos (by omega)]

theorem cfgCommitOp_checked (hcrc : s.reg Reg.rootCfgCommitLo = s.cfgCrc) (hseq : s.reg Reg.rootCfgSeq < seq) :
    (cfgCommitOp seq s).2 = if s.offences s.shadowReg true = [] then s.commitAccepted seq else s.rejectCommit (s.offences s.shadowReg true) := by
  rw [cfgCommitOp, if_neg (by simp [hstep, hgo]), if_neg (by simp [hcrc]), if_neg (by omega)]
  simp only [List.isEmpty_iff]
  split <;> rfl

end
end

/-- Settles O31: the checks in order, then what the one rejection and the one acceptance leave. -/
theorem commitOutcomes : Obligations.CommitOutcomes := by
  intro s seq hs
  have hrow : exec (.cfgCommit seq) s = .next (settle (cfgCommitOp seq.toNat s).2) := by
    change execCfgCommit seq s = _
    rw [execCfgCommit, act_clocked hs]
  refine ⟨fun h => ?_, fun hstep hgo => ?_⟩
  · rw [hrow, cfgCommitOp_busy h]
  intro crc later bad rejected
  have hrejected (l : List (Nat × Nat)) (h : (cfgCommitOp seq.toNat s).2 = s.rejectCommit l) : rejected l := by
    obtain ⟨hservice, hshadow, hwritten⟩ := s.commitRejected_keeps l
    refine ⟨s.commitRejected l, by rw [hrow, h, State.rejectCommit_eq], s.commitRejected_status l, s.commitRejected_reason l, hservice,
      hshadow, hwritten, fun p => ?_, fun p hp => ?_⟩
    · rw [State.commitRejected_flags]
      split <;> exact ⟨rfl, rfl⟩
    · rw [State.commitRejected_flags, if_pos hp]
      exact ⟨rfl, rfl⟩
  refine ⟨fun hcrc => hrejected _ (cfgCommitOp_crc hstep hgo hcrc), fun hcrc hseq => hrejected _ (cfgCommitOp_old hstep hgo hcrc hseq),
    fun hcrc hseq hbad => hrejected _ ?_, fun hcrc hseq hbad => ?_⟩
  · rw [cfgCommitOp_checked hstep hgo hcrc hseq, if_neg hbad]
  · obtain ⟨hreg, hstatus, hreason⟩ := s.commitAccepted_regs seq.isLt
    refine ⟨s.commitAccepted seq.toNat, ?_, hreg, hstatus, hreason, s.commitAccepted_service, rfl, rfl,
      s.commitAccepted_flags, ⟨_, rfl, rfl⟩⟩
    rw [hrow, cfgCommitOp_checked hstep hgo hcrc hseq, if_pos hbad]

end Sys2Proof.Machine
end

section
/-! PROOFS. The life of connections: what a declared death leaves of a quiet home, and the rows that end a connection or complete
a reclaim. -/

namespace Sys2Proof.Machine

variable {s : State} {c : Nat} {k : Conn}

/-! ### Death (R156, Table 5-7) -/

/-- Without an open transaction no line waits for the dead agent. -/
theorem State.beginReclaim_idle (h : ∀ e ∈ s.coh.dir, e.2.txn = none) (agent conn : Nat) (drill : Bool) :
    s.beginReclaim agent conn drill = s.onCoh fun x =>
      { x with reclaims := x.reclaims.put agent { conn := conn, drill := drill }, lastReclaim := agent,
               loose := x.loose.filter fun e => e.2.target != agent } := by
  have hopen : (s.coh.dir.filter fun e => e.2.txn.isSome) = [] :=
    List.filter_eq_nil_iff.mpr fun e he => by simp [h e he]
  simp only [State.beginReclaim, State.onCoh_coh, hopen, List.map_nil, List.foldl_nil]
  rfl

theorem State.declareDead_idle (hk : s.conn? c = some k) (h : ∀ e ∈ s.coh.dir, e.2.txn = none) (counter : Nat) (left drill : Bool) :
    s.declareDead c counter left drill =
      ((s.onConn c fun k => { k with st := .reclaiming, left := left }).bump counter).onCoh fun x =>
        { x with reclaims := x.reclaims.put k.agent { conn := c, drill := drill }, lastReclaim := k.agent,
                 loose := x.loose.filter fun e => e.2.target != k.agent } := by
  rw [State.declareDead, hk]
  exact State.beginReclaim_idle (s := (s.onConn c fun k => { k with st := .reclaiming, left := left }).bump counter) h k.agent c drill

/-! ### Ends of a connection (R90, Table 3-9) -/

/-- A connection that ends without an answer of its agent: an active one is declared dead, one in ACCEPTING is abandoned. -/
def State.endConn (s : State) (c : Nat) (k : Conn) (counter : Nat) : State :=
  if k.active then s.declareDead c counter false false else if k.st = .accepting then s.dropConn c else s

theorem State.endConn_active (h : k.active = true) (counter : Nat) :
    s.endConn c k counter = s.declareDead c counter false false := if_pos h

theorem State.endConn_accepting (h : k.st = .accepting) (counter : Nat) : s.endConn c k counter = s.dropConn c := by
  rw [State.endConn, if_neg (by simp [Conn.active, h]), if_pos h]

theorem State.endConn_reclaiming (h : k.st = .reclaiming) (counter : Nat) : s.endConn c k counter = s := by
  rw [State.endConn, if_neg (by simp [Conn.active, h]), if_neg (by simp [h])]

section
variable (hk : s.conn? c = some k)
include hk

theorem silenceOp_due (hc : c ≠ twinConn) (h : k.lastHeard + 10000000 ≤ s.ran) : silenceOp c s = s.endConn c k Reg.pgDeadSilence := by
  rw [silenceOp, hk]
  exact if_pos (by simp [State.since, h, hc])

theorem silenceOp_early (h : s.ran < k.lastHeard + 10000000) : silenceOp c s = s := by
  rw [silenceOp, hk]
  exact if_neg (by simp [State.since]; omega)

theorem leavingDrainedOp_drained (h : k.st = .leaving) (h0 : s.connAdmitted c = 0) :
    leavingDrainedOp c s = s.declareDead c Reg.pgLeft true false := by
  rw [leavingDrainedOp, hk]
  exact if_pos (by simp [h, h0])

theorem leavingDrainedOp_idle (h : k.st ≠ .leaving ∨ s.connAdmitted c ≠ 0) : leavingDrainedOp c s = s := by
  rw [leavingDrainedOp, hk]
  refine if_neg ?_
  obtain h | h := h <;> simp [h]

end

theorem agentKillOp_eq (v : BitVec 32) (s : State) : agentKillOp v s =
    (s.agentConns (bits v.toNat 31 20) (bits v.toNat 19 7)).foldl (fun s e => s.endConn e.1 e.2 Reg.pgDeadKilled) s := rfl

/-! ### RECLAIM_COMPLETE (R156) -/

/-- The state once every slice has scanned for a dead agent. -/
def State.reclaimScanned (s : State) (agent : Nat) : State :=
  (((s.reclaimScan agent).onCoh fun x => { x with reclaims := x.reclaims.del agent }).bump Reg.dsReclaims).raise 272

/-- A connection of the agent that waits in ACCEPTING is accepted (Table 3-9). -/
def State.acceptWaiting (s : State) (tenant agent : Nat) : State :=
  match (s.agentConns tenant agent).find? (·.2.st = .accepting) with
  | some (d, _) => (s.onConn d fun k => { k with st := .openC }).sendAccept d
  | none => s

section
variable (hk : s.conn? c = some k)
include hk

theorem reclaimCompleteOp_left (hst : k.st = .reclaiming) (hleft : k.left = true) {n : Nat} {id : BitVec 32} (hleave : k.leave = some (n, id)) :
    reclaimCompleteOp c s = (((s.reclaimScanned k.agent).sendUnseq c n { ty := 0x52, flags := BitVec.twoPow 12 fResp, opId := id }).dropConn
      c).acceptWaiting k.tenant k.agent := by
  rw [reclaimCompleteOp, hk]
  dsimp only
  rw [if_pos hst, hleft, hleave]
  rfl

theorem reclaimCompleteOp_silent (hst : k.st = .reclaiming) (hleft : k.left = false) :
    reclaimCompleteOp c s = ((s.reclaimScanned k.agent).dropConn c).acceptWaiting k.tenant k.agent := by
  rw [reclaimCompleteOp, hk]
  dsimp only
  rw [if_pos hst, hleft]
  rfl

theorem reclaimCompleteOp_idle (hst : k.st ≠ .reclaiming) : reclaimCompleteOp c s = s := by
  rw [reclaimCompleteOp, hk]
  exact if_neg hst

end

/-- Settles O35: each row by the state of the connection and its own guard. -/
theorem connectionLife : Obligations.ConnectionLife := by
  intro s c k hs hk
  have hsilence : exec (.silenceTimeout c) s = .next (settle (silenceOp c s).progress) := work_clocked hs _
  have hkill (v : BitVec 32) : exec (.agentKill v) s = .next (settle (agentKillOp v s).progress) := work_clocked hs _
  have hleaving : exec (.leavingDrained c) s = .next (settle (leavingDrainedOp c s).progress) := work_clocked hs _
  have hreclaim : exec (.reclaimComplete c) s = .next (settle (reclaimCompleteOp c s).progress) := work_clocked hs _
  refine ⟨fun counter left drill hidle => State.declareDead_idle hk hidle counter left drill,
    fun hc => ⟨fun hdue => ⟨fun hst => ?_, fun hst => ?_, fun hst => ?_⟩, fun hearly => ?_⟩,
    fun v => ⟨fun hnone => ?_, fun hone => ?_⟩, fun hst h0 => ?_, fun h => ?_, fun hst => ?_, fun hst => ?_⟩
  · rw [hsilence, silenceOp_due hk hc hdue, State.endConn_active hst]
  · rw [hsilence, silenceOp_due hk hc hdue, State.endConn_accepting hst]
  · rw [hsilence, silenceOp_due hk hc hdue, State.endConn_reclaiming hst]
  · rw [hsilence, silenceOp_early hk hearly]
  · rw [hkill, agentKillOp_eq, hnone, List.foldl_nil]
  · have hend : agentKillOp v s = s.endConn c k Reg.pgDeadKilled := by
      rw [agentKillOp_eq, hone, List.foldl_cons, List.foldl_nil]
    refine ⟨fun hst => ?_, fun hst => ?_, fun hst => ?_⟩
    · rw [hkill, hend, State.endConn_active hst]
    · rw [hkill, hend, State.endConn_accepting hst]
    · rw [hkill, hend, State.endConn_reclaiming hst]
  · rw [hleaving, leavingDrainedOp_drained hk hst h0]
  · rw [hleaving, leavingDrainedOp_idle hk h]
  · intro u accepted
    refine ⟨fun n id hleft hleave => ?_, fun hleft => ?_⟩
    · rw [hreclaim, reclaimCompleteOp_left hk hst hleft hleave]; rfl
    · rw [hreclaim, reclaimCompleteOp_silent hk hst hleft]; rfl
  · rw [hreclaim, reclaimCompleteOp_idle hk hst]

end Sys2Proof.Machine
end

section
/-! PROOFS. CTL messages and frames of unknown types: a frame in its turn under a new OP_ID, the checks of a CTL message in order,
and the words that it reads or writes. -/

namespace Sys2Proof.Machine

variable {s : State} {c : Nat} {k : Conn}

/-! ### Frames that need no memory (Table 3-7 steps 10 and 11) -/

/-- A request in its turn under a new OP_ID is admitted or refused, whatever the service state, and CMD_END and held frames
follow. -/
theorem rxFrame_fresh {r : Rx} (h : s.InTurn c k r) (hc : c ≠ twinConn)
    (hconn : ∃ x, (s.turn c r).conn? c = some x ∧ x.st = .openC ∧ x.opPlace r.f.opId = .fresh)
    (hty : r.f.ty ≠ 0x1A ∧ r.f.ty ≠ 0x1B ∧ r.f.ty ≠ 0x52) (hresp : has r.f fResp = false) :
    s.rxFrame r = ((s.asked c r).admitReq c r.port r.f).done c r := by
  obtain ⟨x, hx, hopen, hfresh⟩ := hconn
  obtain ⟨hdata, hack, hleave⟩ := hty
  rw [rxFrame_turn h hc, takeSeq_request hx hopen h.next.hello hdata hack hresp, takeReq_fresh hx hfresh hleave]
  rfl

theorem admit_stray {port : Nat} {f : Frame} (hroom : s.connAdmitted c < s.reg Reg.pgOpsMax) (hty : strayType f.ty.toNat = true) :
    s.admitReq c port f = s.respond c f .unsupported := by
  have hctl : f.ty.toNat ≠ 0x30 ∧ f.ty.toNat ≠ 0x31 := by
    constructor <;> intro h <;> rw [h] at hty <;> exact absurd hty (by decide)
  unfold State.admitReq
  rw [if_neg (by omega)]
  simp [hctl, hty]

theorem type_ne_of_stray {ty : Byte} (h : strayType ty.toNat = true) {x : Byte} (hx : strayType x.toNat = false) : ty ≠ x := by
  rintro rfl
  rw [h] at hx
  cases hx

/-! ### Checks of a CTL message (R38 to R40, R413) -/

section
variable {port tenant : Nat} {f : Frame}

/-- The form of a CTL message (R39, R41). -/
def CtlFormed (f : Frame) : Prop :=
  f.addr.toNat < 2 ^ 32 ∧ f.addr.toNat % 4 = 0 ∧ f.len.toNat % 4 = 0 ∧ 4 ≤ f.len.toNat ∧ f.len.toNat ≤ 4096 ∧
    f.addr.toNat % 4096 + f.len.toNat ≤ 4096 ∧ (f.ty = 0x31 → f.payload.length = f.len.toNat)

theorem ctlFormed_iff : CtlFormed f ↔ ¬(2 ^ 32 ≤ f.addr.toNat || f.addr.toNat % 4 != 0 || f.len.toNat % 4 != 0 || f.len.toNat < 4 ||
    4096 < f.len.toNat || 4096 < f.addr.toNat % 4096 + f.len.toNat || (f.ty = 0x31 && f.payload.length != f.len.toNat)) = true := by
  simp only [CtlFormed, Bool.or_eq_true, decide_eq_true_eq, bne_iff_ne, Bool.and_eq_true, not_or, not_and, not_not, not_le, not_lt,
    and_assoc, ne_eq]

/-- Whether a page is served: in boot recovery the root and the management unit alone (R413). -/
def State.ServesPage (s : State) (page : Nat) : Prop := s.boot.step = .recovery → page = 0 ∨ page = 9

theorem State.ctlCheck_denied (h : ¬(s.role port = 0 ∧ tenant = 0)) : s.ctlCheck port tenant f = some (.denied, true) := by
  refine if_pos ?_
  by_contra hn
  exact h (by simpa using hn)

section
variable (hhost : s.role port = 0 ∧ tenant = 0)
include hhost

theorem State.ctlCheck_host : s.ctlCheck port tenant f =
    if (2 ^ 32 ≤ f.addr.toNat || f.addr.toNat % 4 != 0 || f.len.toNat % 4 != 0 || f.len.toNat < 4 ||
      4096 < f.len.toNat || 4096 < f.addr.toNat % 4096 + f.len.toNat || (f.ty = 0x31 && f.payload.length != f.len.toNat)) = true then
      some (.unsupported, true)
    else if s.boot.step = .recovery && f.addr.toNat / 4096 != 0 && f.addr.toNat / 4096 != 9 then some (.held, false)
    else if (unitOf (f.addr.toNat / 4096)).isNone then some (.notPresent, true)
    else none := by
  obtain ⟨hrole, hten⟩ := hhost
  exact if_neg (by simp [hrole, hten])

theorem State.ctlCheck_malformed (h : ¬CtlFormed f) : s.ctlCheck port tenant f = some (.unsupported, true) := by
  rw [State.ctlCheck_host hhost, if_pos (by_contra fun hn => h (ctlFormed_iff.mpr hn))]

section
variable (hform : CtlFormed f)
include hform

theorem State.ctlCheck_held (h : ¬s.ServesPage (f.addr.toNat / 4096)) : s.ctlCheck port tenant f = some (.held, false) := by
  rw [State.ctlCheck_host hhost, if_neg (ctlFormed_iff.mp hform), if_pos]
  by_contra hn
  exact h fun hstep => by simpa [hstep, or_iff_not_imp_left] using hn

theorem State.ctlCheck_page (h : s.ServesPage (f.addr.toNat / 4096)) : s.ctlCheck port tenant f =
    if (unitOf (f.addr.toNat / 4096)).isNone then some (.notPresent, true) else none := by
  rw [State.ctlCheck_host hhost, if_neg (ctlFormed_iff.mp hform), if_neg]
  intro hn
  simp only [Bool.and_eq_true, decide_eq_true_eq, bne_iff_ne, ne_eq, and_assoc] at hn
  obtain ⟨hstep, h0, h9⟩ := hn
  exact (h hstep).elim h0 h9

end
end

/-! ### CTL messages that are taken (R41, R57) -/

section
variable (hk : s.conn? c = some k)
include hk

theorem State.takeCtl_fails {st : Status} {bad : Bool} (h : s.ctlCheck port k.tenant f = some (st, bad)) :
    s.takeCtl c port f = (s.when bad fun s => s.bump Reg.rootCtlBad).respond c f st := by
  unfold State.takeCtl
  rw [hk]
  dsimp only
  rw [h]

section
variable (hok : s.ctlCheck port k.tenant f = none)
include hok

theorem State.takeCtl_reads (hty : f.ty = 0x30) : s.takeCtl c port f =
    let r := s.readWords c (f.addr.toNat / 4096) (f.addr.toNat % 4096) (f.len.toNat / 4)
    r.2.respond c f .ok r.1 := by
  unfold State.takeCtl
  rw [hk]
  dsimp only
  rw [hok]
  exact if_pos hty

theorem State.takeCtl_writes (hty : f.ty = 0x31) : s.takeCtl c port f =
    if s.present (f.addr.toNat / 4096) = true then
      let w := s.writeWords (some (c, f)) c (f.addr.toNat / 4096) (f.addr.toNat % 4096) f.payload (f.len.toNat / 4)
      (if w.1.defer then w.2 else w.2.respond c f w.1.st).resetAsked w.1.reset
    else (s.bump Reg.rootAbsentWrites).respond c f .ok := by
  unfold State.takeCtl
  rw [hk]
  dsimp only
  rw [hok]
  dsimp only
  rw [if_neg (by rw [hty]; decide)]
  cases s.present (f.addr.toNat / 4096) <;> rfl

end
end
end

/-- A word of a 32-bit register that no reading latches or draws is the register's value. -/
theorem State.readWords_plain {page off : Nat} {reg : RegDef} (hr : findReg page off = some (reg, off)) (hw : reg.wide = false)
    (hc : isChannel page = false) (hlo : (page, off) ≠ (0, 0x100)) (hhi : (page, off) ≠ (0, 0x104)) :
    s.readWords c page off 1 = (leBytes 4 (s.readReg page off % 2 ^ 32), s) := by
  have hword : s.readWord c page off = (s.readReg page off % 2 ^ 32, s) := by
    rw [ne_eq, Prod.mk.injEq] at hlo hhi
    simp only [State.readWord, hlo, hhi, hr, hw, hc, if_false, Bool.false_and, Bool.false_eq_true]
  rw [State.readWords, hword]
  rfl

/-! ### The rows -/

/-- The rows of CTL messages and of frames of unknown types, each with its frame. -/
def ctlRows (rx : Rx) : List (Instr × Rx) :=
  [(.ctlRd rx, asType 0x30 false rx), (.ctlWr rx, asType 0x31 false rx),
    (.unknownType rx, if strayType rx.f.ty.toNat then rx else { rx with f := { rx.f with ty := 0xFF } })]

/-- Each row takes its frame, which is a stray one, a CTL_RD or a CTL_WR as the row says. -/
theorem ctlRows_cases {rx r : Rx} {row : Instr} (h : (row, r) ∈ ctlRows rx) :
    (∀ s, exec row s = work s fun s => s.rxFrame r) ∧
    (row = .unknownType rx ∧ strayType r.f.ty.toNat = true ∨
      row = .ctlRd rx ∧ r.f.ty = 0x30 ∨ row = .ctlWr rx ∧ r.f.ty = 0x31) := by
  simp only [ctlRows, List.mem_cons, Prod.mk.injEq, List.not_mem_nil, or_false] at h
  obtain ⟨rfl, rfl⟩ | ⟨rfl, rfl⟩ | ⟨rfl, rfl⟩ := h
  · exact ⟨fun _ => rfl, .inr (.inl ⟨rfl, type_ty 0x30 false rx⟩)⟩
  · exact ⟨fun _ => rfl, .inr (.inr ⟨rfl, type_ty 0x31 false rx⟩)⟩
  · refine ⟨fun _ => rfl, .inl ⟨rfl, ?_⟩⟩
    split
    · next hstray => exact hstray
    · rfl

/-- Settles O40: the row is its frame in turn, a stray type is answered at once, and a CTL message by the first check that fails. -/
theorem controlMessages : Obligations.ControlMessages := by
  intro s c k k' rx r row hc hrow hturn hconn hk hroom hresp u f a n page off after formed host served
  obtain ⟨hexec, hcase⟩ := ctlRows_cases hrow
  have hty : f.ty ≠ 0x1A ∧ f.ty ≠ 0x1B ∧ f.ty ≠ 0x52 := by
    obtain ⟨-, h⟩ | ⟨-, h⟩ | ⟨-, h⟩ := hcase
    · exact ⟨type_ne_of_stray h rfl, type_ne_of_stray h rfl, type_ne_of_stray h rfl⟩
    · rw [show f.ty = 0x30 from h]; decide
    · rw [show f.ty = 0x31 from h]; decide
  have hrun : exec row s = after (u.admitReq c r.port f) := by
    rw [hexec, work_clocked hturn.passes.clocked, rxFrame_fresh hturn hc hconn hty hresp]
  refine ⟨fun hrow' => ?_, fun hrow' => ?_⟩
  · have hstray : strayType f.ty.toNat = true := by
      obtain ⟨-, h⟩ | ⟨h, -⟩ | ⟨h, -⟩ := hcase
      · exact h
      · rw [hrow'] at h; cases h
      · rw [hrow'] at h; cases h
    rw [hrun, admit_stray hroom hstray]
  have hctl : row = .ctlRd rx ∧ f.ty = 0x30 ∨ row = .ctlWr rx ∧ f.ty = 0x31 := hcase.resolve_left fun h => hrow' h.1
  have hrd : row = .ctlRd rx → f.ty = 0x30 := by
    rintro rfl
    obtain ⟨-, h⟩ | ⟨h, -⟩ := hctl
    · exact h
    · cases h
  have hwr : row = .ctlWr rx ↔ f.ty = 0x31 := by
    obtain ⟨rfl, h⟩ | ⟨rfl, h⟩ := hctl
    · rw [h]
      exact ⟨fun h => (by cases h), fun h => absurd h (by decide)⟩
    · exact ⟨fun _ => h, fun _ => rfl⟩
  have hadmit : u.admitReq c r.port f = u.takeCtl c r.port f :=
    admit_ctl hroom (hctl.imp (fun h => by rw [h.2]; rfl) fun h => by rw [h.2]; rfl)
  have hformed : formed ↔ CtlFormed f := by
    simp only [formed, hwr]
    exact Iff.rfl
  rw [hrun, hadmit]
  refine ⟨fun hhost => ?_, fun hhost hform => ?_, fun hhost hform hserved => ?_, fun hhost hform hserved hunit => ?_,
    fun hhost hform hserved hunit => ?_⟩
  · rw [State.takeCtl_fails hk (State.ctlCheck_denied hhost)]; rfl
  · rw [State.takeCtl_fails hk (State.ctlCheck_malformed hhost (mt hformed.mpr hform))]; rfl
  · rw [State.takeCtl_fails hk (State.ctlCheck_held hhost (hformed.mp hform) hserved)]; rfl
  · have hcheck : u.ctlCheck r.port k'.tenant f = some (.notPresent, true) := by
      rw [State.ctlCheck_page hhost (hformed.mp hform) hserved, if_pos]
      rw [show unitOf (f.addr.toNat / 4096) = none from hunit]; rfl
    rw [State.takeCtl_fails hk hcheck]; rfl
  · have hcheck : u.ctlCheck r.port k'.tenant f = none := by
      rw [State.ctlCheck_page hhost (hformed.mp hform) hserved, if_neg]
      simpa [← Option.isSome_iff_ne_none] using hunit
    refine ⟨fun hread => ⟨?_, fun reg hn hreg hw hchan hlo hhi => State.readWords_plain hreg hw hchan hlo hhi⟩,
      fun hwrite habsent => ?_, fun hwrite hpresent => ?_⟩
    · rw [State.takeCtl_reads hk hcheck (hrd hread)]
    · rw [State.takeCtl_writes hk hcheck (hwr.mp hwrite), if_neg (by rw [habsent]; exact Bool.false_ne_true)]
    · rw [State.takeCtl_writes hk hcheck (hwr.mp hwrite), if_pos hpresent]

end Sys2Proof.Machine
end

section
/-! PROOFS. Keys and fuses: what each installation, erasure and burn comes to where the device makes it and where it refuses. -/

namespace Sys2Proof.Machine

variable {s : State}

/-! ### Installations and burns (R98, R101, R412) -/

/-- Both bits of JOIN_KEY_INSTALL, or neither, are refused. -/
theorem joinKeyCmdOp_refuses (both : Bool) : joinKeyCmdOp (if both then 3 else 0) s = s.refuse := by
  cases both <;> rfl

theorem joinKeyEraseOp_tenant0 (h : s.reg Reg.pgJoinKeyTenant % 4096 = 0) :
    joinKeyEraseOp s = s.onNet fun n => { n with joinKeys := n.joinKeys.put 0 Config.fusedJoinKey } := by
  simp only [joinKeyEraseOp, h, if_true]

theorem joinKeyEraseOp_tenant (h : s.reg Reg.pgJoinKeyTenant % 4096 ≠ 0) :
    joinKeyEraseOp s = s.onNet fun n => { n with joinKeys := n.joinKeys.del (s.reg Reg.pgJoinKeyTenant % 4096) } := by
  simp only [joinKeyEraseOp, if_neg h]

/-- A TARGET is burned above the fuses and up to the SVN of the running image; any other is refused. -/
theorem svnBurnOp_eq (target : Nat) : svnBurnOp target s =
    if s.boot.fuseSvn < target % 128 ∧ target % 128 ≤ (s.boot.running.map Image.svn).getD 0 then
      s.onBoot fun b => { b with fuseSvn := target % 128 }
    else s.refuse := by
  rw [svnBurnOp]
  cases s.boot.running <;> simp

theorem saInstallOp_present {port : Nat} (hp : s.hasPort port = true) :
    let pg := portPage port
    let sel := s.reg (Reg.portSaSel pg)
    execSaInstallCore port s = s.onNet fun n => { n with sas := n.sas.put (saKey port (b2n (bit sel 8)) (sel % 4)) (SecAssoc.mk
      (s.key256 (Reg.portSak pg))
      (BitVec.ofNat 96 ((s.reg (Reg.portSalt pg) * 2 ^ 32 + s.reg (Reg.portSalt pg + 4)) * 2 ^ 32 + s.reg (Reg.portSalt pg + 8)))
      (BitVec.ofNat 32 (s.reg (Reg.portSsci pg))) 1) } :=
  if_pos hp

theorem saRetireOp_present {port : Nat} (hp : s.hasPort port = true) :
    let sel := s.reg (Reg.portSaSel (portPage port))
    execSaRetireCore port s = s.onNet fun n => { n with sas := n.sas.del (saKey port (b2n (bit sel 8)) (sel % 4)) } :=
  if_pos hp

/-- Settles O20: each row by the one equation of its operation. -/
theorem keysAndFuses : Obligations.KeysAndFuses := by
  intro s hs
  have hrow (f : State → State) : act s f = .next (settle (f s)) := act_clocked hs f
  refine ⟨⟨hrow _, fun ht => ?_, fun ht => ?_, fun both => ?_, fun target svn hsvn => ⟨fun hlow hhigh => ?_, fun h => ?_⟩⟩,
    fun port hp => ⟨?_, ?_⟩, hrow _, hrow _⟩
  · exact (hrow _).trans (by rw [joinKeyEraseOp_tenant0 ht]; rfl)
  · exact (hrow _).trans (by rw [joinKeyEraseOp_tenant ht]; rfl)
  · exact (hrow _).trans (by rw [joinKeyCmdOp_refuses]; rfl)
  · exact (hrow _).trans (by rw [svnBurnOp_eq, hsvn, if_pos ⟨hlow, hhigh⟩]; rfl)
  · exact (hrow _).trans (by rw [svnBurnOp_eq, hsvn, if_neg (fun hc => by obtain ⟨_, _⟩ := hc; omega)]; rfl)
  · exact (hrow _).trans (by rw [saInstallOp_present hp]; rfl)
  · exact (hrow _).trans (by rw [saRetireOp_present hp]; rfl)

end Sys2Proof.Machine
end

section
/-! PROOFS. Timers of a connection: the HELLO that an acknowledgement is sent as, and each timer where it is due and where it is
not. -/

namespace Sys2Proof.Machine

variable {s : State} {c n : Nat} {k : Conn} {q : PathSt}

/-! ### A frame on a path (R76, R89) -/

/-- A frame as it is put on path n: with its path, and the marks that the path's congestion control asks for. -/
def PathSt.marked (q : PathSt) (n : Nat) (f : Frame) : Frame :=
  flagIf q.echoEce fEce (flagIf q.sendCwr fCwr { f with path := BitVec.ofNat 8 n })

theorem PathSt.marked_header (q : PathSt) (n : Nat) (f : Frame) : (q.marked n f).ty = f.ty ∧ (q.marked n f).ack = f.ack := by
  simp only [PathSt.marked, flagIf_ty, flagIf_ack, and_self]

theorem PathSt.has_marked (q : PathSt) (n : Nat) (f : Frame) {j : Nat} (hj : j < 12) :
    has (q.marked n f) j = (has f j || (q.sendCwr && decide (fCwr = j)) || (q.echoEce && decide (fEce = j))) := by
  rw [PathSt.marked, has_flagIf _ _ _ _ hj, has_flagIf _ _ _ _ hj]; rfl

theorem State.sendOnPath_sent {p : Nat} (hk : s.conn? c = some k) (hq : Tbl.get? k.paths n = some q) (hp : s.outPort q = some p)
    (hsend : s.CanSend p) (f : Frame) : (s.sendOnPath c n f).net.sent = s.net.sent ++
      [.jmt p q.aip (Config.sourcePort c n) s.udpPort { q.marked n f with incarn := s.boot.incarn }] := by
  simp only [State.sendOnPath, hk, hq, hp]
  exact emit_sent (onPath_send hsend c _) _ _ _

/-! ### ACK_TIMER (R85) -/

/-- A connection that has acknowledged what it received. -/
def Conn.ackSent (k : Conn) : Conn := { k with unackedCount := 0, unackedSince := none }

/-- A HELLO with PROBE 0. -/
def State.helloFrame (s : State) : Frame := { ty := 0x53, len := 16, payload := helloPayload s.now 0 }

/-- The HELLO that a connection acknowledges with, as it goes to a path. -/
def State.ackFrame (s : State) (c : Nat) (k : Conn) : Frame := withFlag (k.stamp c (k.withAck s.helloFrame)) fUnseq

theorem State.conn?_ackSent (hk : s.conn? c = some k) : (s.onConn c Conn.ackSent).conn? c = some k.ackSent := by
  rw [State.conn?_onConn, if_pos rfl, hk]; rfl

theorem State.sendAck_eq (hk : s.conn? c = some k) (n : Nat) :
    s.sendAck c n = (s.onConn c Conn.ackSent).sendOnPath c n (s.ackFrame c k) := by
  simp only [State.sendAck, hk]
  change (s.onConn c Conn.ackSent).sendUnseq c n _ = _
  simp only [State.sendUnseq, State.conn?_ackSent hk]; rfl

/-- The stamp of a connection is its numbers and its agent's identity. -/
theorem Conn.stamp_keeps (k : Conn) (c : Nat) (f : Frame) :
    (k.stamp c f).ty = f.ty ∧ (k.stamp c f).ack = f.ack ∧ (k.stamp c f).flags = f.flags := by
  unfold Conn.stamp; split <;> exact ⟨rfl, rfl, rfl⟩

theorem State.ackFrame_facts (s : State) (c : Nat) (k : Conn) :
    (s.ackFrame c k).ty = 0x53 ∧ (s.ackFrame c k).ack = k.rxNext ∧ has (s.ackFrame c k) fAckValid = true ∧
      has (s.ackFrame c k) fUnseq = true ∧ ∀ j < 12, j ≠ fAckValid → j ≠ fSack → j ≠ fUnseq → has (s.ackFrame c k) j = false := by
  obtain ⟨hty, hack, hrest, hvalid⟩ := withAck_facts k s.helloFrame
  obtain ⟨sty, sack, sflags⟩ := k.stamp_keeps c (k.withAck s.helloFrame)
  have hflag (j : Nat) (hj : j < 12) : has (s.ackFrame c k) j =
      (has (k.withAck s.helloFrame) j || decide (fUnseq = j)) := by
    rw [State.ackFrame, has_with _ _ _ hj, has, sflags]; rfl
  refine ⟨sty.trans hty, sack.trans hack, ?_, ?_, fun j hj hvalid' hsack hunseq => ?_⟩
  · rw [hflag _ (by decide), hvalid]; rfl
  · rw [hflag _ (by decide)]; simp
  · rw [hflag j hj, hrest j hj hvalid' hsack, decide_eq_false (Ne.symm hunseq)]; simp [has, State.helloFrame]

/-- The one frame that an acknowledgement puts on the wire. -/
theorem State.sendAck_sent {p : Nat} (hk : s.conn? c = some k) (hq : Tbl.get? k.paths n = some q) (hp : s.outPort q = some p)
    (hsend : s.CanSend p) : (s.sendAck c n).net.sent = s.net.sent ++
      [.jmt p q.aip (Config.sourcePort c n) s.udpPort { q.marked n (s.ackFrame c k) with incarn := s.boot.incarn }] := by
  rw [State.sendAck_eq hk]
  exact State.sendOnPath_sent (State.conn?_ackSent hk) hq hp (onPath_send hsend c _) _

theorem State.sendAck_clears (hk : s.conn? c = some k) (n : Nat) :
    ((s.sendAck c n).conn? c).any (fun k => k.unackedCount = 0 && k.unackedSince = none) = true := by
  rw [State.sendAck_eq hk, sendOnPath_conn _ _ _ _ _ fun _ _ => rfl, State.conn?_ackSent hk]; rfl

theorem execAckTimerCore_due (hk : s.conn? c = some k) {t : Nat} (ht : k.unackedSince = some t) (hdue : t + 2000 ≤ s.ran) :
    execAckTimerCore c s = s.sendAck c (s.anyPath c) := by
  simp only [execAckTimerCore, hk, ht, State.since, decide_eq_true hdue, if_true]

theorem execAckTimerCore_early (hk : s.conn? c = some k) {t : Nat} (ht : k.unackedSince = some t) (hdue : s.ran < t + 2000) :
    execAckTimerCore c s = s := by
  simp [execAckTimerCore, hk, ht, State.since, hdue]

theorem execAckTimerCore_none (hk : s.conn? c = some k) (ht : k.unackedSince = none) : execAckTimerCore c s = s := by
  simp only [execAckTimerCore, hk, ht]

/-- Settles O33: the due timer is one sendAck, whose frame is the marked HELLO. -/
theorem ackTimer : Obligations.AckTimer := by
  intro s c k hs hk
  have hrow : exec (.ackTimer c) s = .next (settle (execAckTimerCore c s).progress) := work_clocked hs _
  refine ⟨fun t ht hdue => ⟨_, ?_, sendAck_only s c (s.anyPath c), State.sendAck_clears hk _, fun q p hq hp hsend =>
    ⟨_, State.sendAck_sent hk hq hp hsend, ?_⟩⟩, fun t ht hdue => ?_, fun ht => ?_⟩
  · rw [hrow, execAckTimerCore_due hk ht hdue]
  · obtain ⟨hty, hack, hvalid, hunseq, hrest⟩ := s.ackFrame_facts c k
    have hflag {j : Nat} (hj : j < 12) := q.has_marked (s.anyPath c) (s.ackFrame c k) hj
    refine ⟨(q.marked_header _ _).1.trans hty, (q.marked_header _ _).2.trans hack, rfl, (hflag (by decide)).trans ?_,
      (hflag (by decide)).trans ?_, (hflag (by decide)).trans ?_, (hflag (by decide)).trans ?_, (hflag (by decide)).trans ?_⟩
    · rw [hvalid]; rfl
    · rw [hunseq]; rfl
    all_goals rw [hrest _ (by decide) (by decide) (by decide) (by decide)]; simp [fEce, fCwr, fProbe]
  · rw [hrow, execAckTimerCore_early hk ht hdue]
  · rw [hrow, execAckTimerCore_none hk ht]

/-! ### Probes (R86) -/

theorem State.onConn_congr (hk : s.conn? c = some k) {f g : Conn → Conn} (h : f k = g k) : s.onConn c f = s.onConn c g := by
  have hupd : s.net.conns.update c f = s.net.conns.update c g := by
    simp only [Tbl.update, show Tbl.get? s.net.conns c = some k from hk, h]
  simp only [State.onConn, State.onNet, hupd]

theorem State.onPath_congr (hk : s.conn? c = some k) (hq : Tbl.get? k.paths n = some q) {f g : PathSt → PathSt} (h : f q = g q) :
    s.onPath c n f = s.onPath c n g := by
  refine State.onConn_congr hk ?_
  simp only [Tbl.update, hq, h]

section
variable (hk : s.conn? c = some k) (hq : Tbl.get? k.paths n = some q)
include hk hq

theorem execProbeTimerCore_eq : execProbeTimerCore c n s =
    if k.active = true ∧ q.live = true ∧ q.probeAt = none ∧ q.lastAcked + 25000 ≤ s.ran then
      (s.onPath c n fun q => { q with probeAt := some s.ran }).sendProbe c n
    else s := by
  simp [execProbeTimerCore, hk, hq, State.since, and_assoc]

/-- A lost probe counts; the third in a row drops the path. -/
theorem execProbeLostCore_eq {t : Nat} (ht : q.probeAt = some t) : execProbeLostCore c n s =
    if q.live = true ∧ t + 25000 ≤ s.ran then
      if q.lost < 2 then s.onPath c n fun q => { q with probeAt := none, lost := q.lost + 1 }
      else s.onPath c n fun q => { q with probeAt := none, lost := 0, live := false, droppedAt := some s.ran }
    else s := by
  simp only [execProbeLostCore, hk, hq, ht, State.since, Bool.and_eq_true, decide_eq_true_eq]
  congr 1
  split
  · next h => exact State.onPath_congr hk hq (if_pos (by omega))
  · next h => exact State.onPath_congr hk hq (if_neg (by omega))

theorem execReprobeCore_eq {t : Nat} (ht : q.droppedAt = some t) : execReprobeCore c n s =
    if k.active = true ∧ q.live = false ∧ t + 10000000 ≤ s.ran then
      (s.onPath c n fun q => { q with droppedAt := some s.ran }).sendProbe c n
    else s := by
  simp [execReprobeCore, hk, hq, ht, State.since, and_assoc]

end

/-! ### Retransmission and congestion windows (R88, R89) -/

theorem execRtoExpiryCore_eq (hk : s.conn? c = some k) {seq : BitVec 32} {e : TxEntry} (he : Tbl.get? k.unacked seq.toNat = some e) :
    execRtoExpiryCore c seq s =
      if k.active = true ∧ e.time + e.rto ≤ s.ran then
        (((s.onPath c e.path fun q => { q with cwnd := 4352, sendCwr := true }).onConn c fun k =>
          { k with unacked := k.unacked.put seq.toNat { e with rto := min (2 * e.rto) 4000000, time := s.ran } }).resend c seq)
      else s := by
  simp only [execRtoExpiryCore, hk, he, State.since, Bool.and_eq_true, decide_eq_true_eq]
  rfl

/-- The share of a round's acknowledged frames that came with ECE. -/
def PathSt.eceShare (q : PathSt) : Rat := if q.ackedAll = 0 then 0 else (q.ackedEce : Rat) / (q.ackedAll : Rat)

/-- The average of the share of marked frames after a round (R89). -/
def PathSt.nextAlpha (q : PathSt) : Rat := q.alpha + (q.eceShare - q.alpha) / 16

/-- Whether a round has seen ECE, which cuts the window. -/
def PathSt.cuts (q : PathSt) : Bool := q.eceSeen || q.ackedEce != 0

/-- A path after a round-trip time (R89). -/
def PathSt.roundEnded (q : PathSt) (ran : Nat) : PathSt :=
  { q with
    alpha := q.nextAlpha
    cwnd := min (max (if q.cuts then ((q.cwnd : Rat) * (1 - q.nextAlpha / 2)).floor.toNat else q.cwnd + 4352) 4352) 4194304
    sendCwr := q.sendCwr || q.cuts, ackedAll := 0, ackedEce := 0, eceSeen := false, roundAt := ran }

theorem PathSt.roundEnded_cwnd (q : PathSt) (ran : Nat) : 4352 ≤ (q.roundEnded ran).cwnd ∧ (q.roundEnded ran).cwnd ≤ 4194304 := by
  simp only [PathSt.roundEnded]; omega

theorem PathSt.roundEnded_grows (q : PathSt) (ran : Nat) (h : q.eceSeen = false) (h0 : q.ackedEce = 0) :
    (q.roundEnded ran).cwnd = min (q.cwnd + 4352) 4194304 ∧ (q.roundEnded ran).sendCwr = q.sendCwr := by
  have hcuts : q.cuts = false := by simp [PathSt.cuts, h, h0]
  simp [PathSt.roundEnded, hcuts]

theorem PathSt.roundEnded_cut (q : PathSt) (ran : Nat) (h : q.eceSeen = true ∨ q.ackedEce ≠ 0) :
    (q.roundEnded ran).cwnd = min (max ((q.cwnd : Rat) * (1 - (q.roundEnded ran).alpha / 2)).floor.toNat 4352) 4194304 ∧
      (q.roundEnded ran).sendCwr = true := by
  have hcuts : q.cuts = true := by simpa [PathSt.cuts] using h
  simp [PathSt.roundEnded, hcuts]

theorem execCwndUpdateCore_due (hk : s.conn? c = some k) (hq : Tbl.get? k.paths n = some q) (ha : k.active = true)
    (hs : q.sampled = true) (hdue : q.roundAt + q.srtt ≤ s.ran) :
    execCwndUpdateCore c n s = s.onPath c n fun q => q.roundEnded s.ran := by
  simp only [execCwndUpdateCore, hk, hq, ha, hs, State.since, decide_eq_true hdue, Bool.and_self, if_true]
  rfl

theorem State.onPath_path (hk : s.conn? c = some k) (hq : Tbl.get? k.paths n = some q) (f : PathSt → PathSt) :
    ((s.onPath c n f).conn? c).any (fun k => decide (Tbl.get? k.paths n = some (f q))) = true := by
  rw [State.onPath, State.conn?_onConn, if_pos rfl, hk]
  simp [Tbl.get?_update, hq]

/-! ### KEEPALIVE (R90) -/

theorem execKeepaliveCore_eq (hk : s.conn? c = some k) : execKeepaliveCore c s =
    if k.active = true ∧ c ≠ twinConn ∧ k.lastKeep + 1000000 ≤ s.ran then
      ((k.paths.filter fun e => e.2.live).map (·.1)).foldl (fun s n => s.sendAck c n)
        (s.onConn c fun k => { k with lastKeep := s.ran })
    else s := by
  simp [execKeepaliveCore, hk, State.since, and_assoc]

/-- Settles O34: each row by the equation of its timer on an active connection; a cut window is floored (log entry 16). -/
theorem transportTimers : Obligations.TransportTimers := by
  intro s c n k q hs hk hq ha
  have hrow (f : State → State) : work s f = .next (settle (f s).progress) := work_clocked hs f
  refine ⟨fun hl hp => ⟨fun hdue => ?_, fun hdue => ?_⟩, fun t hl hp => ⟨?_, fun hdue hlost => ?_, fun hdue hlost => ?_, fun hdue => ?_⟩,
    fun t hl hd => ⟨fun hdue => ?_, fun hdue => ?_⟩, fun seq e he => ⟨fun hdue => ?_, fun hdue => ?_⟩,
    fun hsample hdue => ⟨_, hrow _, ?_⟩, fun hc => ⟨fun hdue => ?_, fun hdue => ?_⟩⟩
  · exact (hrow _).trans (by rw [execProbeTimerCore_eq hk hq, if_pos ⟨ha, hl, hp, hdue⟩])
  · exact (hrow _).trans (by rw [execProbeTimerCore_eq hk hq, if_neg fun h => by omega])
  · exact (hrow _).trans (by rw [execProbeTimerCore_eq hk hq, if_neg fun h => by simp [hp] at h])
  · exact (hrow _).trans (by rw [execProbeLostCore_eq hk hq hp, if_pos ⟨hl, hdue⟩, if_pos hlost])
  · exact (hrow _).trans (by rw [execProbeLostCore_eq hk hq hp, if_pos ⟨hl, hdue⟩, if_neg (by omega)])
  · exact (hrow _).trans (by rw [execProbeLostCore_eq hk hq hp, if_neg fun h => by omega])
  · exact (hrow _).trans (by rw [execReprobeCore_eq hk hq hd, if_pos ⟨ha, hl, hdue⟩])
  · exact (hrow _).trans (by rw [execReprobeCore_eq hk hq hd, if_neg fun h => by omega])
  · exact (hrow _).trans (by rw [execRtoExpiryCore_eq hk he, if_pos ⟨ha, hdue⟩])
  · exact (hrow _).trans (by rw [execRtoExpiryCore_eq hk he, if_neg fun h => by omega])
  · rw [execCwndUpdateCore_due hk hq ha hsample hdue]
    exact ⟨.onPath s c n _, q.roundEnded s.ran, State.onPath_path hk hq _, rfl, rfl, rfl, rfl, (q.roundEnded_cwnd _).1,
      (q.roundEnded_cwnd _).2, rfl, q.roundEnded_grows _, q.roundEnded_cut _⟩
  · exact (hrow _).trans (by rw [execKeepaliveCore_eq hk, if_pos ⟨ha, hc, hdue⟩])
  · exact (hrow _).trans (by rw [execKeepaliveCore_eq hk, if_neg fun h => by omega])

end Sys2Proof.Machine
end

section
/-! PROOFS. Links: what taking a link down and bringing it up leave of its port, its group and its counters, and the rows of ports
that are due or not. -/

namespace Sys2Proof.Machine

variable {s t u : State} {p g : Nat}

/-! ### What the operations of links may change -/

/-- From s to t only ports, groups, rotations, events and registers have changed. -/
def State.OnlyLinks (s t : State) : Prop :=
  t = { s with ctl := { s.ctl with regs := t.ctl.regs }, ev := t.ev,
               net := { s.net with ports := t.net.ports, groups := t.net.groups, conns := t.net.conns } }

theorem State.OnlyLinks.trans (h : s.OnlyLinks t) (h' : t.OnlyLinks u) : s.OnlyLinks u := by
  unfold State.OnlyLinks at *; rw [h', h]

theorem State.OnlyLinks.onPort (s : State) (p : Nat) (f : PortSt → PortSt) : s.OnlyLinks (s.onPort p f) := rfl

/-- Links alone have changed from s to t, and no port has. -/
def State.OnlyGroups (s t : State) : Prop := s.OnlyLinks t ∧ t.net.ports = s.net.ports

theorem State.OnlyGroups.refl (s : State) : s.OnlyGroups s := ⟨rfl, rfl⟩

theorem State.OnlyGroups.trans (h : s.OnlyGroups t) (h' : t.OnlyGroups u) : s.OnlyGroups u :=
  ⟨h.1.trans h'.1, h'.2.trans h.2⟩

theorem State.OnlyGroups.portSt (h : s.OnlyGroups t) (p : Nat) : t.portSt p = s.portSt p := by
  rw [State.portSt, h.2]; rfl

theorem State.OnlyGroups.bump (s : State) (a n : Nat) : s.OnlyGroups (s.bump a n) := ⟨rfl, rfl⟩
theorem State.OnlyGroups.raise (s : State) (i : Nat) (a : RaiseArgs) : s.OnlyGroups (s.raise i a) := ⟨rfl, rfl⟩
theorem State.OnlyGroups.onGroup (s : State) (g : Nat) (f : GroupSt → GroupSt) : s.OnlyGroups (s.onGroup g f) := ⟨rfl, rfl⟩
theorem State.OnlyGroups.restartRotation (s : State) (g : Nat) : s.OnlyGroups (s.restartRotation g) := ⟨rfl, rfl⟩

theorem State.OnlyGroups.when {f : State → State} (h : ∀ s : State, s.OnlyGroups (f s)) (s : State) (b : Bool) : s.OnlyGroups (s.when b f) := by
  cases b
  · exact .refl s
  · exact h s

theorem State.OnlyGroups.drillCount (s : State) (p : Nat) : s.OnlyGroups (s.drillCount p) :=
  .when (fun s => .bump s Reg.drDrillEffects 1) s (s.portDrilled p)

theorem State.OnlyGroups.removeMember (s : State) (g p : Nat) : s.OnlyGroups (s.removeMember g p) := by
  unfold State.removeMember
  split
  · exact .refl s
  · exact (State.OnlyGroups.onGroup s g _).trans <| (State.OnlyGroups.bump _ _ _).trans <|
      (State.OnlyGroups.drillCount _ p).trans <| (State.OnlyGroups.raise _ _ _).trans (.restartRotation _ g)

theorem State.portSt_onPort (s : State) (p : Nat) (f : PortSt → PortSt) : (s.onPort p f).portSt p = f (s.portSt p) := by
  rw [State.portSt, State.onPort, State.onNet_net, getD_put', if_pos rfl]; rfl

theorem State.groupSt_onGroup (s : State) (g : Nat) (f : GroupSt → GroupSt) : (s.onGroup g f).groupSt g = f (s.groupSt g) := by
  rw [State.groupSt, State.onGroup, State.onNet_net, getD_put', if_pos rfl]; rfl

theorem State.drillCount_net (s : State) (p : Nat) : (s.drillCount p).net = s.net := by
  unfold State.drillCount State.when; split <;> rfl

theorem State.drillCount_ev (s : State) (p : Nat) : (s.drillCount p).ev = s.ev := by
  unfold State.drillCount State.when; split <;> rfl

/-! ### A member's removal (R73, R74) -/

theorem State.removeMember_removed (s : State) (g p : Nat) : ((s.removeMember g p).groupSt g).removed.contains p = true := by
  unfold State.removeMember
  split
  · assumption
  · rw [show ∀ (v : State) (a : RaiseArgs), ((v.raise (16 + 4 * p + 3) a).restartRotation g).groupSt g = v.groupSt g from fun _ _ => rfl]
    rw [State.groupSt, State.drillCount_net]
    change ((s.onGroup g fun x => { x with removed := p :: x.removed, upSince := x.upSince.put p s.ran }).groupSt g).removed.contains p = true
    rw [State.groupSt_onGroup]; simp

/-- A removal raises the BUFFER source of the member and no other. -/
theorem State.removeMember_counts (s : State) (g p : Nat) {j : Nat} (hj : 16 + 4 * p + 3 ≠ j) :
    (s.removeMember g p).ev.counts.getD j 0 = s.ev.counts.getD j 0 := by
  unfold State.removeMember
  split
  · rfl
  · change (State.raise _ _ _).ev.counts.getD j 0 = _
    rw [raise_counts, if_neg hj, State.drillCount_ev]; rfl

/-- The members of lock groups stand in the registers of the groups' pages. -/
theorem State.groupOf_congr (h : ∀ a, 0x2100 * 4096 ≤ a → t.reg a = s.reg a) (p : Nat) : t.groupOf p = s.groupOf p := by
  have hmembers (n : Nat) : t.lgMembers n = s.lgMembers n := by
    simp only [State.lgMembers]
    rw [h _ (by unfold Reg.lgLgCtrl; omega), h _ (by unfold Reg.lgLgMembersLo; omega), h _ (by unfold Reg.lgLgMembersHi; omega)]
  simp only [State.groupOf, hmembers]

/-! ### A link that goes down (R70, R456) -/

/-- A link whose loss is declared, before its group hears of it: its port trains, and the loss is counted. -/
def State.linkLost (s : State) (p : Nat) : State :=
  ((s.onPort p fun q => { q with up := false, lanes := 0, training := true, tried := q.retraining, retraining := false,
                                 downAt := some s.ran }).bump (Reg.portLinkDowns (portPage p))).drillCount p

theorem State.declareDown_eq (h : (s.portSt p).up = true ∨ (s.portSt p).retraining = true) :
    s.declareDown p = match (s.linkLost p).groupOf p with
      | some g => (s.linkLost p).removeMember g p
      | none => s.linkLost p :=
  if_pos (by simpa using h)

theorem State.linkLost_links (s : State) (p : Nat) : s.OnlyLinks (s.linkLost p) :=
  (State.OnlyLinks.onPort s p _).trans ((State.OnlyGroups.bump _ _ _).trans (.drillCount _ p)).1

theorem State.linkLost_portSt (s : State) (p : Nat) : (s.linkLost p).portSt p =
    { s.portSt p with up := false, lanes := 0, training := true, tried := (s.portSt p).retraining, retraining := false,
                      downAt := some s.ran } := by
  rw [State.linkLost, (State.OnlyGroups.drillCount _ p).portSt, (State.OnlyGroups.bump _ _ _).portSt, State.portSt_onPort]

theorem State.reg_bump (s : State) (a : Nat) : (s.bump a).reg a = satAdd 32 (s.reg a) 1 := by
  rw [State.bump, State.reg_setReg, if_pos rfl]
  exact Nat.mod_eq_of_lt (by simp only [satAdd]; omega)

theorem portLinkDowns_ne_effects (p : Nat) : Reg.drDrillEffects ≠ Reg.portLinkDowns (portPage p) := by
  unfold Reg.drDrillEffects Reg.portLinkDowns portPage; omega

theorem State.linkLost_downs (s : State) (p : Nat) : (s.linkLost p).reg (Reg.portLinkDowns (portPage p)) =
    satAdd 32 (s.reg (Reg.portLinkDowns (portPage p))) 1 := by
  rw [State.linkLost, reg_drillCount _ _ _ (portLinkDowns_ne_effects p), State.reg_bump]; rfl

theorem State.linkLost_groupOf (hp : p < 40) : (s.linkLost p).groupOf p = s.groupOf p := by
  refine State.groupOf_congr (fun a ha => ?_) p
  rw [State.linkLost, reg_drillCount _ _ _ (by unfold Reg.drDrillEffects; omega),
    reg_bump_ne _ _ _ _ (by unfold Reg.portLinkDowns portPage; omega)]; rfl

section
variable (hp : p < 40) (h : (s.portSt p).up = true ∨ (s.portSt p).retraining = true)
include hp h

/-- A declared loss is the loss of the link, and the removal of a member from its group. -/
theorem State.declareDown_cases : (∃ g, s.groupOf p = some g ∧ s.declareDown p = (s.linkLost p).removeMember g p) ∨
    (s.groupOf p = none ∧ s.declareDown p = s.linkLost p) := by
  rw [State.declareDown_eq h, State.linkLost_groupOf hp]
  cases s.groupOf p with
  | some g => exact .inl ⟨g, rfl, rfl⟩
  | none => exact .inr ⟨rfl, rfl⟩

theorem State.declareDown_groups : (s.linkLost p).OnlyGroups (s.declareDown p) := by
  obtain ⟨g, -, heq⟩ | ⟨-, heq⟩ := State.declareDown_cases hp h <;> rw [heq]
  · exact .removeMember _ g p
  · exact .refl _

theorem State.declareDown_removed (hg : s.groupOf p = some g) : ((s.declareDown p).groupSt g).removed.contains p = true := by
  obtain ⟨g', hg', heq⟩ | ⟨hnone, -⟩ := State.declareDown_cases hp h
  · obtain rfl : g' = g := Option.some.inj (hg'.symm.trans hg)
    rw [heq]; exact State.removeMember_removed _ g' p
  · rw [hg] at hnone; cases hnone

theorem State.declareDown_downs : (s.declareDown p).reg (Reg.portLinkDowns (portPage p)) =
    satAdd 32 (s.reg (Reg.portLinkDowns (portPage p))) 1 := by
  rw [← State.linkLost_downs]
  obtain ⟨g, -, heq⟩ | ⟨-, heq⟩ := State.declareDown_cases hp h <;> rw [heq]
  exact reg_remove _ _ _ _ (portLinkDowns_ne_effects p) (lt_removals _ _ (by unfold Reg.portLinkDowns portPage; omega))

theorem State.declareDown_counts {j : Nat} (hj : 16 + 4 * p + 3 ≠ j) :
    (s.declareDown p).ev.counts.getD j 0 = s.ev.counts.getD j 0 := by
  have hlost : (s.linkLost p).ev = s.ev := State.drillCount_ev _ p
  obtain ⟨g, -, heq⟩ | ⟨-, heq⟩ := State.declareDown_cases hp h <;> rw [heq]
  · rw [State.removeMember_counts _ _ _ hj, hlost]
  · rw [hlost]

theorem State.declareDown_portSt : (s.declareDown p).portSt p =
    { s.portSt p with up := false, lanes := 0, training := true, tried := (s.portSt p).retraining, retraining := false,
                      downAt := some s.ran } := by
  rw [(State.declareDown_groups hp h).portSt, State.linkLost_portSt]

theorem State.declareDown_links : s.OnlyLinks (s.declareDown p) :=
  (s.linkLost_links p).trans (State.declareDown_groups hp h).1

end

theorem execLinkDownCore_down (hp : s.hasPort p = true) (h : (s.portSt p).up = true ∨ (s.portSt p).retraining = true) :
    execLinkDownCore p s = s.declareDown p := by
  rw [execLinkDownCore, if_neg (by simp [hp]), if_pos (by simpa using h)]

theorem execLinkDownCore_fails (hp : s.hasPort p = true) (hu : (s.portSt p).up = false) (hr : (s.portSt p).retraining = false) :
    execLinkDownCore p s = s.onPort p fun q => { q with tried := q.tried || q.training } := by
  rw [execLinkDownCore, if_neg (by simp [hp]), if_neg (by simp [hu, hr])]

/-! ### LANE_FAULT (R71) -/

/-- The lanes that kept block lock, as a port without a drill notes them. -/
def State.lanesNoted (s : State) (p : Nat) (ok : BitVec 4) : State := s.onPort p fun q => { q with lanesGood := ok }

theorem State.lanesNoted_portSt (s : State) (p : Nat) (ok : BitVec 4) :
    (s.lanesNoted p ok).portSt p = { s.portSt p with lanesGood := ok } :=
  s.portSt_onPort p fun q => { q with lanesGood := ok }

theorem execLaneFaultCore_eq (hp : s.hasPort p = true) (hd : s.portDrilled p = false) (ok : BitVec 4) : execLaneFaultCore p ok s =
    if (s.portSt p).up = true ∧ (s.portSt p).lanes &&& ~~~ok ≠ 0 then
      ((s.lanesNoted p ok).raise (16 + 4 * p + 1)).declareDown p
    else s.lanesNoted p ok := by
  simp [execLaneFaultCore, hp, hd, State.lanesNoted]

/-! ### LINK_TRAINED (R70, R71) -/

theorem State.endDown_links (s : State) (p : Nat) : s.OnlyLinks (s.endDown p) := by
  unfold State.endDown State.when; split <;> rfl

theorem State.endDown_downAt (s : State) (p : Nat) : ((s.endDown p).portSt p).downAt = none := by
  rw [State.endDown, State.portSt_onPort]

/-- A width that degradation or the return from it changes is counted (R71). -/
def State.widthChanged (s : State) (p : Nat) : State := ((s.raise (16 + 4 * p + 1)).bump (Reg.portLaneFaults (portPage p))).drillCount p

/-- A port whose link is up hears of it in its group (R73, R75). -/
def State.joinGroup (s : State) (p : Nat) : State :=
  match s.groupOf p with
  | some g =>
    let u := s.onGroup g fun x => { x with upSince := x.upSince.put p s.ran }
    u.when (!(u.groupSt g).removed.contains p) fun s => s.restartRotation g
  | none => s

theorem State.OnlyGroups.widthChanged (s : State) (p : Nat) : s.OnlyGroups (s.widthChanged p) :=
  (State.OnlyGroups.raise s _ _).trans ((State.OnlyGroups.bump _ _ _).trans (.drillCount _ p))

theorem State.OnlyGroups.joinGroup (s : State) (p : Nat) : s.OnlyGroups (s.joinGroup p) := by
  unfold State.joinGroup
  split
  · next g _ => exact (State.OnlyGroups.onGroup s g _).trans (.when (fun s => .restartRotation s g) _ _)
  · exact .refl s

/-- A port that trains at rate r on lanes l comes up so; the rest is its width's history and what its group hears. -/
theorem State.linkUp_eq {r : Nat} {l : BitVec 4} (ht : s.trainRate p = some (r, l)) : ∃ (wide : Option Nat) (degraded changed : Bool),
    s.linkUp p = (((s.endDown p).onPort p fun q => { q with
      up := true, rate := r, lanes := l, training := false, tried := false, retraining := false, wide := wide, degraded := degraded }).when
        changed fun s => s.widthChanged p).joinGroup p := by
  unfold State.linkUp
  rw [ht]
  exact ⟨_, _, _, rfl⟩

theorem State.linkUp_up {r : Nat} {l : BitVec 4} (ht : s.trainRate p = some (r, l)) : s.OnlyLinks (s.linkUp p) ∧
    ((s.linkUp p).portSt p).up = true ∧ ((s.linkUp p).portSt p).rate = r ∧ ((s.linkUp p).portSt p).lanes = l ∧
    ((s.linkUp p).portSt p).training = false ∧ ((s.linkUp p).portSt p).downAt = none := by
  obtain ⟨wide, degraded, changed, heq⟩ := State.linkUp_eq ht
  have hgroups (v : State) : v.OnlyGroups ((v.when changed fun s => s.widthChanged p).joinGroup p) :=
    (State.OnlyGroups.when (fun s => .widthChanged s p) v changed).trans (.joinGroup _ p)
  rw [heq, (hgroups _).portSt, State.portSt_onPort]
  exact ⟨((s.endDown_links p).trans (.onPort _ p _)).trans (hgroups _).1, rfl, rfl, rfl, rfl, s.endDown_downAt p⟩

theorem execLinkTrainedCore_up (hp : s.hasPort p = true) (ht : (s.portSt p).training = true) (hs : (s.portSt p).serviceDown = false)
    (hd : ¬(s.portDrilled p = true ∧ s.drill.kind = 4)) (he : s.enabled (portPage p) = true) :
    execLinkTrainedCore p s = s.linkUp p := by
  have hheld : (s.portDrilled p && decide (s.drill.kind = 4)) = false := by simpa using hd
  simp [execLinkTrainedCore, hp, ht, hs, hheld, he]

theorem execLinkTrainedCore_idle (ht : (s.portSt p).training = false) : execLinkTrainedCore p s = s := by
  simp [execLinkTrainedCore, ht]

/-! ### MEMBER_REJOIN (R74) and LLDP_TRANSMIT (R69) -/

/-- A removed member is one of its group again. -/
def State.memberBack (s : State) (g p : Nat) : State :=
  (s.onGroup g fun x => { x with removed := x.removed.filter (· != p) }).restartRotation g

theorem State.memberBack_group (s : State) (g p : Nat) :
    (s.memberBack g p).groupSt g = { s.groupSt g with removed := (s.groupSt g).removed.filter (· != p) } :=
  s.groupSt_onGroup g fun x => { x with removed := x.removed.filter (· != p) }

theorem execMemberRejoinCore_eq (g p : Nat) : execMemberRejoinCore g p s =
    if (s.groupSt g).removed.contains p = true ∧ (s.portSt p).up = true ∧ (s.groupSt g).upSince.getD p 0 + 10000000 ≤ s.ran then
      s.memberBack g p
    else s := by
  simp [execMemberRejoinCore, State.since, and_assoc, State.memberBack]

theorem execLldpTransmitCore_eq (hp : s.hasPort p = true) (hu : (s.portSt p).up = true)
    (he : bit (s.reg (Reg.portLldpCtrl (portPage p))) 0 = true) : execLldpTransmitCore p s =
    if (s.portSt p).nextLldp ≤ s.ran then
      (s.onPort p fun q => { q with nextLldp := s.ran + bits (s.reg (Reg.portLldpCtrl (portPage p))) 15 8 * 1000000000 }).onNet fun n =>
        { n with sent := n.sent ++ [.lldp p Config.lldpOui 0x01 (s.lldpInfo p)] }
    else s := by
  simp only [execLldpTransmitCore, hp, hu, he, Bool.and_self, Bool.true_and, decide_eq_true_eq]
  rfl

/-! ### The rows -/

/-- A link is down: it holds the time since which it is, and its group has removed it. -/
theorem State.declareDown_isDown (hp : p < 40) (h : (s.portSt p).up = true ∨ (s.portSt p).retraining = true) :
    ((s.declareDown p).portSt p).up = false ∧ ((s.declareDown p).portSt p).lanes = 0 ∧ ((s.declareDown p).portSt p).training = true ∧
    ((s.declareDown p).portSt p).downAt = some s.ran ∧
    ∀ g, s.groupOf p = some g → ((s.declareDown p).groupSt g).removed.contains p = true := by
  rw [State.declareDown_portSt hp h]
  exact ⟨rfl, rfl, rfl, rfl, fun g hg => State.declareDown_removed hp h hg⟩

/-- Settles O32: each row by the equation of its operation, and a declared loss by what it leaves of the port, its group and
its counters. A loss on a training port ends that training (log entry 60), and one under R408 is declared (log entry 72). -/
theorem linkRows : Obligations.LinkRows := by
  intro s p hs hp only isDown
  have hlt : p < 40 := by
    rw [State.hasPort, Bool.and_eq_true] at hp
    exact of_decide_eq_true hp.1
  have hrow (f : State → State) : work s f = .next (settle (f s).progress) := work_clocked hs f
  refine ⟨fun h => ⟨s.declareDown p, ?_, State.declareDown_links hlt h, State.declareDown_isDown hlt h, State.declareDown_downs hlt h⟩,
    fun hu hr => ?_, fun ok hd => ⟨fun h => ?_, fun hu hl => ?_⟩, fun r l ht htr hsv hd he => ⟨s.linkUp p, ?_, State.linkUp_up ht⟩,
    fun htr => ?_, fun g hg hu hdue => ⟨s.memberBack g p, ?_, rfl, s.memberBack_group g p⟩, fun g hg => ?_,
    fun hu he => ⟨fun hdue => ?_, fun hdue => ?_⟩⟩
  · exact (hrow _).trans (by rw [execLinkDownCore_down hp h])
  · exact (hrow _).trans (by rw [execLinkDownCore_fails hp hu hr])
  · refine (hrow _).trans ?_
    rw [execLaneFaultCore_eq hp hd, if_neg]
    · rfl
    · rintro ⟨hu, hl⟩
      obtain h | h := h
      · rw [hu] at h; cases h
      · exact hl h
  · let lost := (s.lanesNoted p ok).raise (16 + 4 * p + 1)
    have hport : lost.portSt p = { s.portSt p with lanesGood := ok } := s.lanesNoted_portSt p ok
    have hup : (lost.portSt p).up = true ∨ (lost.portSt p).retraining = true := .inl (by rw [hport]; exact hu)
    refine ⟨lost.declareDown p, ?_, (show s.OnlyLinks lost from rfl).trans (State.declareDown_links hlt hup),
      State.declareDown_isDown hlt hup, ?_, ?_⟩
    · exact (hrow _).trans (by rw [execLaneFaultCore_eq hp hd, if_pos ⟨hu, hl⟩])
    · rw [State.declareDown_portSt hlt hup, hport]
    · rw [State.declareDown_counts hlt hup (by omega), raise_counts, if_pos rfl]; rfl
  · exact (hrow _).trans (by rw [execLinkTrainedCore_up hp htr hsv hd he])
  · exact (hrow _).trans (by rw [execLinkTrainedCore_idle htr])
  · exact (hrow _).trans (by rw [execMemberRejoinCore_eq, if_pos ⟨hg, hu, hdue⟩])
  · exact (hrow _).trans (by rw [execMemberRejoinCore_eq, if_neg fun h => by rw [hg] at h; cases h.1])
  · exact (hrow _).trans (by rw [execLldpTransmitCore_eq hp hu he, if_pos hdue])
  · exact (hrow _).trans (by rw [execLldpTransmitCore_eq hp hu he, if_neg (by omega)])

end Sys2Proof.Machine
end

section
/-! PROOFS. JOIN: the checks of Table 3-11 in their order, and what a JOIN comes to that passes them. -/

namespace Sys2Proof.Machine

variable {s : State} {rx : Rx}

/-! ### The checks of a JOIN (Table 3-11) -/

/-- The number of paths that a JOIN asks for. -/
def joinPaths (f : Frame) : Nat := beField f.payload 32 1

/-- Step 1: a JOIN that is not well formed. -/
def joinMalformed (f : Frame) : Bool :=
  f.len != 40 || f.payload.length != 40 || joinPaths f = 0 || 8 < joinPaths f || joinPaths f ≤ f.path.toNat || beField f.payload 33 7 != 0

/-- Step 2: a JOIN that the service state holds. -/
def State.joinHeld (s : State) (ten : Nat) : Bool :=
  s.boot.service = .darkHold || (s.boot.service = .greyscale &&
    (!s.persisted ten || (ten != 0 && (s.boot.step = .command || s.boot.step = .recovery))))

/-- The token that a JOIN has to carry under a key (R93). -/
def joinToken (key : BitVec 256) (f : Frame) : BitVec 128 :=
  token key (beBytes 2 f.tenant.toNat ++ beBytes 2 f.agent.toNat ++ beBytes 8 (beField f.payload 16 8))

/-- Step 3: a JOIN without a key or a verifying token. -/
def State.joinUnkeyed (s : State) (f : Frame) : Bool :=
  (Tbl.get? s.net.joinKeys f.tenant.toNat).all fun key => joinToken key f != BitVec.ofNat 128 (beField f.payload 0 16)

/-- Step 3: a JOIN on a port of a role that does not take its tenant. -/
def State.joinMisplaced (s : State) (rx : Rx) : Bool := if rx.f.tenant.toNat = 0 then s.role rx.port != 0 else s.role rx.port != 1

/-- Step 4: a JOIN under the AGENT number of another tenant. -/
def State.joinClashes (s : State) (f : Frame) : Bool :=
  s.net.conns.any fun e => e.2.agent = f.agent.toNat && e.2.tenant != f.tenant.toNat

/-- What a JOIN comes to that Table 3-11 accepts (Table 3-9). -/
def State.joinPassed (s : State) (rx : Rx) : State :=
  let mine := s.agentConns rx.f.tenant.toNat rx.f.agent.toNat
  match mine.find? (·.2.st = .accepting) with
  | some (c, _) => s.onConn c fun k => { k with lastHeard := s.ran }
  | none => match mine.find? (·.2.active) with
    | some (c, k) =>
      if k.nonce = BitVec.ofNat 64 (beField rx.f.payload 24 8) then s.acceptAgain c rx
      else (s.declareDead c Reg.pgRejoined false false).newConn rx .accepting
    | none => s.newConn rx (if mine.isEmpty then .openC else .accepting)

/-- The checks in their order; the three of step 3 refuse alike. -/
theorem State.takeJoin_eq (s : State) (rx : Rx) : s.takeJoin rx =
    if joinMalformed rx.f then s.refuseJoin rx .unsupported Reg.pgJoinBad
    else if s.joinHeld rx.f.tenant.toNat then s.refuseJoin rx .held Reg.pgJoinHeld
    else if s.joinUnkeyed rx.f || decide (beField rx.f.payload 16 8 ≤ s.now) || s.joinMisplaced rx then
      s.refuseJoin rx .denied Reg.pgJoinDenied
    else if s.joinClashes rx.f then (s.refuseJoin rx .denied Reg.pgJoinDenied).bump Reg.pgJoinClash
    else if 8192 ≤ s.net.conns.count (fun c _ => c != twinConn) then s.refuseJoin rx .busy Reg.pgJoinBusy
    else s.joinPassed rx := by
  have hmerge {α : Type} (a b c : Bool) (x y : α) :
      (if a || b || c then x else y) = if a then x else if b then x else if c then x else y := by
    cases a <;> cases b <;> rfl
  rw [hmerge]
  simp only [decide_eq_true_eq]
  rfl

/-! ### What each check says -/

theorem joinMalformed_iff (f : Frame) : joinMalformed f = true ↔ ¬(f.len = 40 ∧ f.payload.length = 40 ∧ 1 ≤ joinPaths f ∧
    joinPaths f ≤ 8 ∧ f.path.toNat < joinPaths f ∧ beField f.payload 33 7 = 0) := by
  simp only [joinMalformed, Bool.or_eq_true, bne_iff_ne, decide_eq_true_eq, not_and_or, Nat.not_le, Nat.not_lt, Nat.lt_one_iff,
    or_assoc, Ne]

theorem State.joinHeld_iff (s : State) (ten : Nat) : s.joinHeld ten = true ↔ ¬(s.boot.service ≠ .darkHold ∧
    (s.boot.service = .greyscale → s.persisted ten = true ∧ (ten = 0 ∨ (s.boot.step ≠ .command ∧ s.boot.step ≠ .recovery)))) := by
  simp only [State.joinHeld, Bool.or_eq_true, Bool.and_eq_true, decide_eq_true_eq, bne_iff_ne, Bool.not_eq_true']
  cases s.persisted ten <;> tauto

theorem all_bne_iff {α β : Type} [DecidableEq β] (o : Option α) (g : α → β) (v : β) :
    (o.all fun a => g a != v) = true ↔ ¬∃ a, o = some a ∧ g a = v := by
  cases o <;> simp

theorem State.joinUnkeyed_iff (s : State) (f : Frame) : s.joinUnkeyed f = true ↔
    ¬∃ key, Tbl.get? s.net.joinKeys f.tenant.toNat = some key ∧ joinToken key f = BitVec.ofNat 128 (beField f.payload 0 16) :=
  all_bne_iff _ _ _

theorem State.joinMisplaced_iff (s : State) (rx : Rx) : s.joinMisplaced rx = true ↔
    ¬(if rx.f.tenant.toNat = 0 then s.role rx.port = 0 else s.role rx.port = 1) := by
  rw [State.joinMisplaced]; split <;> simp

theorem State.joinClashes_iff (s : State) (f : Frame) : s.joinClashes f = true ↔
    ¬∀ e ∈ s.net.conns, e.2.agent = f.agent.toNat → e.2.tenant = f.tenant.toNat := by
  simp [State.joinClashes]

/-! ### An accepted JOIN (Table 3-9) -/

section
variable {c : Nat} {k : Conn}

theorem State.joinPassed_new (h : s.agentConns rx.f.tenant.toNat rx.f.agent.toNat = []) : s.joinPassed rx = s.newConn rx .openC := by
  simp [State.joinPassed, h]

variable (h : s.agentConns rx.f.tenant.toNat rx.f.agent.toNat = [(c, k)])
include h

theorem State.joinPassed_accepting (hst : k.st = .accepting) :
    s.joinPassed rx = s.onConn c fun k => { k with lastHeard := s.ran } := by
  simp [State.joinPassed, h, hst]

theorem State.joinPassed_reclaiming (hst : k.st = .reclaiming) : s.joinPassed rx = s.newConn rx .accepting := by
  simp [State.joinPassed, h, hst, Conn.active]

/-- A JOIN of an agent with an active connection: the same nonce asks for the ACCEPT again, another one is a new life. -/
theorem State.joinPassed_active (ha : k.active = true) : s.joinPassed rx =
    if k.nonce = BitVec.ofNat 64 (beField rx.f.payload 24 8) then s.acceptAgain c rx
    else (s.declareDead c Reg.pgRejoined false false).newConn rx .accepting := by
  have hst : k.st ≠ .accepting := by
    intro hc
    rw [Conn.active, hc] at ha; cases ha
  simp [State.joinPassed, h, hst, ha]

end

/-! ### The row -/

theorem refuseJoin_only (s : State) (rx : Rx) (st : Status) (counter : Nat) : s.OnlySends (s.refuseJoin rx st counter) :=
  (State.OnlySends.bump s counter 1).trans (emitRaw_only _ _ _ _ _)

theorem rxFrame_join (h : s.Passes rx) (hty : rx.f.ty = 0x50) (hr : has rx.f fResp = false) :
    s.rxFrame rx = (s.counted rx).takeJoin rx := by
  rw [rxFrame_passes h, State.rxAccepted]
  simp only [hty, hr, if_true, Bool.false_eq_true, if_false]

theorem exec_joinFrame (h : s.Passes (asType 0x50 false rx)) : exec (.joinFrame rx) s =
    .next (settle ((s.counted (asType 0x50 false rx)).takeJoin (asType 0x50 false rx)).progress) := by
  change work s (fun s => s.rxFrame (asType 0x50 false rx)) = _
  rw [work_clocked h.clocked, rxFrame_join h (type_ty _ _ _) (type_resp _ _ _)]

/-- Settles O36: a JOIN that passes is taken by the checks in their order, each of which says what its step asks. -/
theorem joinHandling : Obligations.JoinHandling := by
  intro s rx hpass r u f n ten mine refused formed served keyed fresh placed free room
  have hrow : exec (.joinFrame rx) s = .next (settle (u.takeJoin r).progress) := exec_joinFrame hpass
  have hformed : joinMalformed r.f = true ↔ ¬formed := joinMalformed_iff _
  have hserved : u.joinHeld r.f.tenant.toNat = true ↔ ¬served := u.joinHeld_iff _
  have hkeyed : u.joinUnkeyed r.f = true ↔ ¬keyed := u.joinUnkeyed_iff _
  have hplaced : u.joinMisplaced r = true ↔ ¬placed := u.joinMisplaced_iff r
  have hfree : u.joinClashes r.f = true ↔ ¬free := u.joinClashes_iff _
  have hfresh : beField r.f.payload 16 8 ≤ u.now ↔ ¬fresh := Nat.not_lt.symm
  have hroom : 8192 ≤ u.net.conns.count (fun c _ => c != twinConn) ↔ ¬room := Nat.not_lt.symm
  clear_value formed served keyed fresh placed free room
  have hstep3 : (u.joinUnkeyed r.f || decide (beField r.f.payload 16 8 ≤ u.now) || u.joinMisplaced r) = true ↔ ¬(keyed ∧ fresh ∧ placed) := by
    rw [Bool.or_eq_true, Bool.or_eq_true, decide_eq_true_eq, hkeyed, hfresh, hplaced, not_and_or, not_and_or, or_assoc]
  rw [State.takeJoin_eq] at hrow
  refine ⟨fun hf => ?_, fun hf hs => ?_, fun hf hs hk => ?_, fun hf hs hk hfr hp hc => ?_, fun hf hs hk hfr hp hc hr => ?_,
    fun hf hs hk hfr hp hc hr => ?_⟩
  · rw [if_pos (hformed.mpr hf)] at hrow
    exact ⟨refuseJoin_only u r _ _, hrow⟩
  · rw [if_neg fun h => hformed.mp h hf, if_pos (hserved.mpr hs)] at hrow
    exact ⟨refuseJoin_only u r _ _, hrow⟩
  · rw [if_neg fun h => hformed.mp h hf, if_neg fun h => hserved.mp h hs, if_pos (hstep3.mpr hk)] at hrow
    exact ⟨refuseJoin_only u r _ _, hrow⟩
  · rw [if_neg fun h => hformed.mp h hf, if_neg fun h => hserved.mp h hs, if_neg fun h => hstep3.mp h ⟨hk, hfr, hp⟩, if_pos (hfree.mpr hc)] at hrow
    exact hrow
  · rw [if_neg fun h => hformed.mp h hf, if_neg fun h => hserved.mp h hs, if_neg fun h => hstep3.mp h ⟨hk, hfr, hp⟩,
      if_neg fun h => hfree.mp h hc, if_pos (hroom.mpr hr)] at hrow
    exact ⟨refuseJoin_only u r _ _, hrow⟩
  · rw [if_neg fun h => hformed.mp h hf, if_neg fun h => hserved.mp h hs, if_neg fun h => hstep3.mp h ⟨hk, hfr, hp⟩, if_neg fun h => hfree.mp h hc,
      if_neg fun h => hroom.mp h hr] at hrow
    refine ⟨fun hm => ?_, fun c k hm => ⟨fun hst => ?_, fun hst => ?_, fun ha hn => ?_, fun ha hn => ?_⟩⟩
    · rw [hrow, State.joinPassed_new hm]
    · rw [hrow, State.joinPassed_accepting hm hst]
    · rw [hrow, State.joinPassed_reclaiming hm hst]
    · rw [hrow, State.joinPassed_active hm ha, if_pos hn]
    · rw [hrow, State.joinPassed_active hm ha, if_neg hn]

end Sys2Proof.Machine
end

section
/-! PROOFS. HELLO and LEAVE: a frame of an agent's active connection is heard, then its probe is answered, its answer taken, or its
connection leaves. -/

namespace Sys2Proof.Machine

variable {s : State} {c : Nat} {k : Conn} {rx : Rx}

/-! ### HELLO (R85, R86) -/

/-- A HELLO of an active connection is heard, then answered as R86 says, and a sequenced one takes its SEQ place. -/
theorem rxFrame_hello (hpass : s.Passes rx) (hconn : (s.counted rx).OfConn c k rx) (hty : rx.f.ty = 0x53) :
    s.rxFrame rx = if has rx.f fUnseq then ((s.counted rx).heard c rx).rxHello c rx
      else (((s.counted rx).heard c rx).rxHello c rx).rxSeq c rx := by
  rw [rxFrame_passes hpass, rxAccepted_ofConn hconn, State.rxConn, if_pos hty]
  rfl

theorem State.rxHello_probe (hc : c ≠ twinConn) (hp : has rx.f fProbe = true) (hr : has rx.f fResp = false) :
    s.rxHello c rx = s.takeProbe c rx := by
  simp [State.rxHello, hp, hr, hc]

theorem State.rxHello_answer (hp : has rx.f fProbe = true) (hr : has rx.f fResp = true)
    (ho : (s.conn? c).any (fun k => (k.paths.getD rx.f.path.toNat { }).opened) = true) :
    s.rxHello c rx = s.takeProbeAnswer c rx := by
  simp only [State.rxHello, hp, hr, ho, Bool.not_true, Bool.false_eq_true, if_true, if_false]

theorem State.rxHello_plain (hp : has rx.f fProbe = false) : s.rxHello c rx = s := by
  simp [State.rxHello, hp]

section
variable (hk : s.conn? c = some k)
include hk

theorem State.takeProbe_beyond (h : k.granted ≤ rx.f.path.toNat) :
    s.takeProbe c rx = s.bump (Reg.portRxDropHdr (portPage rx.port)) := by
  simp only [State.takeProbe, hk, if_pos h]

section
variable (h : rx.f.path.toNat < k.granted)
include h

theorem State.takeProbe_stopping (hst : s.stopping (portPage rx.port) = true) : s.takeProbe c rx = s := by
  simp only [State.takeProbe, hk, if_neg (Nat.not_le.mpr h), hst, if_true]

/-- A probe on a granted path makes the path live, and its answer goes out on that path. -/
theorem State.takeProbe_answers (hst : s.stopping (portPage rx.port) = false) :
    ∃ q : PathSt, q.live = true ∧ q.opened = true ∧ q.droppedAt = none ∧
      q.aip = rx.src ∧ q.aport = rx.sport ∧ q.dip = rx.dst ∧ q.port = rx.port ∧
      s.takeProbe c rx = (s.onConn c fun k => { k with paths := k.paths.put rx.f.path.toNat q }).sendUnseq c rx.f.path.toNat
        (withFlag (withFlag { ty := 0x53, len := 16, payload := helloPayload s.now (beField rx.f.payload 0 8) } fProbe) fResp) := by
  simp only [State.takeProbe, hk, if_neg (Nat.not_le.mpr h), hst, Bool.false_eq_true, if_false]
  exact ⟨_, rfl, rfl, rfl, rfl, rfl, rfl, rfl, rfl⟩

end
end

/-! ### LEAVE (R90, Table 3-9) -/

/-- A LEAVE under a new OP_ID is noted, and its connection leaves. -/
def State.left (s : State) (c : Nat) (f : Frame) : State := (s.onConn c fun k => k.noteOp f.opId).takeLeave c f

theorem State.left_conn (hk : s.conn? c = some k) (hst : k.st = .openC) (f : Frame) :
    (s.left c f).conn? c = some { k.noteOp f.opId with st := .leaving, leave := some (f.path.toNat, f.opId) } := by
  have hnoted : (k.noteOp f.opId).st = .openC := hst
  simp only [State.left, State.takeLeave, State.conn?_onConn, hk, Option.map_some, hnoted, if_true]

theorem State.left_only (s : State) (c : Nat) (f : Frame) :
    s.left c f = { s with net := { s.net with conns := (s.left c f).net.conns } } := rfl

theorem State.left_others (s : State) (f : Frame) {d : Nat} (hd : d ≠ c) : (s.left c f).conn? d = s.conn? d := by
  simp only [State.left, State.takeLeave, State.conn?_onConn, if_neg (Ne.symm hd)]

section
variable {port : Nat} {f : Frame} (hk : s.conn? c = some k)
include hk

theorem State.takeReq_leaves (hty : f.ty = 0x52) (hfresh : k.opPlace f.opId = .fresh) :
    s.takeReq c port f = (s.left c f).when (has f fCmdEnd) fun s => s.onConn c fun k => { k with cmd := k.cmd + 1 } := by
  simp only [State.takeReq, hk, hfresh, hty, if_true]; rfl

theorem State.takeReq_outside (hout : k.opPlace f.opId = .outside) :
    s.takeReq c port f = (s.bump Reg.pgDupDropped).when (has f fCmdEnd) fun s => s.onConn c fun k => { k with cmd := k.cmd + 1 } := by
  simp only [State.takeReq, hk, hout]

/-- In LEAVING a further LEAVE is dropped, as any request is. -/
theorem State.takeSeq_leaving (hty : f.ty = 0x52) (hr : has f fResp = false) (hst : k.st = .leaving) : s.takeSeq c port f = s := by
  simp [State.takeSeq, hk, hty, hr, hst]

end

/-! ### The rows -/

/-- The rows of HELLO, each with the frame that it is. -/
def helloRows (rx : Rx) : List (Instr × Rx) :=
  [(.helloProbe rx, asFlag fProbe true (asType 0x53 false rx)), (.helloAnswer rx, asFlag fProbe true (asType 0x53 true rx)),
    (.hello rx, asFlag fProbe false (asType 0x53 false rx))]

theorem asFlag_hello (on resp : Bool) (rx : Rx) : (asFlag fProbe on (asType 0x53 resp rx)).f.ty = 0x53 ∧
    has (asFlag fProbe on (asType 0x53 resp rx)).f fProbe = on ∧ has (asFlag fProbe on (asType 0x53 resp rx)).f fResp = resp :=
  ⟨(flag_ty _ _ _).trans (type_ty _ _ _), as_has _ _ _ (by decide),
    (as_has_ne _ _ _ _ (by decide) (by decide)).trans (type_resp _ _ _)⟩

theorem helloRows_cases {row : Instr} {r : Rx} (h : (row, r) ∈ helloRows rx) :
    (row = .helloProbe rx ∧ r = asFlag fProbe true (asType 0x53 false rx)) ∨
    (row = .helloAnswer rx ∧ r = asFlag fProbe true (asType 0x53 true rx)) ∨
    (row = .hello rx ∧ r = asFlag fProbe false (asType 0x53 false rx)) := by
  simpa only [helloRows, List.mem_cons, Prod.mk.injEq, List.not_mem_nil, or_false] using h

section
variable {row : Instr} {r : Rx} (h : (row, r) ∈ helloRows rx)
include h

theorem helloRows_exec (s : State) : exec row s = work s fun s => s.rxFrame r := by
  obtain ⟨rfl, rfl⟩ | ⟨rfl, rfl⟩ | ⟨rfl, rfl⟩ := helloRows_cases h <;> rfl

theorem helloRows_type : r.f.ty = 0x53 := by
  obtain ⟨-, rfl⟩ | ⟨-, rfl⟩ | ⟨-, rfl⟩ := helloRows_cases h <;> exact (asFlag_hello _ _ rx).1

theorem helloRows_probe (hrow : row = .helloProbe rx) : has r.f fProbe = true ∧ has r.f fResp = false := by
  obtain ⟨rfl, rfl⟩ | ⟨rfl, -⟩ | ⟨rfl, -⟩ := helloRows_cases h
  · exact (asFlag_hello _ _ rx).2
  all_goals cases hrow

theorem helloRows_answer (hrow : row = .helloAnswer rx) : has r.f fProbe = true ∧ has r.f fResp = true := by
  obtain ⟨rfl, -⟩ | ⟨rfl, rfl⟩ | ⟨rfl, -⟩ := helloRows_cases h
  · cases hrow
  · exact (asFlag_hello _ _ rx).2
  · cases hrow

theorem helloRows_plain (hrow : row = .hello rx) : has r.f fProbe = false := by
  obtain ⟨rfl, -⟩ | ⟨rfl, -⟩ | ⟨rfl, rfl⟩ := helloRows_cases h
  · cases hrow
  · cases hrow
  · exact (asFlag_hello _ _ rx).2.1

end

/-- Settles O37: a HELLO is heard and then probed, answered or left alone; a LEAVE in its turn is noted, counted or dropped. -/
theorem helloAndLeave : Obligations.HelloAndLeave := by
  intro s c k rx hc
  constructor
  · intro row r hmem hpass hconn h after
    have hrun : exec (row rx) s = .next (settle (after (h.rxHello c r)).progress) := by
      rw [helloRows_exec hmem, work_clocked hpass.clocked, rxFrame_hello hpass hconn (helloRows_type hmem)]
    refine ⟨fun hrow k' hk' => ?_, fun hrow ho => ?_, fun hrow => ?_⟩
    · obtain ⟨hp, hr⟩ := helloRows_probe hmem hrow
      rw [hrow, State.rxHello_probe hc hp hr] at hrun
      refine ⟨fun hb => ?_, fun hb hst => ?_, fun hb hst => ?_⟩
      · rw [hrun, State.takeProbe_beyond hk' hb]
      · rw [hrun, State.takeProbe_stopping hk' hb hst]
      · obtain ⟨q, h1, h2, h3, h4, h5, h6, h7, hq⟩ := State.takeProbe_answers hk' hb hst
        exact ⟨q, h1, h2, h3, h4, h5, h6, h7, by rw [hrun, hq]⟩
    · obtain ⟨hp, hr⟩ := helloRows_answer hmem hrow
      rw [← hrow, hrun, State.rxHello_answer hp hr ho]
    · rw [← hrow, hrun, State.rxHello_plain (helloRows_plain hmem hrow)]
  · intro r hturn k' hk'
    have hty : r.f.ty = 0x52 := type_ty _ _ _
    have hresp : has r.f fResp = false := type_resp _ _ _
    have hrow : exec (.leave rx) s = .next (settle (((s.turn c r).takeSeq c r.port r.f).closed c).progress) := by
      change work s (fun s => s.rxFrame r) = _
      rw [work_clocked hturn.passes.clocked, rxFrame_turn hturn hc]
    have hreq (hst : k'.st = .openC) : (s.turn c r).takeSeq c r.port r.f = (s.turn c r).takeReq c r.port r.f :=
      takeSeq_request hk' hst (by rw [hty]; decide) (by rw [hty]; decide) (by rw [hty]; decide) hresp
    refine ⟨fun hst hfresh => ⟨(s.turn c r).left c r.f, ?_, State.left_conn hk' hst _, State.left_only _ c _, fun d hd => State.left_others _ _ hd⟩,
      fun hst hout => ?_, fun hst => ?_⟩
    · rw [hrow, hreq hst, State.takeReq_leaves hk' hty hfresh]; rfl
    · rw [hrow, hreq hst, State.takeReq_outside hk' hout]; rfl
    · rw [hrow, State.takeSeq_leaving hk' hty hresp hst]

end Sys2Proof.Machine
end

section
/-! PROOFS. Peer connections: what sending to a peer leaves of its entry, and what each row makes of the entry that it names. -/

namespace Sys2Proof.Machine

variable {s t u : State} {k : Nat}

/-! ### Entries of the peer table -/

theorem State.peer_onPeer (s : State) (k j : Nat) (f : Peer → Peer) :
    (s.onPeer k f).peer j = if k = j then f (s.peer k) else s.peer j :=
  getD_put' _ _ _ _ _

theorem State.peer_onPeer_same (s : State) (k : Nat) (f : Peer → Peer) : (s.onPeer k f).peer k = f (s.peer k) := by
  rw [State.peer_onPeer, if_pos rfl]

theorem State.OnlySends.peer (h : s.OnlySends t) (j : Nat) : t.peer j = s.peer j := by
  rw [State.peer, h]; rfl

/-- From s to t no entry of the peer table but k has changed, and neither the store nor a job. -/
def State.OnlyPeer (s : State) (k : Nat) (t : State) : Prop :=
  (∀ j, j ≠ k → t.peer j = s.peer j) ∧ t.store = s.store ∧ t.jobs.jobs = s.jobs.jobs

theorem State.OnlyPeer.trans (h : s.OnlyPeer k t) (h' : t.OnlyPeer k u) : s.OnlyPeer k u :=
  ⟨fun j hj => (h'.1 j hj).trans (h.1 j hj), h'.2.1.trans h.2.1, h'.2.2.trans h.2.2⟩

theorem State.OnlyPeer.onPeer (s : State) (k : Nat) (f : Peer → Peer) : s.OnlyPeer k (s.onPeer k f) :=
  ⟨fun j hj => by rw [State.peer_onPeer, if_neg (Ne.symm hj)], rfl, rfl⟩

theorem State.OnlySends.onlyPeer (h : s.OnlySends t) : s.OnlyPeer k t := by
  obtain ⟨-, hstore, hjobs, -⟩ := OnlySends.facts h
  exact ⟨fun j _ => h.peer j, hstore, by rw [hjobs]⟩

/-- From s to t entry k has become z, and nothing else but what sending changes. -/
def State.PeerBecomes (s : State) (k : Nat) (z : Peer) (t : State) : Prop := s.OnlyPeer k t ∧ t.peer k = z

theorem State.PeerBecomes.onPeer (s : State) (k : Nat) (f : Peer → Peer) : s.PeerBecomes k (f (s.peer k)) (s.onPeer k f) :=
  ⟨.onPeer s k f, State.peer_onPeer_same s k f⟩

theorem State.PeerBecomes.sends {z : Peer} (h : s.PeerBecomes k z t) (h' : t.OnlySends u) : s.PeerBecomes k z u :=
  ⟨h.1.trans h'.onlyPeer, (h'.peer k).trans h.2⟩

theorem State.PeerBecomes.onPeerAgain {z : Peer} (h : s.PeerBecomes k z t) (f : Peer → Peer) : s.PeerBecomes k (f z) (t.onPeer k f) :=
  ⟨h.1.trans (.onPeer t k f), (State.peer_onPeer_same t k f).trans (congrArg f h.2)⟩

/-! ### Frames to a peer -/

theorem peerEmit_only (s : State) (k n : Nat) (f : Frame) : s.OnlySends (s.peerEmit k n f) := by
  unfold State.peerEmit
  dsimp only
  split
  · exact emitRaw_only _ _ _ _ _
  · exact .refl s

theorem openPaths_only (s : State) (k : Nat) : s.OnlySends (s.openPaths k) :=
  State.OnlySends.foldl _ (fun s _ => peerEmit_only s k _ _) _ s

/-- A sequenced frame takes the next SEQ of the entry. -/
theorem State.sendPeer_becomes (s : State) (k : Nat) (f : Frame) :
    s.PeerBecomes k { s.peer k with txNext := (s.peer k).txNext + 1 } (s.sendPeer k f) :=
  (State.PeerBecomes.onPeer s k fun x => { x with txNext := x.txNext + 1 }).sends (peerEmit_only _ k _ _)

/-- The write that asked for the connection completes, and is waited for no longer (R227). -/
theorem State.PeerBecomes.done {z : Peer} (h : s.PeerBecomes k z t) : s.PeerBecomes k { z with wait := none } (t.peerDone k) := by
  unfold State.peerDone
  split
  · exact (h.onPeerAgain fun x => { x with wait := none }).sends (respond_only _ _ _ _ _)
  · next hw =>
    rw [h.2] at hw
    exact ⟨h.1, h.2.trans (by rw [← hw])⟩

/-! ### PEER_CMD (R227) -/

/-- Whether the selected entry may be opened: it is IDLE, and no other entry holds its pair (R217). -/
def State.PeerFree (s : State) : Prop := (s.peer s.peerSel).st = .idle ∧
  s.pairTaken s.peerSel (s.reg Reg.bePeerDev % 65536) (bits (s.reg Reg.bePeerId) 31 20) = false

/-- The selected entry as an OPEN leaves it. -/
def State.peerOpened (s : State) : Peer :=
  { s.peer s.peerSel with
    dev := s.reg Reg.bePeerDev % 65536, ident := BitVec.ofNat 32 (s.reg Reg.bePeerId), ip := s.ip Reg.bePeerIp, st := .joining
    since := s.ran, ports := s.peerPorts, txNext := 1, opNext := 1, live := [], writes := [], wait := none, conn := 0, incarn := 0 }

theorem State.peerFree_iff (s : State) : s.PeerFree ↔ ¬((s.peer s.peerSel).st != .idle ||
    s.pairTaken s.peerSel (s.reg Reg.bePeerDev % 65536) (bits (s.reg Reg.bePeerId) 31 20)) = true := by
  simp [State.PeerFree]

theorem peerOpenOp_opens (h : s.PeerFree) : s.PeerBecomes s.peerSel s.peerOpened (peerOpenOp none s) := by
  have hput : s.PeerBecomes s.peerSel s.peerOpened (s.draw.2.onPeer s.peerSel fun _ => s.peerOpened) :=
    ⟨State.OnlyPeer.onPeer s.draw.2 _ _, State.peer_onPeer_same s.draw.2 _ _⟩
  rw [peerOpenOp, if_neg (s.peerFree_iff.mp h)]
  dsimp only
  split
  · exact hput.sends (emitRaw_only _ _ _ _ _)
  · exact hput

theorem peerOpenOp_taken (h : ¬s.PeerFree) :
    ∃ v, s.PeerBecomes s.peerSel { s.peer s.peerSel with result := v } (peerOpenOp none s) := by
  rw [peerOpenOp, if_pos (not_not.mp (mt s.peerFree_iff.mpr h))]
  exact ⟨s.draw.1 % 256, State.OnlyPeer.onPeer s.draw.2 _ _, State.peer_onPeer_same s.draw.2 _ _⟩

theorem peerCloseOp_closes (h : (s.peer s.peerSel).st = .opened) : s.PeerBecomes s.peerSel { s.peer s.peerSel with
    st := .closing, since := s.ran, opNext := (s.peer s.peerSel).opNext + 1, txNext := (s.peer s.peerSel).txNext + 1 } (peerCloseOp s) := by
  rw [peerCloseOp, if_pos h]
  exact (s.sendPeer_becomes s.peerSel _).onPeerAgain fun x => { x with st := .closing, since := s.ran, opNext := x.opNext + 1 }

theorem peerCloseOp_idle (h : (s.peer s.peerSel).st ≠ .opened) : peerCloseOp s = s := if_neg h

/-! ### PEER_ACCEPT (R86, R217) -/

section
variable {f : Frame} (hst : (s.peer k).st = .joining)
include hst

/-- An ACCEPT opens the connection on path 0, and asks for the further paths that it grants. -/
theorem peerAcceptOp_accepted (hty : f.ty = 0x51) : s.PeerBecomes k { s.peer k with
    st := .opened, result := 0, conn := BitVec.ofNat 24 (beField f.payload 0 4), incarn := BitVec.ofNat 8 (beField f.payload 6 1)
    ports := (s.peer k).ports.take (beField f.payload 7 1), live := [0], wait := none } (peerAcceptOp k (some f) s) := by
  simp only [peerAcceptOp, hst, hty, if_true]
  exact ((State.PeerBecomes.onPeer s k _).sends (openPaths_only _ k)).done

theorem peerAcceptOp_refused (hty : f.ty = 0x50) (hr : has f fResp = true) : s.PeerBecomes k { s.peer k with
    st := .idle, result := f.status.toNat, wait := none } (peerAcceptOp k (some f) s) := by
  simp only [peerAcceptOp, hst, hty, hr, decide_true, Bool.and_self, if_true]
  exact (State.PeerBecomes.onPeer s k _).done

theorem peerAcceptOp_silent (hlate : (s.peer k).since + 10000000 ≤ s.ran) : s.PeerBecomes k { s.peer k with
    st := .idle, result := Status.timeout.code, wait := none } (peerAcceptOp k none s) := by
  simp only [peerAcceptOp, hst, State.since, decide_eq_true hlate, if_true]
  exact (State.PeerBecomes.onPeer s k _).done

theorem peerAcceptOp_early (h : s.ran < (s.peer k).since + 10000000) : peerAcceptOp k none s = s := by
  simp only [peerAcceptOp, hst, State.since, decide_eq_false (Nat.not_le.mpr h), Bool.false_eq_true, if_false]

end

section
variable {f : Frame}

theorem peerAcceptOp_path (hst : (s.peer k).st = .opened) (hty : f.ty = 0x53) (hp : has f fProbe = true) (hr : has f fResp = true)
    (hn : f.path.toNat < (s.peer k).ports.length) (hl : f.path.toNat ∉ (s.peer k).live) :
    s.PeerBecomes k { s.peer k with live := (s.peer k).live ++ [f.path.toNat] } (peerAcceptOp k (some f) s) := by
  have hall : (decide (f.ty = 0x53) && has f fProbe && has f fResp && decide (f.path.toNat < (s.peer k).ports.length) &&
      !(s.peer k).live.contains f.path.toNat) = true := by simp [hty, hp, hr, hn, hl]
  have hlives : peerAcceptOp k (some f) s = s.onPeer k fun x => { x with live := x.live ++ [f.path.toNat] } := by
    simp only [peerAcceptOp, hst, hall, if_true]
  rw [hlives]
  exact .onPeer s k fun x => { x with live := x.live ++ [f.path.toNat] }

/-- A closing connection ends with the answer to its LEAVE. -/
theorem peerAcceptOp_left (hst : (s.peer k).st = .closing) (hty : f.ty = 0x52) (hr : has f fResp = true) :
    s.PeerBecomes k { s.peer k with st := .idle, result := Status.ok.code, wait := none } (peerAcceptOp k (some f) s) := by
  simp only [peerAcceptOp, hst, hty, hr, decide_true, Bool.and_self, if_true]
  exact (State.PeerBecomes.onPeer s k _).done

theorem peerAcceptOp_closed (hst : (s.peer k).st = .closing) (hlate : (s.peer k).since + 10000000 ≤ s.ran) :
    s.PeerBecomes k { s.peer k with st := .idle, result := Status.ok.code, wait := none } (peerAcceptOp k none s) := by
  simp only [peerAcceptOp, hst, State.since, decide_eq_true hlate, if_true]
  exact (State.PeerBecomes.onPeer s k _).done

theorem peerAcceptOp_idle (hst : (s.peer k).st = .idle) (a : Option Frame) : peerAcceptOp k a s = s := by
  simp only [peerAcceptOp, hst]

end

/-! ### PEER_WRITE_RESPONSE (R217) -/

/-- The job of a peer write that is over: it waits for the write no longer, and counts its bytes when the peer wrote them. -/
def Job.peerWritten (j : Job) (key len : Nat) (st : Status) : Job :=
  { j with peerLeft := j.peerLeft.filter (· != key), written := j.written + (if st = .ok then len else 0) }

/-- The state in which a peer write is over, before its outcome is noted. -/
def State.peerWriteOver (s : State) (k : Nat) (w : PeerWrite) (st : Status) : State :=
  (s.onPeer k fun x => { x with writes := x.writes.filter (· != w) }).onJob w.job fun j => j.peerWritten (peerKey k w.opId) w.len st

theorem State.peerWriteEnd_eq (s : State) (k : Nat) (w : PeerWrite) (st : Status) : s.peerWriteEnd k w st =
    if st = .ok then
      match (s.peerWriteOver k w st).job? w.job with
      | some j => (s.peerWriteOver k w st).bump64 (Reg.beBytesWritten (bulkEnginePage (j.engine - 16))) w.len
      | none => s.peerWriteOver k w st
    else (s.peerWriteOver k w st).jobFail w.job w.offset st := rfl

/-- What is noted of an outcome is a counter, or the failure in the job. -/
theorem State.peerWriteEnd_keeps (s : State) (k : Nat) (w : PeerWrite) (st : Status) :
    (s.peerWriteEnd k w st).store = s.store ∧ (s.peerWriteEnd k w st).peer = (s.peerWriteOver k w st).peer := by
  rw [State.peerWriteEnd_eq]
  split
  · split <;> exact ⟨rfl, rfl⟩
  · exact ⟨rfl, rfl⟩

theorem State.job?_onJob (s : State) (i j : Nat) (f : Job → Job) :
    (s.onJob i f).job? j = if i = j then (s.job? i).map f else s.job? j := Tbl.get?_update _ _ _ _

/-- A failure that a job notes leaves what it wrote and what it waits for. -/
theorem State.jobFail_job {i : Nat} {j : Job} (hj : s.job? i = some j) (pos : Nat) (st : Status) :
    ∃ j', (s.jobFail i pos st).job? i = some j' ∧ j'.peerLeft = j.peerLeft ∧ j'.written = j.written := by
  rw [State.jobFail, State.job?_onJob, if_pos rfl, hj, Option.map_some]
  split
  · exact ⟨j, rfl, rfl, rfl⟩
  · exact ⟨_, rfl, rfl, rfl⟩

theorem State.peerWriteEnd_job {w : PeerWrite} {st : Status} {j : Job} (hj : s.job? w.job = some j) :
    ∃ j', (s.peerWriteEnd k w st).job? w.job = some j' ∧ j'.peerLeft = j.peerLeft.filter (· != peerKey k w.opId) ∧
      j'.written = j.written + (if st = .ok then w.len else 0) := by
  have hover : (s.peerWriteOver k w st).job? w.job = some (j.peerWritten (peerKey k w.opId) w.len st) := by
    rw [State.peerWriteOver, State.job?_onJob, if_pos rfl]
    exact congrArg (Option.map _) hj
  by_cases hok : st = .ok
  · rw [State.peerWriteEnd_eq, if_pos hok, hover]
    exact ⟨_, hover, rfl, rfl⟩
  · rw [State.peerWriteEnd_eq, if_neg hok]
    exact State.jobFail_job hover w.offset st

theorem State.peerWriteEnd_writes (s : State) (k : Nat) (w : PeerWrite) (st : Status) :
    ((s.peerWriteEnd k w st).peer k).writes = (s.peer k).writes.filter (· != w) := by
  rw [(s.peerWriteEnd_keeps k w st).2]
  exact congrArg Peer.writes (s.peer_onPeer_same k fun x => { x with writes := x.writes.filter (· != w) })

section
variable {f : Frame} {w : PeerWrite} (hw : (s.peer k).writes.find? (fun w => w.opId = f.opId) = some w) (hty : f.ty = 0x02)
  (hr : has f fResp = true)
include hw hty hr

theorem peerWriteResponseOp_ends (hst : statusOf f.status.toNat ≠ .staleIncarnation) :
    peerWriteResponseOp k f s = s.peerWriteEnd k w (statusOf f.status.toNat) := by
  simp only [peerWriteResponseOp, hw]
  rw [if_neg (by simp [hty, hr]), if_neg hst]

/-- With STALE_INCARNATION every write of the connection ends. -/
theorem peerWriteResponseOp_stale (hst : statusOf f.status.toNat = .staleIncarnation) : peerWriteResponseOp k f s =
    (((s.peer k).writes.foldl (fun s w => s.peerWriteEnd k w .staleIncarnation) s).onPeer k fun x => { x with st := .idle }).raise 323 := by
  simp only [peerWriteResponseOp, hw]
  rw [if_neg (by simp [hty, hr]), if_pos hst]

end

theorem peerWriteResponseOp_none {f : Frame} (hw : (s.peer k).writes.find? (fun w => w.opId = f.opId) = none) :
    peerWriteResponseOp k f s = s := by
  simp only [peerWriteResponseOp, hw]

/-- Settles O54: each row by what its operation makes of the entry, and a response by the write that it ends. -/
theorem peerConnections : Obligations.PeerConnections := by
  intro s hs ok k x only
  have hrow (f : State → State) : work s f = ok (f s) := work_clocked hs f
  refine ⟨⟨fun h => ⟨_, hrow _, peerOpenOp_opens h⟩, fun h => ?_⟩, fun h => ⟨_, hrow _, peerCloseOp_closes h⟩, fun h => ?_,
    fun n => ?_, fun n f w hw hty hr => ⟨fun hst => ?_, fun hst => ?_⟩, fun n f hw => ?_⟩
  · obtain ⟨v, hv⟩ := peerOpenOp_taken h
    exact ⟨_, v, hrow _, hv⟩
  · exact (hrow _).trans (by rw [peerCloseOp_idle h])
  · intro y becomes
    have hgives {a : Option Frame} {z : Peer} (h : s.PeerBecomes n z (peerAcceptOp n a s)) : becomes a z := ⟨_, hrow _, h⟩
    refine ⟨fun hst => ⟨fun f hty => hgives (peerAcceptOp_accepted hst hty), fun f hty hr => hgives (peerAcceptOp_refused hst hty hr),
        fun hlate => hgives (peerAcceptOp_silent hst hlate), fun h => ?_⟩,
      fun hst f hty hp hr hn hl => hgives (peerAcceptOp_path hst hty hp hr hn hl),
      fun hst => ⟨fun f hty hr => hgives (peerAcceptOp_left hst hty hr), fun hlate => hgives (peerAcceptOp_closed hst hlate)⟩,
      fun hst a => ?_⟩
    · exact (hrow _).trans (by rw [peerAcceptOp_early hst h])
    · exact (hrow _).trans (by rw [peerAcceptOp_idle hst])
  · exact ⟨_, (hrow _).trans (by rw [peerWriteResponseOp_ends hw hty hr hst]), rfl, s.peerWriteEnd_writes n w _,
      (s.peerWriteEnd_keeps n w _).1, fun j hj => State.peerWriteEnd_job hj⟩
  · refine ⟨_, (hrow _).trans (by rw [peerWriteResponseOp_stale hw hty hr hst]), ?_, ?_⟩
    · exact congrArg Peer.st (State.peer_onPeer_same _ n _)
    · exact foldl_keeps State.store (fun s w => (s.peerWriteEnd_keeps n w _).1) _ s
  · exact (hrow _).trans (by rw [peerWriteResponseOp_none hw])

end Sys2Proof.Machine
end

section
/-! PROOFS. Training of the two tiers (R107, R108): what the training of one channel leaves of its entry, folded over the
channels present, and what it leaves alone. -/

namespace Sys2Proof.Machine

variable {s : State}

/-! ### One step for each key of a list -/

/-- A reading that the step at a key sets for that key alone: set where the key is in the list, and as before elsewhere. -/
theorem foldl_reads {β : Type} (get : State → Nat → β) (v : Nat → β) {f : State → Nat → State}
    (h : ∀ s j i, get (f s j) i = if j = i then v j else get s i) (l : List Nat) (s : State) (i : Nat) :
    get (l.foldl f s) i = if i ∈ l then v i else get s i := by
  induction l generalizing s with
  | nil => simp
  | cons j l ih =>
    rw [List.foldl_cons, ih, h]
    by_cases hij : j = i
    · subst hij; simp
    · simp [hij, Ne.symm hij]

/-- What the step at one key of the list establishes and every step keeps holds in the end. -/
theorem foldl_establishes {P : State → Prop} {f : State → Nat → State} {n : Nat} {l : List Nat} (hn : n ∈ l)
    (hset : ∀ s, P (f s n)) (hkeep : ∀ s j, P s → P (f s j)) (s : State) : P (l.foldl f s) := by
  obtain ⟨l₁, l₂, rfl⟩ := List.append_of_mem hn
  rw [List.foldl_append, List.foldl_cons]
  exact List.foldlRecOn l₂ f (hset _) fun u hu j _ => hkeep u j hu

/-! ### What training leaves alone -/

/-- The state but for the store, the failed units and the events. -/
def State.besideTraining (s : State) : State := { s with ctl := { s.ctl with failed := [] }, ev := { }, store := { } }

theorem State.mem_failed_channelFails {s : State} {page q : Nat} (h : q = page ∨ q ∈ s.ctl.failed) :
    q ∈ (s.channelFails page).ctl.failed := by
  change q ∈ if s.ctl.failed.contains page then s.ctl.failed else s.ctl.failed ++ [page]
  split
  · next hc => exact h.elim (fun e => e ▸ List.contains_iff_mem.mp hc) id
  · exact List.mem_append.mpr (h.symm.imp_right List.mem_singleton.mpr)

/-- Ports that come up change as ports only. -/
theorem State.comeUp_ports (s : State) (l : List Nat) : ∃ ports, s.comeUp l = { s with net := { s.net with ports := ports } } := by
  have h : { s.comeUp l with net := { (s.comeUp l).net with ports := [] } } = { s with net := { s.net with ports := [] } } :=
    foldl_keeps (fun u : State => { u with net := { u.net with ports := [] } })
      (f := fun u p => u.onPort p fun q => { q with serviceDown := false, training := !q.up, tried := false })
      (fun _ _ => rfl) (l.filter s.hasPort) s
  exact ⟨(s.comeUp l).net.ports, (congrArg (fun u : State => { u with net := { u.net with ports := (s.comeUp l).net.ports } }) h :)⟩

/-! ### The list of a tier's channels, and the step reached -/

/-- Whether the list of a tier's channels is kept: after a warm reset, where there is one (R107, R108). -/
def State.keepsList (s : State) (l : List Nat) : Bool := !s.coldBoot && !l.isEmpty

theorem State.keepsList_congr {t : State} (h : t.boot = s.boot) (l : List Nat) : t.keepsList l = s.keepsList l := by
  rw [State.keepsList, State.coldBoot, h]; rfl

theorem State.reg_congr {t : State} (h : t.ctl.regs = s.ctl.regs) (a : Nat) : t.reg a = s.reg a := by
  unfold State.reg
  rw [h]

/-- Training is over: the list is formed unless it is kept, and bring-up is at a step. -/
def State.reach (s : State) (kept : Bool) (form : Store → Store) (step : BringUp) : State :=
  (s.when (!kept) fun s => s.onStore form).onBoot fun b => { b with step := step }

section
variable (s : State) (kept : Bool) (form : Store → Store) (step : BringUp)

theorem State.reach_beside {u : State} (h : u.besideTraining = s.besideTraining) : (u.reach kept form step).besideTraining =
    { s.besideTraining with boot := { s.boot with step := step } } := by
  cases kept <;> exact congrArg (fun v : State => v.onBoot fun b => { b with step := step }) h

theorem State.reach_store : (s.reach kept form step).store = if kept then s.store else form s.store := by
  cases kept <;> rfl

theorem State.reach_failed : (s.reach kept form step).ctl.failed = s.ctl.failed := by
  cases kept <;> rfl

end

/-! ### The near tier (R107) -/

/-- The state once the training of stack n has ended, well or not. -/
def State.stackTrained (s : State) (ok : Bool) (n : Nat) : State :=
  let t := s.onStore fun st => { st with near := st.near.put n { st.near.getD n { } with trained := ok } }
  if ok then t else t.channelFails (nearPage n)

theorem State.stackTrained_beside (s : State) (ok : Bool) (n : Nat) : (s.stackTrained ok n).besideTraining = s.besideTraining := by
  cases ok <;> rfl

theorem State.stackTrained_store (s : State) (ok : Bool) (n : Nat) : (s.stackTrained ok n).store =
    { s.store with near := s.store.near.put n { s.store.near.getD n { } with trained := ok } } := by
  cases ok <;> rfl

theorem State.stackTrained_trained (s : State) (ok : Bool) (j n : Nat) :
    ((s.stackTrained ok j).store.near.getD n { }).trained = if j = n then ok else (s.store.near.getD n { }).trained := by
  rw [State.stackTrained_store, getD_put']
  split <;> rfl

theorem State.stackTrained_failed (s : State) (n : Nat) : nearPage n ∈ (s.stackTrained false n).ctl.failed :=
  State.mem_failed_channelFails (.inl rfl)

theorem State.stackTrained_keeps_failed {s : State} {p : Nat} (h : p ∈ s.ctl.failed) (ok : Bool) (n : Nat) :
    p ∈ (s.stackTrained ok n).ctl.failed := by
  cases ok
  · exact State.mem_failed_channelFails (.inr h)
  · exact h

/-- The stacks that are present, and those of them that train. -/
def State.presentStacks (s : State) : List Nat := (List.range 8).filter fun n => s.present (nearPage n)
def State.goodStacks (s : State) (failed : List Nat) : List Nat := s.presentStacks.filter fun n => !failed.contains n

theorem State.mem_presentStacks {n : Nat} : n ∈ s.presentStacks ↔ n < 8 ∧ s.present (nearPage n) = true := by
  rw [State.presentStacks, List.mem_filter, List.mem_range]

theorem State.contains_goodStacks {n : Nat} (hn : n ∈ s.presentStacks) (failed : List Nat) :
    (s.goodStacks failed).contains n = !failed.contains n := by
  rw [Bool.eq_iff_iff, List.contains_iff_mem, State.goodStacks, List.mem_filter, and_iff_right hn]

/-- The state once every stack has trained or failed. -/
def State.nearTrained (s : State) (failed : List Nat) : State :=
  s.presentStacks.foldl (fun u n => u.stackTrained ((s.goodStacks failed).contains n) n) s

theorem State.nearTrained_beside (s : State) (failed : List Nat) : (s.nearTrained failed).besideTraining = s.besideTraining :=
  foldl_keeps State.besideTraining (fun u _ => u.stackTrained_beside _ _) _ s

theorem State.nearTrained_store (s : State) (failed : List Nat) :
    (s.nearTrained failed).store = { s.store with near := (s.nearTrained failed).store.near } := by
  have h : { (s.nearTrained failed).store with near := [] } = { s.store with near := [] } :=
    foldl_keeps (fun u => { u.store with near := [] }) (fun u _ => by rw [u.stackTrained_store]) _ s
  exact congrArg (fun st : Store => { st with near := (s.nearTrained failed).store.near }) h

theorem State.nearTrained_trained {n : Nat} (hn : n ∈ s.presentStacks) (failed : List Nat) :
    ((s.nearTrained failed).store.near.getD n { }).trained = !failed.contains n := by
  rw [← s.contains_goodStacks hn failed]
  exact (foldl_reads (fun u n => (u.store.near.getD n { }).trained) (s.goodStacks failed).contains
    (fun u j n => by rw [u.stackTrained_trained]) _ s n).trans (if_pos hn)

theorem State.nearTrained_failed {n : Nat} (hn : n ∈ s.presentStacks) {failed : List Nat} (hf : n ∈ failed) :
    nearPage n ∈ (s.nearTrained failed).ctl.failed := by
  have hbad : (s.goodStacks failed).contains n = false := by rw [s.contains_goodStacks hn, List.contains_iff_mem.mpr hf]; rfl
  exact foldl_establishes (P := fun u => nearPage n ∈ u.ctl.failed) hn
    (fun u => by rw [hbad]; exact u.stackTrained_failed n) (fun u j h => State.stackTrained_keeps_failed h _ j) s

/-- The state at step near, before ports come up. -/
def State.nearReached (s : State) (failed : List Nat) : State :=
  (s.nearTrained failed).reach (s.keepsList s.store.nearList) (fun st => { st with nearList := s.goodStacks failed }) .near

theorem State.nearReached_beside (s : State) (failed : List Nat) : (s.nearReached failed).besideTraining =
    { s.besideTraining with boot := { s.boot with step := .near } } :=
  s.reach_beside _ _ _ (s.nearTrained_beside failed)

theorem State.nearReached_store (s : State) (failed : List Nat) : (s.nearReached failed).store =
    { s.store with near := (s.nearTrained failed).store.near,
                   nearList := if s.keepsList s.store.nearList then s.store.nearList else s.goodStacks failed } := by
  rw [State.nearReached, State.reach_store, s.nearTrained_store failed]
  cases s.keepsList s.store.nearList <;> rfl

theorem State.nearReached_failed {n : Nat} (hn : n ∈ s.presentStacks) {failed : List Nat} (hf : n ∈ failed) :
    nearPage n ∈ (s.nearReached failed).ctl.failed := by
  rw [State.nearReached, State.reach_failed]
  exact State.nearTrained_failed hn hf

theorem nearTierTrainedOp_command (h : s.boot.step = .command) (failed : List Nat) :
    nearTierTrainedOp failed s = (s.nearReached failed).comeUp [2, 3, 4, 5] := by
  have hboot : (s.nearTrained failed).boot = s.boot := (congrArg State.boot (s.nearTrained_beside failed) :)
  have hlist : (s.nearTrained failed).store.nearList = s.store.nearList := by rw [s.nearTrained_store failed]
  rw [nearTierTrainedOp, if_neg (by simp [h]), State.nearReached, ← State.keepsList_congr hboot, ← hlist]
  rfl

theorem nearTierTrainedOp_elsewhere (h : s.boot.step ≠ .command) (failed : List Nat) : nearTierTrainedOp failed s = s := by
  rw [nearTierTrainedOp, if_pos (by simpa using h)]

/-- Settles O13: the stacks are trained one by one, N is formed or kept, and ports come up. -/
theorem nearTierTraining : Obligations.NearTierTraining := by
  intro s failed hs
  have hrow : exec (.nearTierTrained failed) s = .next (settle (nearTierTrainedOp failed s).progress) := work_clocked hs _
  refine ⟨fun h => by rw [hrow, nearTierTrainedOp_elsewhere h], fun h => ⟨_, hrow, ?_⟩⟩
  have hb := s.nearReached_beside failed
  obtain ⟨ports, hports⟩ := (s.nearReached failed).comeUp_ports [2, 3, 4, 5]
  rw [nearTierTrainedOp_command h, hports, State.nearReached_store]
  exact ⟨(congrArg State.boot hb :), fun n hlt hp => State.nearTrained_trained (State.mem_presentStacks.mpr ⟨hlt, hp⟩) failed,
    fun n hlt hp hf => State.nearReached_failed (State.mem_presentStacks.mpr ⟨hlt, hp⟩) hf, rfl, rfl,
    (congrArg (fun u => u.net.conns) hb :), (congrArg State.time hb :), (congrArg State.coh hb :), (congrArg State.jobs hb :),
    (congrArg (fun u => u.ctl.regs) hb :)⟩

/-! ### The bulk tier (R108, R109) -/

/-- The modules reported for a channel. -/
def dimmsOf (pops : List ChannelPop) (c : Nat) : List Dimm :=
  match pops.find? (·.channel = c) with
  | some p => p.dimms
  | none => []

theorem dimmsOf_eq (pops : List ChannelPop) (c : Nat) : dimmsOf pops c = ((pops.find? (·.channel = c)).map (·.dimms)).getD [] := by
  unfold dimmsOf
  cases pops.find? (·.channel = c) <;> rfl

/-- The lowest of the speeds reached. -/
def lowestSpeed (l : List Nat) : Nat :=
  match l with
  | [] => 0
  | x :: xs => xs.foldl min x

theorem lowestSpeed_le {l : List Nat} {v : Nat} (h : v ∈ l) : lowestSpeed l ≤ v := by
  cases l with
  | nil => cases h
  | cons x xs => exact (List.min?_eq_some_iff.mp List.min?_cons').2 v h

/-- The entry of a channel once its training has ended, well or not: kept says that BULK_MAP stands, mapped that the channel is
in it. -/
def Channel.trainedAs (x : Channel) (ok kept mapped refused : Bool) (dimms : List Dimm) (speed : Nat) : Channel :=
  { x with trained := ok, lost := kept && (x.lost || (mapped && !ok)), refused := refused, dimms := dimms,
           speed := if ok then speed else 0,
           capacity := if kept && mapped then x.capacity else if ok then dimms.foldl (fun n d => n + d.capacity) 0 else 0 }

/-- The state once the training of channel c has ended. -/
def State.channelTrained (s : State) (pops : List ChannelPop) (ok kept : Bool) (speed c : Nat) : State :=
  let t := s.onStore fun st => { st with bulk := st.bulk.put c ((s.store.bulk.getD c { }).trainedAs ok kept
    (s.store.bulkMap.contains c) (popRefused pops (dimmsOf pops c)) (dimmsOf pops c) speed) }
  if ok then t else t.channelFails (bulkPage c)

section
variable (s : State) (pops : List ChannelPop) (ok kept : Bool) (speed : Nat)

theorem State.channelTrained_beside (c : Nat) : (s.channelTrained pops ok kept speed c).besideTraining = s.besideTraining := by
  cases ok <;> rfl

theorem State.channelTrained_store (c : Nat) : (s.channelTrained pops ok kept speed c).store = { s.store with
    bulk := s.store.bulk.put c ((s.store.bulk.getD c { }).trainedAs ok kept (s.store.bulkMap.contains c)
      (popRefused pops (dimmsOf pops c)) (dimmsOf pops c) speed) } := by
  cases ok <;> rfl

/-- What training settles of a channel's entry: whether it trained, whether it is refused, and its speed. -/
def Channel.training (x : Channel) : Bool × Bool × Nat := (x.trained, x.refused, x.speed)

theorem State.channelTrained_training (j c : Nat) :
    ((s.channelTrained pops ok kept speed j).store.bulk.getD c { }).training =
      if j = c then (ok, popRefused pops (dimmsOf pops j), if ok then speed else 0) else (s.store.bulk.getD c { }).training := by
  rw [State.channelTrained_store, getD_put']
  split <;> rfl

end

/-- The channels that are present, and those of them that train. -/
def State.presentChannels (s : State) : List Nat := (List.range 16).filter fun c => s.present (bulkPage c)
def State.goodChannels (s : State) (pops : List ChannelPop) : List Nat :=
  s.presentChannels.filter fun c => (s.channelSpeed pops c).isSome

/-- The speed at which every trained channel runs. -/
def State.commonSpeed (s : State) (pops : List ChannelPop) : Nat :=
  lowestSpeed ((s.goodChannels pops).filterMap (s.channelSpeed pops))

theorem State.mem_presentChannels {c : Nat} : c ∈ s.presentChannels ↔ c < 16 ∧ s.present (bulkPage c) = true := by
  rw [State.presentChannels, List.mem_filter, List.mem_range]

theorem State.contains_goodChannels {c : Nat} (hc : c ∈ s.presentChannels) (pops : List ChannelPop) :
    (s.goodChannels pops).contains c = (s.channelSpeed pops c).isSome := by
  rw [Bool.eq_iff_iff, List.contains_iff_mem, State.goodChannels, List.mem_filter, and_iff_right hc]

theorem State.commonSpeed_le {pops : List ChannelPop} {d v : Nat} (hd : d ∈ s.presentChannels) (hv : s.channelSpeed pops d = some v) :
    s.commonSpeed pops ≤ v :=
  lowestSpeed_le (List.mem_filterMap.mpr ⟨d, List.mem_filter.mpr ⟨hd, by rw [hv]; rfl⟩, hv⟩)

/-- The state once every channel has trained or failed. -/
def State.bulkTrained (s : State) (pops : List ChannelPop) : State :=
  s.presentChannels.foldl (fun u c => u.channelTrained pops ((s.goodChannels pops).contains c)
    (s.keepsList s.store.bulkMap) (s.commonSpeed pops) c) s

theorem State.bulkTrained_beside (s : State) (pops : List ChannelPop) : (s.bulkTrained pops).besideTraining = s.besideTraining :=
  foldl_keeps State.besideTraining (fun u _ => u.channelTrained_beside _ _ _ _ _) _ s

theorem State.bulkTrained_store (s : State) (pops : List ChannelPop) :
    (s.bulkTrained pops).store = { s.store with bulk := (s.bulkTrained pops).store.bulk } := by
  have h : { (s.bulkTrained pops).store with bulk := [] } = { s.store with bulk := [] } :=
    foldl_keeps (fun u => { u.store with bulk := [] }) (fun u _ => by rw [u.channelTrained_store]) _ s
  exact congrArg (fun st : Store => { st with bulk := (s.bulkTrained pops).store.bulk }) h

theorem State.bulkTrained_training {c : Nat} (hc : c ∈ s.presentChannels) (pops : List ChannelPop) :
    ((s.bulkTrained pops).store.bulk.getD c { }).training = ((s.channelSpeed pops c).isSome, popRefused pops (dimmsOf pops c),
      if (s.channelSpeed pops c).isSome then s.commonSpeed pops else 0) := by
  rw [← s.contains_goodChannels hc pops]
  exact (foldl_reads (fun u c => (u.store.bulk.getD c { }).training) (fun c => ((s.goodChannels pops).contains c,
    popRefused pops (dimmsOf pops c), if (s.goodChannels pops).contains c then s.commonSpeed pops else 0))
    (fun u j c => by rw [u.channelTrained_training]) _ s c).trans (if_pos hc)

/-- The state at step bulk, before a committed set is applied again. -/
def State.bulkReached (s : State) (pops : List ChannelPop) : State :=
  (s.bulkTrained pops).reach (s.keepsList s.store.bulkMap) (fun st => { st with bulkMap := s.goodChannels pops }) .bulk

theorem State.bulkReached_beside (s : State) (pops : List ChannelPop) : (s.bulkReached pops).besideTraining =
    { s.besideTraining with boot := { s.boot with step := .bulk } } :=
  s.reach_beside _ _ _ (s.bulkTrained_beside pops)

theorem State.bulkReached_store (s : State) (pops : List ChannelPop) : (s.bulkReached pops).store =
    { s.store with bulk := (s.bulkTrained pops).store.bulk,
                   bulkMap := if s.keepsList s.store.bulkMap then s.store.bulkMap else s.goodChannels pops } := by
  rw [State.bulkReached, State.reach_store, s.bulkTrained_store pops]
  cases s.keepsList s.store.bulkMap <;> rfl

theorem bulkTierTrainedOp_near (h : s.boot.step = .near) (pops : List ChannelPop) : bulkTierTrainedOp pops s =
    (s.bulkReached pops).when (s.reg Reg.rootCfgSeq != 0) State.reapply := by
  have hreg : (s.bulkReached pops).reg Reg.rootCfgSeq = s.reg Reg.rootCfgSeq :=
    State.reg_congr (congrArg (fun u => u.ctl.regs) (s.bulkReached_beside pops) :) _
  rw [bulkTierTrainedOp, if_neg (by simp [h]), ← hreg]
  rfl

theorem bulkTierTrainedOp_elsewhere (h : s.boot.step ≠ .near) (pops : List ChannelPop) : bulkTierTrainedOp pops s = s := by
  rw [bulkTierTrainedOp, if_pos (by simpa using h)]

/-- Settles O14: the channels are trained one by one, BULK_MAP is formed or kept, and a committed set is applied again. -/
theorem bulkTierTraining : Obligations.BulkTierTraining := by
  intro s pops hs
  have hrow : exec (.bulkTierTrained pops) s = .next (settle (bulkTierTrainedOp pops s).progress) := work_clocked hs _
  refine ⟨fun h => by rw [hrow, bulkTierTrainedOp_elsewhere h], fun h => ⟨s.bulkReached pops, ?_, ?_⟩⟩
  · rw [hrow, bulkTierTrainedOp_near h]
    by_cases h0 : s.reg Reg.rootCfgSeq = 0 <;> simp [h0, State.when]
  · have hb := s.bulkReached_beside pops
    rw [State.bulkReached_store]
    refine ⟨(congrArg State.boot hb :), fun c hlt hp => ?_, rfl, rfl, (congrArg State.net hb :), (congrArg State.time hb :),
      (congrArg State.coh hb :), (congrArg State.jobs hb :), (congrArg (fun u => u.ctl.regs) hb :)⟩
    have htr := s.bulkTrained_training (State.mem_presentChannels.mpr ⟨hlt, hp⟩) pops
    rw [Channel.training, Prod.mk.injEq, Prod.mk.injEq, dimmsOf_eq] at htr
    obtain ⟨htrained, hrefused, hspeed⟩ := htr
    refine ⟨htrained, hrefused, fun hsome d v hd hdp hv => ?_⟩
    rw [if_pos hsome] at hspeed
    exact hspeed.le.trans (State.commonSpeed_le (State.mem_presentChannels.mpr ⟨hd, hdp⟩) hv)

end Sys2Proof.Machine
end

section
/-! PROOFS. The store's memory and the timers of extents: the end of a zero fill, the two ends of a revocation, the quotas. -/

namespace Sys2Proof.Machine

variable {s : State}

/-! ### Memory (R102) -/

/-- Settles O47 by the laws of memory. -/
theorem storeMemory : Obligations.StoreMemory := by
  refine ⟨fun s a bs h => ⟨poke_wf h a bs, fun lo hi => zero_wf h lo hi⟩, fun s a x bs => ⟨fun i hi => ?_, fun hx => ?_⟩,
    fun s lo hi x => ⟨fun hlo hhi => ?_, fun hx => ?_⟩,
    fun s a n => ⟨memRead_length _ a n, fun i hi => memRead_get _ a n i hi⟩, reset_memory_wf, fun _ => rfl⟩
  · rw [byte_poke, if_pos (by omega), Nat.add_sub_cancel_left]
  · rw [byte_poke, if_neg (by omega)]
  · rw [byte_zero, if_pos ⟨hlo, hhi⟩]
  · rw [byte_zero, if_neg (by omega)]

/-! ### Extents and quotas: a change to one leaves the others -/

theorem State.extent_onExtent (s : State) (e e' : Nat) (f : Extent → Extent) :
    (s.onExtent e f).extent e' = if e = e' then f (s.extent e) else s.extent e' :=
  getD_put' s.store.extents e e' (f (s.extent e)) { }

theorem State.quota_onQuota (s : State) (t k : Nat) (f : Quota → Quota) :
    (s.onQuota t f).quota k = if t = k then f (s.quota t) else s.quota k :=
  getD_put' s.store.quotas t k (f (s.quota t)) { }

/-! ### The end of a zero fill (R115) -/

/-- The state once a fill has ended, before its source rises. -/
def State.filled (s : State) (e : Nat) : State :=
  ((s.onStore fun st => { st with flawed := st.flawed.filter (fun l => extentOf (l.1 * 64) != e),
                                  corrected := st.corrected.filter (fun l => extentOf (l * 64) != e) }).zero
    (e * 2 ^ 30) ((e + 1) * 2 ^ 30)).onExtent e fun x => { x with filling := false, clean := true }

theorem zeroFillDoneOp_fills {e : Nat} (hf : (s.extent e).filling = true) (hb : s.boot.service = .full) :
    zeroFillDoneOp e s = (s.filled e).raise 200 { arg0 := e + 2 ^ 32 } := by
  rw [zeroFillDoneOp, if_pos (by simp [hf, hb])]
  rfl

theorem zeroFillDoneOp_idle {e : Nat} (h : (s.extent e).filling = false ∨ s.boot.service ≠ .full) : zeroFillDoneOp e s = s := by
  rw [zeroFillDoneOp, if_neg (by simpa [or_iff_not_imp_left] using h)]

theorem State.extent_filled (s : State) (e e' : Nat) : (s.filled e).extent e' =
    if e = e' then { s.extent e with filling := false, clean := true } else s.extent e' :=
  State.extent_onExtent _ e e' _

theorem State.byte_filled (s : State) (e a : Nat) :
    (s.filled e).byte a = if e * 2 ^ 30 ≤ a ∧ a < (e + 1) * 2 ^ 30 then 0 else s.byte a :=
  byte_zero _ _ _ a

theorem State.flawed_filled {e : Nat} {l : Nat × Flaw} (h : l ∈ (s.filled e).store.flawed) : extentOf (l.1 * 64) ≠ e :=
  bne_iff_ne.mp (List.mem_filter.mp h).2

/-! ### The ends of a revocation (R119, Table 4-6) -/

section
variable (s : State) (e : Nat) (st : Status) (ops ash : Nat)

theorem State.extent_revokeEnd (e' : Nat) : (s.revokeEnd e st ops ash).extent e' =
    if e = e' then { s.extent e with st := .revoked } else s.extent e' :=
  State.extent_onExtent s e e' fun x => { x with st := .revoked }

theorem State.revs_revokeEnd : (s.revokeEnd e st ops ash).store.revs.get? e = none :=
  (Tbl.get?_del s.store.revs e e).trans (if_pos rfl)

theorem State.counts_revokeEnd : (s.revokeEnd e st ops ash).ev.counts.getD 200 0 = min (s.ev.counts.getD 200 0 + 1) 0xFFFF :=
  (raise_counts _ 200 200 _).trans (if_pos rfl)

end

theorem State.revokeReady_iff (s : State) (e : Nat) : s.revokeReady e = true ↔
    s.admitted e = 0 ∧ ∀ x ∈ s.coh.dir, extentOf (x.1 * 64) = e → x.2.pendingHolders = false := by
  simp [State.revokeReady]

theorem revokeCompleteOp_ends {e : Nat} {r : Revocation} (hr : s.store.revs.get? e = some r) (hready : s.revokeReady e = true)
    (hw : r.tO.isSome = true ∨ s.coh.rehomeSt ≠ .awaiting ∧ s.coh.rehomeSt ≠ .opened) :
    revokeCompleteOp e s = s.revokeEnd e (if r.timedOut then .timeout else .ok) 0 r.ash := by
  have hwindow : (r.tO.isNone && (s.coh.rehomeSt = .awaiting || s.coh.rehomeSt = .opened)) = false := by
    obtain h | ⟨h1, h2⟩ := hw
    · rw [← Option.not_isSome, h]; rfl
    · simp [h1, h2]
  rw [revokeCompleteOp, hr]
  dsimp only
  rw [hready, hwindow]
  rfl

theorem revokeCompleteOp_waits {e : Nat} (h : s.store.revs.get? e = none ∨ 0 < s.admitted e) : revokeCompleteOp e s = s := by
  unfold revokeCompleteOp
  split
  · rfl
  · next r hr =>
    have hpos : 0 < s.admitted e := h.resolve_left (by simp [hr])
    have hready : s.revokeReady e = false := by
      rw [← Bool.not_eq_true, s.revokeReady_iff]
      exact fun h => absurd h.1 (by omega)
    simp [hready]

/-- At its time a revocation ends, with step 4 of Table 4-6 met by itself or forced by step 5. -/
theorem revokeTimeoutOp_ends {e at_ : Nat} {r : Revocation} (hr : s.store.revs.get? e = some r) (ht : r.tO = some at_)
    (hdue : at_ ≤ s.ran) : ∃ u st ops ash, revokeTimeoutOp e s = State.revokeEnd u e st ops ash := by
  rw [revokeTimeoutOp, hr]
  dsimp only
  rw [ht]
  dsimp only
  by_cases hready : s.revokeReady e = true
  · rw [if_pos (by simp [hdue, hready])]
    exact ⟨_, _, _, _, rfl⟩
  · rw [if_neg (by simp [hready]), if_pos hdue]
    exact ⟨_, _, _, _, rfl⟩

theorem revokeTimeoutOp_early {e at_ : Nat} {r : Revocation} (hr : s.store.revs.get? e = some r) (ht : r.tO = some at_)
    (h : s.ran < at_) : revokeTimeoutOp e s = s := by
  rw [revokeTimeoutOp, hr]
  dsimp only
  rw [ht]
  dsimp only
  rw [if_neg (by simp; omega), if_neg (by omega)]

/-! ### Quotas (R121) -/

section
variable {v : BitVec 32}

theorem State.writeQuotaNear_sets (h : v.toNat % 2 ^ 20 = 0xFFFFF ∨ v.toNat % 2 ^ 20 ≤ s.nearExtents) : (s.writeQuotaNear v).2 =
    s.onQuota (s.reg Reg.tmQuotaSel % 4096) fun q => { q with near := v.toNat % 2 ^ 20 } := by
  rw [State.writeQuotaNear, if_neg (by simp only [Bool.and_eq_true, bne_iff_ne, decide_eq_true_eq]; omega)]

theorem State.writeQuotaNear_refused (h : v.toNat % 2 ^ 20 ≠ 0xFFFFF) (hn : s.nearExtents < v.toNat % 2 ^ 20) :
    (s.writeQuotaNear v).2 = s := by
  rw [State.writeQuotaNear, if_pos (by simp only [Bool.and_eq_true, bne_iff_ne, decide_eq_true_eq]; exact ⟨h, hn⟩)]

theorem State.writeQuotaBulk_sets (h : v.toNat % 2 ^ 20 = 0xFFFFF ∨ s.bulkExtents = 0 ∨ v.toNat % 2 ^ 20 ≤ s.bulkExtents) :
    (s.writeQuotaBulk v).2 = s.onQuota (s.reg Reg.tmQuotaSel % 4096) fun q => { q with bulk := v.toNat % 2 ^ 20 } := by
  rw [State.writeQuotaBulk, if_neg (by simp only [Bool.and_eq_true, bne_iff_ne, decide_eq_true_eq]; omega)]

theorem State.writeQuotaBulk_refused (h : v.toNat % 2 ^ 20 ≠ 0xFFFFF) (h0 : s.bulkExtents ≠ 0) (hn : s.bulkExtents < v.toNat % 2 ^ 20) :
    (s.writeQuotaBulk v).2 = s := by
  rw [State.writeQuotaBulk, if_pos (by simp only [Bool.and_eq_true, bne_iff_ne, decide_eq_true_eq]; exact ⟨⟨h, h0⟩, hn⟩)]

end

/-- What setting a field of one tenant's quota leaves of the quotas. -/
theorem State.onQuota_quotas (s : State) (sel : Nat) (f : Quota → Quota) :
    (s.onQuota sel f).quota sel = f (s.quota sel) ∧ ∀ k, k ≠ sel → (s.onQuota sel f).quota k = s.quota k :=
  ⟨by rw [State.quota_onQuota, if_pos rfl], fun k hk => by rw [State.quota_onQuota, if_neg hk.symm]⟩

/-- Settles O48: each row by its operation where it is due, and where it is not the row leaves the state as it is. -/
theorem extentTimers : Obligations.ExtentTimers := by
  intro s hs ok
  have hfill (e : Nat) : exec (.zeroFillDone e) s = ok (zeroFillDoneOp e s) := work_clocked hs _
  have hcomplete (e : Nat) : exec (.revokeComplete e) s = ok (revokeCompleteOp e s) := work_clocked hs _
  have htimeout (e : Nat) : exec (.revokeTimeout e) s = ok (revokeTimeoutOp e s) := work_clocked hs _
  have hnear (v : BitVec 32) : exec (.quotaNear v) s = .next (settle (s.writeQuotaNear v).2) :=
    act_clocked hs fun s => (s.writeQuotaNear v).2
  have hbulk (v : BitVec 32) : exec (.quotaBulk v) s = .next (settle (s.writeQuotaBulk v).2) :=
    act_clocked hs fun s => (s.writeQuotaBulk v).2
  refine ⟨fun e hf hb => ?_, fun e h => ?_, fun e r hr h0 hdir hw => ?_, fun e h => ?_,
    fun e r at_ hr ht => ⟨fun hdue => ?_, fun hearly => ?_⟩, fun v => ⟨fun h => ?_, fun h hn => ?_, fun h => ?_, fun h h0 hn => ?_⟩⟩
  · refine ⟨_, (hfill e).trans (congrArg ok (zeroFillDoneOp_fills hf hb)), (s.extent_filled e e).trans (if_pos rfl),
      fun e' he => (s.extent_filled e e').trans (if_neg he.symm), fun a hlo hhi => (s.byte_filled e a).trans (if_pos ⟨hlo, hhi⟩),
      fun a ha => (s.byte_filled e a).trans (if_neg (by omega)), fun l hl => State.flawed_filled hl,
      (raise_counts _ 200 200 _).trans (if_pos rfl)⟩
  · rw [hfill, zeroFillDoneOp_idle h]
  · have hends := revokeCompleteOp_ends hr ((s.revokeReady_iff e).mpr ⟨h0, hdir⟩) hw
    exact ⟨_, (hcomplete e).trans (congrArg ok hends), (s.extent_revokeEnd e _ _ _ e).trans (if_pos rfl),
      fun e' he => (s.extent_revokeEnd e _ _ _ e').trans (if_neg he.symm), s.revs_revokeEnd e _ _ _, rfl, s.counts_revokeEnd e _ _ _⟩
  · rw [hcomplete, revokeCompleteOp_waits h]
  · obtain ⟨u, st, ops, ash, hends⟩ := revokeTimeoutOp_ends hr ht hdue
    refine ⟨_, (htimeout e).trans (congrArg ok hends), ?_, u.revs_revokeEnd e st ops ash⟩
    rw [u.extent_revokeEnd, if_pos rfl]
  · rw [htimeout, revokeTimeoutOp_early hr ht hearly]
  · exact ⟨_, (hnear v).trans (by rw [State.writeQuotaNear_sets h]), s.onQuota_quotas _ _⟩
  · rw [hnear, State.writeQuotaNear_refused h hn]
  · exact ⟨_, (hbulk v).trans (by rw [State.writeQuotaBulk_sets h]), s.onQuota_quotas _ _⟩
  · rw [hbulk, State.writeQuotaBulk_refused h h0 hn]

end Sys2Proof.Machine
end

section
/-! PROOFS. The extent commands (R114, R382, R383): the row is the write of EXT_CMD, each command's own checks and effect, and
what is carried to the partner. -/

namespace Sys2Proof.Machine

variable {s : State} {cmd e arg : Nat}

/-! ### The row is the write of EXT_CMD -/

/-- A write that an owner of the page's unit takes is the owner's. -/
theorem State.writeAt_owned {page off v : Nat} {u : UnitRef} {r : RegDef} {k : Nat} (hu : unitOf page = some u)
    (hr : findReg page off = some (r, k)) (hp : s.present page = true) (hoff : 0x40 ≤ off) (hty : u.ty ≠ .drill)
    {wait : Option (Nat × Frame)} {w : Wrote × State} (hown : s.writeOwn wait u page (page * 4096 + off) v = some w) :
    s.writeAt wait page off v = w := by
  have hctrl : off ≠ 0x14 := by omega
  have hlow : ¬off < 0x40 := by omega
  have hlapse : s.when (u.ty = .drill && drillStaging off) State.drillLapse = s := by simp [State.when, hty]
  simp only [State.writeAt, hu, hr, hp, hctrl, hlapse, hlow, hown, Bool.not_true, Bool.false_eq_true, if_false]

/-- An extent command of Table 4-5 acts on the registers as they stand. -/
theorem State.extRow_eq (hp : s.present (tmPage 0) = true) (hlo : 1 ≤ cmd) (hhi : cmd < 6) :
    s.extRow cmd = (s.extCommand cmd (s.reg Reg.tmExtSel % 2 ^ 17) (s.reg Reg.tmExtArg) none).2 := by
  have hu : unitOf (tmPage 0) = some ⟨.tierManager, 0, 0, 1⟩ := by decide
  have hr : findReg (tmPage 0) 0x7C = some ({ off := 0x7C, acc := .wo }, 0x7C) := by decide
  have hmod : cmd % 8 = cmd := Nat.mod_eq_of_lt (by omega)
  have hown : s.writeOwn none ⟨.tierManager, 0, 0, 1⟩ (tmPage 0) (tmPage 0 * 4096 + 0x7C) cmd =
      some ({ defer := !(s.extCommand cmd (s.reg Reg.tmExtSel % 2 ^ 17) (s.reg Reg.tmExtArg) none).1 },
        (s.extCommand cmd (s.reg Reg.tmExtSel % 2 ^ 17) (s.reg Reg.tmExtArg) none).2) := by
    change s.writeTier none Reg.tmExtCmd cmd = _
    rw [State.writeTier, if_pos rfl, if_neg (by simp; omega), hmod]
  rw [State.extRow, State.writeRow, State.writeAt_owned hu hr hp (by omega) (by simp) hown]
  rfl

/-- The rows of the five commands, with their codes. -/
def extRows : List (Instr × Nat) := [(.grant, 1), (.revoke, 2), (.release, 3), (.addRights, 4), (.setDrill, 5)]

theorem extRows_exec {row : Instr} (h : (row, cmd) ∈ extRows) (s : State) :
    exec row s = work s (fun s => s.extRow cmd) ∧ 1 ≤ cmd ∧ cmd < 6 := by
  simp only [extRows, List.mem_cons, Prod.mk.injEq, List.not_mem_nil, or_false] at h
  obtain ⟨rfl, rfl⟩ | ⟨rfl, rfl⟩ | ⟨rfl, rfl⟩ | ⟨rfl, rfl⟩ | ⟨rfl, rfl⟩ := h <;> exact ⟨rfl, by decide, by decide⟩

/-! ### A command on this device alone (Table 4-5) -/

/-- With any status but OK the extents stand as they did. -/
def State.RefusesClean (s : State) (r : Status × State) : Prop := r.1 ≠ .ok → r.2.store.extents = s.store.extents

theorem State.RefusesClean.ok (u : State) : s.RefusesClean (.ok, u) := fun h => absurd rfl h

theorem State.RefusesClean.same {u : State} (h : u.store.extents = s.store.extents) (st : Status) : s.RefusesClean (st, u) := fun _ => h

theorem State.RefusesClean.ite {c : Prop} [Decidable c] {r r' : Status × State} (h : s.RefusesClean r) (h' : s.RefusesClean r') :
    s.RefusesClean (if c then r else r') := by
  split <;> assumption

theorem State.grantExt_clean (s : State) (e arg : Nat) : s.RefusesClean (s.grantExt e arg) :=
  .ite (.same rfl _) (.ite (.same rfl _) (.ite (.same rfl _) (.ite (.same rfl _) (.ite (.same rfl _) (.ite (.same rfl _)
    (.ite (.same rfl _) (.ok _)))))))

theorem State.revokeExt_clean (s : State) (e : Nat) : s.RefusesClean (s.revokeExt e) :=
  .ite (.same rfl _) (.ite (.same rfl _) (.ok _))

theorem State.releaseExt_clean (s : State) (e : Nat) : s.RefusesClean (s.releaseExt e) :=
  .ite (.same rfl _) (.ite (.same rfl _) (.ite (.same rfl _) (.ok _)))

theorem State.extLocal_clean (s : State) (cmd e arg : Nat) : s.RefusesClean (s.extLocal cmd e arg) := by
  unfold State.extLocal
  split
  · exact s.grantExt_clean e arg
  · exact s.revokeExt_clean e
  · exact s.releaseExt_clean e
  · exact .ite (.same rfl _) (.ok _)
  · exact .ite (.same rfl _) (.ok _)
  · exact .same rfl _

/-- Whether a grant of the extent has to fill it (R115). -/
def Extent.NeedsFill (x : Extent) : Prop := x.st = .free ∧ x.clean = false ∧ x.filling = false

theorem Extent.needsFill_iff (x : Extent) : (x.st = .free && !x.clean && !x.filling) = true ↔ x.NeedsFill := by
  simp [Extent.NeedsFill, and_assoc]

/-- GRANT where each check of Table 4-5 passes, of an extent that is not to be mirrored. -/
theorem State.grantExt_grants {x : Extent} (hx : s.extent e = x) (hst : x.st = .free ∨ x.st = .revoked)
    (hmirror : arg.testBit 18 = false) (hpolicy : bits arg 21 20 = 0 ∨ 16384 ≤ e) (htier : s.tierReady e = true)
    (hbacked : s.backed e = true) (hfull : x.NeedsFill → s.boot.service = .full)
    (hblended : 16384 ≤ e → x.st = .free → s.blendedHeld < s.reg Reg.tmBlendedMax)
    (hactive : x.NeedsFill → e < 16384 → s.extActive < 64)
    (hroom : (x.st = .revoked ∧ x.tenant = (argExtent arg x).tenant) ∨ s.extRoom e (argExtent arg x).tenant = true) :
    s.grantExt e arg = (.ok, if x.st = .free && !x.clean && !x.filling then (s.onExtent e fun _ => argExtent arg x).startFill e
      else s.onExtent e fun _ => argExtent arg x) := by
  have hm : (argExtent arg x).mirrored = false := hmirror
  have hp : ((argExtent arg x).policy != 0 && !decide (16384 ≤ e)) = false := by
    obtain h | h := hpolicy
    · rw [show (argExtent arg x).policy = 0 from h]; rfl
    · simp [h]
  rw [← x.needsFill_iff] at hfull hactive
  rw [State.grantExt, hx]
  dsimp only
  rw [if_neg (by obtain h | h := hst <;> simp [h]), hm, hp, if_neg (by simp), if_neg (by simp [htier]), if_neg (by simp [hbacked]),
    if_neg, if_neg, if_neg]
  · obtain ⟨h, h'⟩ | h := hroom
    · simp [h, h']
    · simp [h]
  · simp only [Bool.or_eq_true, Bool.and_eq_true, decide_eq_true_eq, Bool.not_eq_true', decide_eq_false_iff_not] at hactive ⊢
    rintro (⟨⟨hb, hf⟩, hle⟩ | ⟨⟨hn, hb⟩, hle⟩)
    · have := hblended hb hf; omega
    · have := hactive hn (by omega); omega
  · rintro h
    rw [Bool.and_eq_true, bne_iff_ne] at h
    exact h.2 (hfull h.1)

theorem State.revokeExt_revokes (hst : (s.extent e).st = .granted) (hroom : 64 ≤ s.extActive → (s.extent e).filling = true) :
    s.revokeExt e = (.ok, State.recallLines ((s.onExtent e fun x => { x with st := .revoking }).onStore fun st =>
      { st with revs := st.revs.put e { tO := some (s.ran + (s.onExtent e fun x => { x with st := .revoking }).reg Reg.tmRevokeTimeout * 1000000) } })
      .revoke fun line x => extentOf (line * 64) = e && x.pendingHolders) := by
  rw [State.revokeExt, if_neg (by simp [hst]), if_neg (by simpa using hroom)]
  rfl

theorem State.releaseExt_releases (hst : (s.extent e).st = .revoked) (hfull : s.boot.service = .full)
    (hroom : e < 16384 → 64 ≤ s.extActive → (s.extent e).filling = true) :
    s.releaseExt e = (.ok, (s.onExtent e fun x => { filling := x.filling, clean := x.clean }).startFill e) := by
  have hbusy : ¬(e < 16384 && !(s.extent e).filling && 64 ≤ s.extActive) = true := by
    simp only [Bool.and_eq_true, decide_eq_true_eq, Bool.not_eq_true']
    rintro ⟨⟨he, hf⟩, ha⟩
    rw [hroom he ha] at hf
    cases hf
  rw [State.releaseExt]
  dsimp only
  rw [if_neg (by simp [hst]), if_neg (by simp [hfull]), if_neg hbusy]

theorem State.addRightsExt_adds (hst : (s.extent e).st = .granted)
    (hcache : (s.extent e).mirrored = true → arg.testBit 15 = true → (s.extent e).cache = true) :
    s.addRightsExt e arg = (.ok, s.onExtent e fun x => { x with
      read := x.read || bit arg 12, write := x.write || bit arg 13, atomic := x.atomic || bit arg 14, cache := x.cache || bit arg 15 }) := by
  rw [State.addRightsExt, if_neg (by simpa [hst, bit] using hcache)]

theorem State.setDrillExt_sets (hst : (s.extent e).st = .granted ∨ (s.extent e).st = .revoked) :
    s.setDrillExt e arg = (.ok, s.onExtent e fun x => { x with drillOk := bit arg 19 }) := by
  rw [State.setDrillExt, if_neg (by obtain h | h := hst <;> simp [h])]

/-! ### A command of a mirrored extent goes to the partner first (R383) -/

/-- Whether a command is about a mirrored extent: one that is, or a grant that makes it so. -/
def State.MirroredCmd (s : State) (cmd e arg : Nat) : Prop :=
  ((s.extent e).mirrored = true ∧ (s.extent e).st ≠ .free) ∨ (cmd = 1 ∧ arg.testBit 18 = true)

theorem State.mirroredCmd_iff (s : State) (cmd e arg : Nat) :
    (((s.extent e).mirrored && (s.extent e).st != .free) || (cmd = 1 && bit arg 18)) = true ↔ s.MirroredCmd cmd e arg := by
  simp [State.MirroredCmd, bit]

section
variable {wait : Option (Nat × Frame)}

theorem State.extCommand_local (h : ¬s.MirroredCmd cmd e arg) : s.extCommand cmd e arg wait =
    (true, (if (s.extLocal cmd e arg).1 = .ok then (s.extLocal cmd e arg).2.leaseSync e else (s.extLocal cmd e arg).2).extResult
      (s.extLocal cmd e arg).1) := by
  rw [← s.mirroredCmd_iff, Bool.not_eq_true] at h
  rw [State.extCommand]
  dsimp only
  rw [h, if_pos (by simp)]

variable (h : s.MirroredCmd cmd e arg) (hok : (s.extLocal cmd e arg).1 = .ok)
include h hok

theorem State.extCommand_busy (hl : (s.twin.leases.get? e).map (fun l => l.st) = some .lost ∨
      ((s.twin.leases.get? e).map (fun l => l.st) ≠ some .solo ∧ s.twinOpen = false)) :
    s.extCommand cmd e arg wait = (true, s.extResult .busy) := by
  rw [← s.mirroredCmd_iff] at h
  rw [State.extCommand]
  dsimp only
  rw [h, hok, if_neg (by simp)]
  split
  · rfl
  · next hsolo => simp [hsolo] at hl
  · next hlost _ =>
    rw [if_pos (by simp [(hl.resolve_left hlost).2])]

theorem State.extCommand_carried (hlost : (s.twin.leases.get? e).map (fun l => l.st) ≠ some .lost)
    (hsolo : (s.twin.leases.get? e).map (fun l => l.st) ≠ some .solo) (hopen : s.twinOpen = true) :
    s.extCommand cmd e arg wait = (false, State.sendTwin (s.onTwin fun t =>
      { t with carried := t.carried ++ [{ extent := e, cmd := cmd, arg := arg, wait := wait }] })
      (twinFrame 0x50 e (s.lease e).gen 0 0 noKey 0 (beBytes 1 cmd ++ [0, 0, 0] ++ beBytes 4 arg))) := by
  rw [← s.mirroredCmd_iff] at h
  rw [State.extCommand]
  dsimp only
  rw [h, hok, if_neg (by simp)]
  split
  · next hl => exact absurd hl hlost
  · next hl => exact absurd hl hsolo
  · rw [if_neg (by simp [hopen])]
    rfl

end

/-- Settles O46: a row is the command that it writes, taken here or carried, and the command's effect is its own function's. BUSY
without an open twin connection outside LOST is the model's (log entry 56). -/
theorem extentCommands : Obligations.ExtentCommands := by
  intro s hs hp e arg x ok result carried rows
  have hrow {row : Instr} {cmd : Nat} (h : (row, cmd) ∈ rows) : exec row s = ok (s.extCommand cmd e arg none).2 := by
    obtain ⟨hexec, hlo, hhi⟩ := extRows_exec h s
    rw [hexec, work_clocked hs, State.extRow_eq hp hlo hhi]
  refine ⟨fun row cmd hmem hcarried hgrant => ⟨?_, s.extLocal_clean cmd e arg⟩,
    fun row cmd hmem hcarried hok => ⟨fun hl => ?_, fun hlost hsolo hopen => ?_⟩,
    ⟨⟨rfl, rfl, rfl, rfl, rfl, rfl, rfl, rfl, rfl, rfl, rfl⟩,
      fun hst hmirror hpolicy htier hbacked hfull hblended hactive hroom => ?_⟩,
    State.revokeExt_revokes, State.releaseExt_releases, State.addRightsExt_adds, State.setDrillExt_sets, fun cmd h => ?_⟩
  · have hlocal : ¬s.MirroredCmd cmd e arg := fun h => h.elim hcarried fun h => by rw [hgrant h.1] at h; exact absurd h.2 (by simp)
    rw [hrow hmem, State.extCommand_local hlocal]
    rfl
  · rw [hrow hmem, State.extCommand_busy hcarried hok hl]
    rfl
  · rw [hrow hmem, State.extCommand_carried hcarried hok hlost hsolo hopen]
  · have hgrants : s.extLocal 1 e arg = _ :=
      State.grantExt_grants rfl hst hmirror hpolicy htier hbacked hfull hblended hactive hroom
    rw [hgrants]
    exact ⟨rfl, fun hfill => if_pos (x.needsFill_iff.mpr hfill), fun hfill => if_neg (mt x.needsFill_iff.mp hfill)⟩
  · have hunused : exec (.extCmdUnused cmd) s = ok (if cmd % 8 = 0 || 6 ≤ cmd % 8 then s.extResult .unsupported else s) :=
      work_clocked hs fun s => if cmd % 8 = 0 || 6 ≤ cmd % 8 then s.extResult .unsupported else s
    rw [hunused, if_pos (by simpa using h)]
    rfl

end Sys2Proof.Machine
end

section
/-! PROOFS. Forced warm resets: what stands when the reset of a fatal raise begins, and the two expiries of the watchdog. -/

namespace Sys2Proof.Machine

variable {s : State} {cause : Nat}

/-! ### A device-fatal raise (R438) -/

/-- A fatal raise is latched: its source and the TIME of the raise. -/
def State.fatalLatched (s : State) (cause : Nat) : State :=
  ((s.setReg Reg.ecFatalLast (2 ^ 31 + cause)).setReg Reg.ecFatalTime s.now).raise cause

/-- The state in which the reset of a fatal raise begins: the raise is latched, its record and its beacon have gone out where they
could. -/
def State.fatalRaised (s : State) (cause : Nat) : State :=
  (eventRecordOp (s.fatalLatched cause)).when
    (!decide ((s.fatalLatched cause).ringUsed = 0) && (eventRecordOp (s.fatalLatched cause)).canRecord) State.beacon

theorem deviceFatalOp_fatal (h : cause < 2) : deviceFatalOp cause s = (s.fatalRaised cause).warmReset 6 true := by
  rw [deviceFatalOp, if_neg (Nat.not_le.mpr h)]; rfl

theorem State.fatalRaised_base (s : State) (cause : Nat) : KeepBase s (s.fatalRaised cause) := by
  have hrec : KeepBase s (eventRecordOp (s.fatalLatched cause)) := record_base _
  rw [State.fatalRaised, State.when]
  split
  · obtain ⟨hboot, hext⟩ := beacon_base (eventRecordOp (s.fatalLatched cause))
    exact ⟨hboot.trans hrec.1, hext.trans hrec.2⟩
  · exact hrec

/-- A register that neither a record nor a beacon writes reads what the raise latched. -/
theorem State.fatalRaised_reg (s : State) (cause : Nat) {a : Nat} (hsent : Reg.ecBeaconsSent ≠ a) (htail : Reg.ecEvTail ≠ a)
    (hover : Reg.ecEvOverflow ≠ a) (heffects : Reg.drDrillEffects ≠ a) (hpage : a < 0x2000 * 4096) :
    (s.fatalRaised cause).reg a = ((s.setReg Reg.ecFatalLast (2 ^ 31 + cause)).setReg Reg.ecFatalTime s.now).reg a := by
  have hrec := reg_record (s.fatalLatched cause) a hsent htail hover heffects hpage
  rw [State.fatalRaised, State.when]
  split
  · exact (reg_beacon _ _ hsent heffects hpage).trans hrec
  · exact hrec

theorem State.fatalRaised_last (s : State) (h : cause < 2) : (s.fatalRaised cause).reg Reg.ecFatalLast = 2 ^ 31 + cause := by
  rw [s.fatalRaised_reg cause (by decide) (by decide) (by decide) (by decide) (by decide), State.reg_setReg, if_neg (by decide),
    State.reg_setReg, if_pos rfl]
  omega

theorem State.fatalRaised_time (s : State) (cause : Nat) : (s.fatalRaised cause).reg Reg.ecFatalTime = s.now % 2 ^ 64 := by
  rw [s.fatalRaised_reg cause (by decide) (by decide) (by decide) (by decide) (by decide), State.reg_setReg, if_pos rfl]

/-! ### WATCHDOG_EXPIRY (R415) -/

/-- Whether the controller has been restarted within the last 10 s. -/
def State.restartedLately (s : State) : Bool := s.boot.lastRestart.any fun t => !s.since t 10000000000

theorem watchdogExpiryOp_running (hrun : s.adithRuns = true) : watchdogExpiryOp s =
    if s.restartedLately then (s.bump Reg.mgWdExpiries).warmReset 5 true
    else ((s.bump Reg.mgWdExpiries).onBoot fun b => { b with lastRestart := some (s.bump Reg.mgWdExpiries).ran }).adithRestart := by
  rw [watchdogExpiryOp, hrun]
  exact if_neg Bool.false_ne_true

theorem State.restartedLately_of (h : ∃ r, s.boot.lastRestart = some r ∧ s.since r 10000000000 = false) : s.restartedLately = true := by
  obtain ⟨r, hr, hsince⟩ := h
  rw [State.restartedLately, hr, Option.any_some, hsince]
  rfl

theorem State.not_restartedLately_of (h : ∀ r, s.boot.lastRestart = some r → s.since r 10000000000 = true) : s.restartedLately = false := by
  rw [State.restartedLately]
  cases hr : s.boot.lastRestart with
  | none => rfl
  | some r => rw [Option.any_some, h r hr]; rfl

/-- Settles O10: the reset of a fatal raise keeps the two latched registers, and each expiry of the watchdog is the one the time
since the last restart makes it. -/
theorem forcedWarmResets : Obligations.ForcedWarmResets := by
  intro s hs
  refine ⟨fun cause hc => ?_, fun hrun h => ?_, fun hrun h => ?_⟩
  · obtain ⟨hboot, hext⟩ := s.fatalRaised_base cause
    have hw := (warm_started (s.fatalRaised cause) 6 true).1
    have hkept (a : Nat) (hwarm : warmReg a = true) (hcount : a ≠ Reg.mgResetCount) (heffects : Reg.drDrillEffects ≠ a)
        (hpage : a < 0x2100 * 4096) := warm_reg (s.fatalRaised cause) 6 true a hwarm hcount heffects hpage
    refine ⟨_, ?_, hw.rom, hw.kind, hw.saved, ?_, hw.conns, hw.work.1, hw.work.2, hw.rehome.2, ?_, ?_, ?_⟩
    · change act s (deviceFatalOp cause) = _
      rw [act_clocked hs, deviceFatalOp_fatal hc, settle_rom hw.rom]
    · rw [hw.incarn, hboot]
    · rw [hw.extents, hext]
    · rw [hkept _ (by decide +kernel) (by decide) (by decide) (by decide), s.fatalRaised_last hc]
    · rw [hkept _ (by decide +kernel) (by decide) (by decide) (by decide), s.fatalRaised_time]
  · have hw := (warm_started (s.bump Reg.mgWdExpiries) 5 true).1
    refine ⟨_, ?_, hw⟩
    change act s watchdogExpiryOp = _
    rw [act_clocked hs, watchdogExpiryOp_running hrun, if_pos (State.restartedLately_of h), settle_rom hw.rom]
  · change act s watchdogExpiryOp = _
    rw [act_clocked hs, watchdogExpiryOp_running hrun, if_neg (by rw [State.not_restartedLately_of h]; exact Bool.false_ne_true)]
    rfl

end Sys2Proof.Machine
end

section
/-! PROOFS. Answers to home messages: which frames are answers, what an answer does to the message it names, and the two that name
a forward by its request or by the device's own number. -/

namespace Sys2Proof.Machine

variable {s : State} {c : Nat} {k : Conn} {f : Frame}

/-! ### Frames that answer (Table 5-4) -/

theorem asAck_type (kind : Nat) (resp : Bool) (rx : Rx) : (asAck kind resp rx).f.ty = 0x1B := type_ty 0x1B resp rx

theorem asAck_resp (kind : Nat) (resp : Bool) (rx : Rx) : has (asAck kind resp rx).f fResp = resp := type_resp 0x1B resp rx

theorem asAck_kind {kind : Nat} (h : kind < 64) (resp : Bool) (rx : Rx) : (asAck kind resp rx).f.addr.toNat % 64 = kind := by
  have haddr (a : BitVec 64) : (a &&& ~~~0x3F#64 ||| BitVec.ofNat 64 kind).setWidth 6 = BitVec.ofNat 6 kind := by
    rw [BitVec.setWidth_or, BitVec.setWidth_and, show (~~~0x3F#64).setWidth 6 = 0#6 from rfl]
    simp
  have hnat := congrArg BitVec.toNat (haddr (asType 0x1B resp rx).f.addr)
  rw [BitVec.toNat_setWidth, BitVec.toNat_ofNat] at hnat
  exact hnat.trans (Nat.mod_eq_of_lt h)

section
variable {port : Nat} (hk : s.conn? c = some k)
include hk

theorem State.takeSeq_ack {kind : AnsKind} (hty : f.ty = 0x1B) (hr : has f fResp = true) (hkind : ackKind f = some kind) :
    s.takeSeq c port f = s.takeAnswer k.agent f.opId.toNat kind [] := by
  simp [State.takeSeq, hk, hty, hr, hkind]

theorem State.takeSeq_data (hty : f.ty = 0x1A) (hr : has f fResp = true) :
    s.takeSeq c port f = s.takeAnswer k.agent f.opId.toNat .data f.payload := by
  simp [State.takeSeq, hk, hty, hr]

theorem State.takeSeq_recvDone (hty : f.ty = 0x1B) (hr : has f fResp = false) (hkind : f.addr.toNat % 64 = 3) :
    s.takeSeq c port f = s.takeRecvDone c f.opId := by
  simp [State.takeSeq, hk, hty, hr, hkind]

end

/-! ### The rows of answers -/

/-- The rows that answer a home message, each with its frame. -/
def answerRows (rx : Rx) : List (Instr × Rx) :=
  [(.invAck rx, asAck 1 true rx), (.fwdDone rx, asAck 2 true rx), (.recallAck rx, asAck 4 true rx), (.noData rx, asAck 5 true rx),
    (.dataAnswer rx, asFlag fUnseq false (asType 0x1A true rx))]

/-- The kind of answer that such a row is. -/
def answerKind : Instr → AnsKind
  | .invAck _ => .invAck
  | .fwdDone _ => .fwdDone
  | .recallAck _ => .recallAck
  | .noData _ => .noData
  | _ => .data

/-- What an answer of a kind brings. -/
def answerData : AnsKind → Frame → List Byte
  | .data, f => f.payload
  | _, _ => []

section
variable {rx r : Rx} {row : Instr} (h : (row, r) ∈ answerRows rx)
include h

theorem answerRows_cases : (row = .invAck rx ∧ r = asAck 1 true rx) ∨ (row = .fwdDone rx ∧ r = asAck 2 true rx) ∨
    (row = .recallAck rx ∧ r = asAck 4 true rx) ∨ (row = .noData rx ∧ r = asAck 5 true rx) ∨
    (row = .dataAnswer rx ∧ r = asFlag fUnseq false (asType 0x1A true rx)) := by
  simpa only [answerRows, List.mem_cons, Prod.mk.injEq, List.not_mem_nil, or_false] using h

theorem answerRows_exec (s : State) : exec row s = work s fun s => s.rxFrame r := by
  obtain ⟨rfl, rfl⟩ | ⟨rfl, rfl⟩ | ⟨rfl, rfl⟩ | ⟨rfl, rfl⟩ | ⟨rfl, rfl⟩ := answerRows_cases h <;> rfl

theorem answerRows_taken (hk : s.conn? c = some k) (port : Nat) :
    s.takeSeq c port r.f = s.takeAnswer k.agent r.f.opId.toNat (answerKind row) (answerData (answerKind row) r.f) := by
  have hack {kind : Nat} {ans : AnsKind} (hlt : kind < 64) (hans : ∀ f : Frame, f.addr.toNat % 64 = kind → ackKind f = some ans) :=
    State.takeSeq_ack hk (port := port) (asAck_type kind true rx) (asAck_resp kind true rx) (hans _ (asAck_kind hlt true rx))
  obtain ⟨rfl, rfl⟩ | ⟨rfl, rfl⟩ | ⟨rfl, rfl⟩ | ⟨rfl, rfl⟩ | ⟨rfl, rfl⟩ := answerRows_cases h
  · exact hack (by decide) fun f hf => by rw [ackKind, hf]; rfl
  · exact hack (by decide) fun f hf => by rw [ackKind, hf]; rfl
  · exact hack (by decide) fun f hf => by rw [ackKind, hf]; rfl
  · exact hack (by decide) fun f hf => by rw [ackKind, hf]; rfl
  · exact State.takeSeq_data hk ((flag_ty _ _ _).trans (type_ty _ _ _))
      ((as_has_ne _ _ _ _ (by decide) (by decide)).trans (type_resp _ _ _))

end

/-! ### What an answer does to the message it names (R142, R149, Table 5-6) -/

section
variable {agent id line : Nat} {m : HomeMsg} {data : List Byte}

theorem State.takeAnswer_unknown (hm : s.findMsg id = none) (hl : ∀ e ∈ s.coh.loose, e.2.opId ≠ id) (ans : AnsKind) :
    s.takeAnswer agent id ans data = s := by
  have hnone : s.coh.loose.find? (fun e => e.2.opId = id) = none := List.find?_eq_none.mpr (by simpa using hl)
  simp only [State.takeAnswer, hm, State.looseAnswer, hnone]

section
variable (hm : s.findMsg id = some (line, m))
include hm

theorem State.takeAnswer_foreign (ht : m.target ≠ agent) (ans : AnsKind) : s.takeAnswer agent id ans data = s.protoErr line := by
  simp [State.takeAnswer, hm, ht]

section
variable (ht : m.target = agent)
include ht

theorem State.takeAnswer_invAck : s.takeAnswer agent id .invAck data =
    if m.kind = .inv then State.run ((s.markAnswered line id).advance line) else s.protoErr line := by
  cases hkind : m.kind <;> simp [State.takeAnswer, hm, ht, hkind]

theorem State.takeAnswer_fwdDone : s.takeAnswer agent id .fwdDone data =
    if m.kind = .fwdS ∨ m.kind = .fwdM then
      State.run (((s.markAnswered line id).onTxn line fun t => { t with fwdDone := true, fwdDoneAt := some s.ran }).advance line)
    else s.protoErr line := by
  cases hkind : m.kind <;> simp [State.takeAnswer, hm, ht, hkind]

theorem State.takeAnswer_recallAck : s.takeAnswer agent id .recallAck data =
    if m.kind = .recall then State.run ((s.markAnswered line id).advance line)
    else if m.kind = .fetch then State.run ((s.protoErr line).txnAsh line 3 agent)
    else s.protoErr line := by
  cases hkind : m.kind <;> simp [State.takeAnswer, hm, ht, hkind]

theorem State.takeAnswer_noData : s.takeAnswer agent id .noData data =
    if (m.kind = .fwdS ∨ m.kind = .fwdM) ∨ m.kind = .fetch then State.run ((s.protoErr line).txnAsh line 3 agent)
    else s.protoErr line := by
  cases hkind : m.kind <;> simp [State.takeAnswer, hm, ht, hkind]

theorem State.takeAnswer_data : s.takeAnswer agent id .data data =
    if m.kind = .recall then
      State.run (((s.writeInLine (line * 64) (slice data 0 64)).markAnswered line id).advance line)
    else if m.kind = .fetch then
      State.run ((((s.writeInLine (line * 64) (slice data 0 64)).onTxn line fun t =>
        { t with got := some (slice data 0 64) }).markAnswered line id).advance line)
    else s.protoErr line := by
  cases hkind : m.kind <;> simp [State.takeAnswer, hm, ht, hkind]

end
end
end

/-! ### Forwards that are named by their request or by the device's own number (R145, R151) -/

/-- Whether an entry's forward waits for RECV_DONE of a connection's request. -/
def State.awaitsRecv (s : State) (c : Nat) (id : BitVec 32) (e : Nat × DirEntry) : Bool :=
  e.2.txn.any fun t => t.kind = .forwarding && (s.op? t.req.op).any fun o => o.conn = c && o.f.opId = id

/-- Whether an entry's forward is the device's own, of a number. -/
def awaitsDirect (id : Nat) (e : Nat × DirEntry) : Bool :=
  e.2.txn.any fun t => t.kind = .forwarding && t.selfFwd = some id

/-- A search that answers g of an element exactly where p holds finds g of the first such element. -/
theorem findSome?_of_guard {α β : Type} {f : α → Option β} {p : α → Bool} {g : α → β} (h : ∀ a, f a = (Option.guard p a).map g)
    (l : List α) : l.findSome? f = (l.find? p).map g := by
  rw [← List.findSome?_guard, List.map_findSome?]
  exact congrArg (l.findSome? ·) (funext h)

theorem State.takeRecvDone_eq (s : State) (c : Nat) (id : BitVec 32) : s.takeRecvDone c id =
    (s.coh.dir.find? (s.awaitsRecv c id)).elim s fun e =>
      State.run ((s.onTxn e.1 fun t => { t with recvDone := true }).advance e.1) := by
  unfold State.takeRecvDone
  rw [findSome?_of_guard (p := s.awaitsRecv c id) (g := (·.1))]
  · cases s.coh.dir.find? (s.awaitsRecv c id) <;> rfl
  · rintro ⟨line, e⟩
    dsimp only
    cases ht : e.txn with
    | none => simp [Option.guard, State.awaitsRecv, ht]
    | some t => cases ho : s.op? t.req.op <;> simp [Option.guard, State.awaitsRecv, ht, ho, and_assoc, apply_ite]

theorem State.takeDirect_eq (s : State) (id : Nat) (data : List Byte) : s.takeDirect id data =
    (s.coh.dir.find? (awaitsDirect id)).elim s fun e =>
      State.run ((s.onTxn e.1 fun t => { t with recvDone := true, got := some (slice data 0 64) }).closeTxn e.1) := by
  unfold State.takeDirect
  rw [findSome?_of_guard (p := awaitsDirect id) (g := (·.1))]
  · cases s.coh.dir.find? (awaitsDirect id) <;> rfl
  · rintro ⟨line, e⟩
    dsimp only
    cases ht : e.txn <;> simp [Option.guard, awaitsDirect, ht, and_comm, apply_ite]

/-- A search by p finds nothing, or an element for which p holds. -/
theorem find?_elim_of_mem {α β : Type} {p : α → Bool} {l : List α} {a : α} (ha : a ∈ l) (hp : p a = true) (b : β) (g : α → β) :
    ∃ x ∈ l, p x = true ∧ (l.find? p).elim b g = g x := by
  obtain ⟨x, hx⟩ := Option.isSome_iff_exists.mp (List.find?_isSome.mpr ⟨a, ha, hp⟩)
  exact ⟨x, List.mem_of_find?_eq_some hx, List.find?_some hx, by rw [hx]; rfl⟩

theorem find?_elim_of_none {α β : Type} {p : α → Bool} {l : List α} (h : ∀ a ∈ l, p a = false) (b : β) (g : α → β) :
    (l.find? p).elim b g = b := by
  rw [List.find?_eq_none.mpr (by simpa using h)]; rfl

/-! ### The rows -/

/-- A frame in its turn leaves its connection standing. -/
theorem State.InTurn.stands {r : Rx} (h : s.InTurn c k r) : ∃ k', (s.turn c r).conn? c = some k' := by
  obtain ⟨k', hk', -⟩ := h.next.stays
  rw [State.turn, State.seated, State.conn?_onConn, if_pos rfl, State.conn?_onConn, if_pos rfl, hk']
  exact ⟨_, rfl⟩

/-- The row of RECV_DONE is its frame in its turn. -/
theorem exec_recvDone {rx : Rx} (h : s.InTurn c k (asAck 3 false rx)) (hc : c ≠ twinConn) : exec (.recvDone rx) s =
    .next (settle (((s.turn c (asAck 3 false rx)).takeRecvDone c (asAck 3 false rx).f.opId).closed c).progress) := by
  obtain ⟨k', hk'⟩ := h.stands
  change work s (fun s => s.rxFrame (asAck 3 false rx)) = _
  rw [work_clocked h.passes.clocked, rxFrame_turn h hc,
    State.takeSeq_recvDone hk' (asAck_type 3 false rx) (asAck_resp 3 false rx) (asAck_kind (by decide) false rx)]

/-- The frame of a direct DATA. -/
def directFrame (rx : Rx) : Rx :=
  let r := asFlag fUnseq true (asType 0x1A true rx)
  { r with f := { r.f with conn := 0xFFFFFF } }

/-- A direct DATA names no connection: it is taken for its number, or answered STALE_INCARNATION. -/
theorem exec_directData {rx : Rx} (h : s.Passes (directFrame rx)) : exec (.directData rx) s =
    .next (settle (if (directFrame rx).f.incarn = (s.counted (directFrame rx)).boot.incarn then
      (s.counted (directFrame rx)).takeDirect (directFrame rx).f.opId.toNat (directFrame rx).f.payload
    else (s.counted (directFrame rx)).sendStale (directFrame rx)).progress) := by
  have hty : (directFrame rx).f.ty = 0x1A := (flag_ty _ _ _).trans (type_ty _ _ _)
  have hun : has (directFrame rx).f fUnseq = true := as_has fUnseq true (asType 0x1A true rx) (by decide)
  have hconn : (directFrame rx).f.conn = 0xFFFFFF := rfl
  change work s (fun s => s.rxFrame (directFrame rx)) = _
  rw [work_clocked h.clocked, rxFrame_passes h, State.rxAccepted]
  simp [hty, hun, hconn, ite_not]

/-- Settles O44: an answer is its frame in its turn, and what it does is said for each kind of answer by the message that it names;
the two searches of the directory find a line that waits, or none. That a direct DATA closes its transaction without FWD_DONE is the
model's (log entry 84). -/
theorem homeAnswers : Obligations.HomeAnswers := by
  intro s c k k' rx r row hc
  refine ⟨?_, ?_, ?_⟩
  · intro u id data after hmem hturn hk
    have hrun : exec row s = after (u.takeAnswer k'.agent id (answerKind row) (answerData (answerKind row) r.f)) := by
      rw [answerRows_exec hmem, work_clocked hturn.passes.clocked, rxFrame_turn hturn hc, answerRows_taken hmem hk]
    refine ⟨fun hm hl => by rw [hrun, State.takeAnswer_unknown hm hl], fun line m hm =>
      ⟨fun ht => by rw [hrun, State.takeAnswer_foreign hm ht], fun ht => ?_⟩⟩
    intro answered lost fwd
    refine ⟨fun hrow => ?_, fun hrow => ?_, fun hrow => ?_, fun hrow => ?_, fun hrow => ?_⟩ <;> subst hrow
    · replace hrun := hrun.trans (congrArg after (State.takeAnswer_invAck hm ht))
      exact ⟨fun h => by rw [hrun, if_pos h], fun h => by rw [hrun, if_neg h]⟩
    · replace hrun := hrun.trans (congrArg after (State.takeAnswer_fwdDone hm ht))
      exact ⟨fun h => by rw [hrun, if_pos h], fun h => by rw [hrun, if_neg h]⟩
    · replace hrun := hrun.trans (congrArg after (State.takeAnswer_recallAck hm ht))
      exact ⟨fun h => by rw [hrun, if_pos h], fun h => by rw [hrun, if_neg (by simp [h]), if_pos h],
        fun h h' => by rw [hrun, if_neg h, if_neg h']⟩
    · replace hrun := hrun.trans (congrArg after (State.takeAnswer_noData hm ht))
      exact ⟨fun h => by rw [hrun, if_pos h], fun h h' => by rw [hrun, if_neg (not_or.mpr ⟨h, h'⟩)]⟩
    · replace hrun := hrun.trans (congrArg after (State.takeAnswer_data hm ht))
      exact ⟨fun h => by rw [hrun, if_pos h]; rfl, fun h => by rw [hrun, if_neg (by simp [h]), if_pos h]; rfl,
        fun h h' => by rw [hrun, if_neg h, if_neg h']⟩
  · intro r u after waits hturn
    have hrun := exec_recvDone hturn hc
    rw [State.takeRecvDone_eq] at hrun
    refine ⟨fun h => hrun.trans (congrArg after (find?_elim_of_none h _ _)), fun e he hw => ?_⟩
    obtain ⟨x, hx, hwx, hfind⟩ := find?_elim_of_mem (p := u.awaitsRecv c r.f.opId) he hw u _
    exact ⟨x.1, ⟨x, hx, rfl, hwx⟩, hrun.trans (congrArg after hfind)⟩
  · intro r u after waits hpass _
    have hrun : exec (.directData rx) s = after (if r.f.incarn = u.boot.incarn then u.takeDirect r.f.opId.toNat r.f.payload
        else u.sendStale r) := exec_directData hpass
    refine ⟨fun h => by rw [hrun, if_neg h], fun h => ?_⟩
    rw [if_pos h, State.takeDirect_eq] at hrun
    refine ⟨fun h => hrun.trans (congrArg after (find?_elim_of_none h _ _)), fun e he hw => ?_⟩
    obtain ⟨x, hx, hwx, hfind⟩ := find?_elim_of_mem (p := awaitsDirect r.f.opId.toNat) he hw u _
    exact ⟨x.1, ⟨x, hx, rfl, hwx⟩, hrun.trans (congrArg after hfind)⟩

end Sys2Proof.Machine
end

section
/-! PROOFS. The waits of coherence, clearing ASH lines, the close of the rehome window, and messages on a peer connection: what
each row's effect comes to where its condition holds and where it does not. -/

namespace Sys2Proof.Machine

variable {s : State} {line : Nat}

/-! ### FWD_WAIT_EXPIRY (R148) -/

section
variable {t : Txn} (ht : (s.entry line).txn = some t)
include ht

theorem fwdWaitExpiryOp_due {at_ : Nat} (hat : t.fwdDoneAt = some at_) (hkind : t.kind = .forwarding) (hrecv : t.recvDone = false)
    (hwait : at_ + bits (s.reg Reg.dsCohCtrl) 7 0 * 10000 ≤ s.ran) : fwdWaitExpiryOp line s = State.run (s.startFetch line) := by
  simp [fwdWaitExpiryOp, ht, hat, hkind, hrecv, State.since, hwait]

theorem fwdWaitExpiryOp_early (h : ¬∃ at_, t.fwdDoneAt = some at_ ∧ t.kind = .forwarding ∧ t.recvDone = false ∧
    at_ + bits (s.reg Reg.dsCohCtrl) 7 0 * 10000 ≤ s.ran) : fwdWaitExpiryOp line s = s := by
  rw [fwdWaitExpiryOp, ht]
  dsimp only
  split
  · next at_ hat =>
    refine if_neg fun hdue => h ⟨at_, hat, ?_⟩
    simpa [State.since, and_assoc] using hdue
  · rfl

end

theorem fwdWaitExpiryOp_none (h : (s.entry line).txn = none) : fwdWaitExpiryOp line s = s := by
  rw [fwdWaitExpiryOp, h]

/-! ### COH_WAIT_EXPIRY (R152) -/

/-- Whether a request is an operation's and has waited COH_WAIT in its line's queue. -/
def State.cohWaited (s : State) (op : Nat) (r : LineReq) : Bool :=
  r.op = op && s.since r.at_ (bits (s.reg Reg.dsCohCtrl) 23 16 * 1000000)

theorem State.cohWaited_iff {op : Nat} {r : LineReq} : s.cohWaited op r = true ↔
    r.op = op ∧ r.at_ + bits (s.reg Reg.dsCohCtrl) 23 16 * 1000000 ≤ s.ran := by
  simp [State.cohWaited, State.since]

/-- A request leaves its line's queue, is counted, and completes its part TIMEOUT. -/
def State.reqTimeout (s : State) (line op : Nat) (r : LineReq) : State :=
  (((s.setEntry line { s.entry line with queue := (s.entry line).queue.filter (· != r) }).bump
    (Reg.dsCohTimeouts (linePage line))).raiseQuiet 275).opLine op line .timeout []

section
variable {op : Nat}

theorem cohWaitExpiryOp_eq (s : State) (line op : Nat) : cohWaitExpiryOp line op s =
    ((s.entry line).queue.find? (s.cohWaited op)).elim s (s.reqTimeout line op) := by
  unfold cohWaitExpiryOp State.cohWaited
  dsimp only
  split
  · next hfind => rw [hfind]; rfl
  · next hfind => rw [hfind]; rfl

/-- The first request of the queue that has waited so long times out. -/
theorem cohWaitExpiryOp_due {r : LineReq} (hr : r ∈ (s.entry line).queue) (hdue : s.cohWaited op r = true) :
    ∃ r' ∈ (s.entry line).queue, s.cohWaited op r' = true ∧ cohWaitExpiryOp line op s = s.reqTimeout line op r' := by
  obtain ⟨r', hfind⟩ := Option.isSome_iff_exists.mp (List.find?_isSome.mpr ⟨r, hr, hdue⟩)
  refine ⟨r', List.mem_of_find?_eq_some hfind, List.find?_some hfind, ?_⟩
  rw [cohWaitExpiryOp_eq, hfind]
  rfl

theorem cohWaitExpiryOp_early (h : ∀ r ∈ (s.entry line).queue, ¬s.cohWaited op r = true) : cohWaitExpiryOp line op s = s := by
  rw [cohWaitExpiryOp_eq, List.find?_eq_none.mpr h]
  rfl

end

/-! ### CLEAR_ASH (R160) -/

/-- A range that CLEAR_ASH takes: aligned, not empty, of at most 16,384 lines, placed, within one extent. -/
def State.AshRange (s : State) (a n : Nat) : Prop :=
  a % 64 = 0 ∧ a < 2 ^ 48 ∧ 1 ≤ n ∧ n ≤ 16384 ∧ s.placed a = true ∧ extentOf a = extentOf (a + 64 * n - 1)

theorem State.ashRange_iff {a n : Nat} : s.AshRange a n ↔
    ¬(a % 64 != 0 || 2 ^ 48 ≤ a || n = 0 || 16384 < n || !s.placed a || extentOf a != extentOf (a + 64 * n - 1)) = true := by
  simp only [State.AshRange, Bool.or_eq_true, bne_iff_ne, decide_eq_true_eq, Bool.not_eq_true', not_or, Decidable.not_not,
    Bool.not_eq_false, Nat.not_le, Nat.not_lt, and_assoc, Nat.one_le_iff_ne_zero, ne_eq]

theorem clearAshOp_refused (h : ¬s.AshRange (s.reg Reg.dsAshClrAddr) (s.reg Reg.dsAshClrLines)) :
    (clearAshOp s).2 = s.setReg Reg.dsAshClrStat (Status.unsupported.code * 2 ^ 8) := by
  rw [clearAshOp]
  dsimp only
  rw [if_pos (Decidable.not_not.mp (mt State.ashRange_iff.mpr h)), Nat.zero_mul, Nat.zero_add]

/-- The ASH lines of a range. -/
def State.ashLines (s : State) (a n : Nat) : List Nat :=
  (s.coh.dir.filter fun e => a / 64 ≤ e.1 && e.1 < a / 64 + n && e.2.st = .ash).map (·.1)

theorem clearAshOp_clears (h : s.AshRange (s.reg Reg.dsAshClrAddr) (s.reg Reg.dsAshClrLines)) :
    (clearAshOp s).2 =
      ((s.ashLines (s.reg Reg.dsAshClrAddr) (s.reg Reg.dsAshClrLines)).foldl
        (fun s line => (s.leaveAsh line).writeInLine (line * 64) (List.replicate 64 0)) s).setReg Reg.dsAshClrStat
          ((s.ashLines (s.reg Reg.dsAshClrAddr) (s.reg Reg.dsAshClrLines)).length * 2 ^ 16) := by
  rw [clearAshOp]
  dsimp only
  rw [if_neg (State.ashRange_iff.mp h)]
  dsimp only
  rw [show Status.ok.code * 2 ^ 8 = 0 from rfl, Nat.add_zero]
  rfl

/-! ### REHOME_WINDOW_CLOSE (R170, R171) -/

/-- From s to t lines have become ASH: the directory and its log, revocations, registers and events alone may differ. -/
def State.OnlyAsh (s t : State) : Prop :=
  t = { s with ctl := t.ctl, coh := t.coh, ev := t.ev, store := { s.store with revs := t.store.revs } }

theorem State.OnlyAsh.trans {s t u : State} (h : s.OnlyAsh t) (g : t.OnlyAsh u) : s.OnlyAsh u := by
  unfold State.OnlyAsh at *; rw [g, h]

theorem State.logAsh_only (s : State) (line cause agent : Nat) : s.OnlyAsh (s.logAsh line cause agent).2 := by
  rw [State.logAsh]; dsimp only; split <;> rfl

theorem State.OnlyAsh.bump (s : State) (a n : Nat) : s.OnlyAsh (s.bump a n) := rfl
theorem State.OnlyAsh.raise (s : State) (src : Nat) (a : RaiseArgs) : s.OnlyAsh (s.raise src a) := rfl

theorem State.OnlyAsh.when (s : State) (b : Bool) {f : State → State} (h : s.OnlyAsh (f s)) : s.OnlyAsh (s.when b f) := by
  cases b
  · rfl
  · exact h

theorem State.makeAsh_only (s : State) (line cause agent : Nat) : s.OnlyAsh (s.makeAsh line cause agent) := by
  have hentry : s.OnlyAsh (s.onEntry line fun e => { e with st := .ash, owner := 0, sharers := .pointers [], txn := none }) := rfl
  have hcounted := (hentry.trans (State.logAsh_only _ line cause agent)).trans (.bump _ (Reg.dsAshMade (linePage line)) 1)
  exact (hcounted.trans (.when _ (decide (cause = 5)) (.bump _ Reg.drDrillEffects 1))).trans (.raise _ _ _)

/-- A line that is still RHM when the window closes: ASH with cause 4 of its owner, and its extent's revocation counts it. -/
def State.rhmAsh (s : State) (e : Nat × DirEntry) : State :=
  (s.makeAsh e.1 4 e.2.owner).onStore fun st =>
    { st with revs := st.revs.update (extentOf (e.1 * 64)) fun r => { r with ash := r.ash + 1, timedOut := true } }

theorem State.foldl_rhmAsh_only (l : List (Nat × DirEntry)) (s : State) : s.OnlyAsh (l.foldl State.rhmAsh s) := by
  induction l generalizing s with
  | nil => rfl
  | cons e l ih =>
    have hline : s.OnlyAsh (s.rhmAsh e) := (s.makeAsh_only e.1 4 e.2.owner).trans rfl
    exact hline.trans (ih _)

/-- The state once every line still RHM has become ASH, the window is closed and the lines are counted. -/
def State.windowClosed (s : State) : State :=
  (((s.coh.dir.filter fun e => e.2.st = .rhm).foldl State.rhmAsh s).onCoh fun c =>
    { c with rehomeSt := .closed, forcedHold := false }).setReg Reg.dsRehomeAsh (s.coh.dir.filter fun e => e.2.st = .rhm).length

theorem State.windowClosed_only (s : State) : s.OnlyAsh s.windowClosed :=
  (State.foldl_rhmAsh_only _ s).trans rfl

theorem rehomeWindowCloseOp_due (hst : s.coh.rehomeSt = .opened) (hwait : s.coh.rehomeAt + 50000000 ≤ s.ran) :
    rehomeWindowCloseOp s = s.windowClosed.raise 274 := by
  rw [rehomeWindowCloseOp, if_pos (by simp [hst, State.since, hwait])]
  rfl

theorem rehomeWindowCloseOp_early (h : s.coh.rehomeSt ≠ .opened ∨ s.ran < s.coh.rehomeAt + 50000000) : rehomeWindowCloseOp s = s := by
  rw [rehomeWindowCloseOp, if_neg]
  obtain h | h := h <;> simp [State.since, h]

/-! ### Messages on a peer connection (R135) -/

/-- The answer of one that holds nothing: an ACK of a kind for the message's line. -/
def peerAck (f : Frame) (kind : Nat) : Frame :=
  { ty := 0x1B, flags := BitVec.twoPow 12 fResp, opId := f.opId, addr := f.addr &&& ~~~ 0x3F#64 ||| BitVec.ofNat 64 kind }

section
variable {k : Nat}

theorem peerAnswerOp_alive (h : (s.peer k).st = .opened ∨ (s.peer k).st = .closing) (kind : Nat) (f : Frame) :
    peerAnswerOp k kind f s = s.sendPeer k (peerAck f kind) := by
  rw [peerAnswerOp, if_pos (by simpa using h)]
  rfl

theorem peerAnswerOp_else (h : ¬((s.peer k).st = .opened ∨ (s.peer k).st = .closing)) (kind : Nat) (f : Frame) :
    peerAnswerOp k kind f s = s := by
  rw [peerAnswerOp, if_neg (by simpa using h)]

end

/-- A row that is the work of an operation answers what the operation comes to. -/
theorem exec_work_eq {row : Instr} {f : State → State} {t : State} (hrow : exec row s = work s f) (hs : s.clocked = true)
    (h : f s = t) : exec row s = .next (settle t.progress) := by
  rw [hrow, work_clocked hs, h]

/-- Settles O45: each row by its operation where it is due, and where it is not the row leaves the state as it is. -/
theorem coherenceWaits : Obligations.CoherenceWaits := by
  intro s hs ok
  refine ⟨fun line t ht => ⟨fun ⟨at_, hat, hkind, hrecv, hwait⟩ => ?_, fun h => ?_⟩, fun line h => ?_,
    fun line op => ⟨fun r hr hdue => ?_, fun h => ?_⟩, ⟨fun h => ?_, fun h => ?_⟩, fun hst hwait => ⟨s.windowClosed, ?_⟩, fun h => ?_,
    fun k f => ⟨fun h => ⟨?_, ?_, ?_⟩, fun h => ⟨?_, ?_, ?_⟩⟩⟩
  · exact exec_work_eq rfl hs (fwdWaitExpiryOp_due ht hat hkind hrecv hwait)
  · exact exec_work_eq rfl hs (fwdWaitExpiryOp_early ht h)
  · exact exec_work_eq rfl hs (fwdWaitExpiryOp_none h)
  · obtain ⟨r', hr', hdue', hop⟩ := cohWaitExpiryOp_due hr (State.cohWaited_iff.mpr hdue)
    exact ⟨r', hr', State.cohWaited_iff.mp hdue', exec_work_eq rfl hs hop⟩
  · exact exec_work_eq rfl hs (cohWaitExpiryOp_early fun r hr => mt State.cohWaited_iff.mp (h r hr))
  · exact exec_work_eq (f := fun s => (clearAshOp s).2) rfl hs (clearAshOp_refused h)
  · exact exec_work_eq (f := fun s => (clearAshOp s).2) rfl hs (clearAshOp_clears h)
  · have honly := s.windowClosed_only
    refine ⟨exec_work_eq rfl hs (rehomeWindowCloseOp_due hst hwait), rfl, rfl, ?_, ?_, ?_, ?_⟩
    · exact (State.reg_setReg _ _ _ _).trans (if_pos rfl)
    all_goals rw [honly]
  · exact exec_work_eq rfl hs (rehomeWindowCloseOp_early h)
  · exact exec_work_eq rfl hs (peerAnswerOp_alive h 1 f)
  · exact exec_work_eq rfl hs (peerAnswerOp_alive h 4 f)
  · exact exec_work_eq rfl hs (peerAnswerOp_alive h 5 f)
  · exact exec_work_eq rfl hs (peerAnswerOp_else h 1 f)
  · exact exec_work_eq rfl hs (peerAnswerOp_else h 4 f)
  · exact exec_work_eq rfl hs (peerAnswerOp_else h 5 f)

end Sys2Proof.Machine
end

section
/-! PROOFS. Fault batches: when a batch closes, what FAULT_RESUME does to the batch that it names, and how a job faults. -/

namespace Sys2Proof.Machine

variable {s : State}

/-! ### FAULT_BATCH_CLOSE (R188) -/

/-- The state once a batch has closed: its ID, its tenant and its number of records stand in source 280. -/
def State.batchClosed (s : State) (slot : Nat) (b : Batch) : State :=
  (s.onXlat fun x => { x with batches := x.batches.put slot { b with st := .closed, closedAt := s.now } }).raise 280
    { arg0 := batchId slot b + b.tenant * 65536, arg1 := b.recs.length }

section
variable {slot : Nat} {b : Batch} (hb : Tbl.get? s.xlat.batches slot = some b)
include hb

theorem State.closeBatch_collecting (hst : b.st = .collecting) : s.closeBatch slot = s.batchClosed slot b := by
  simp only [State.closeBatch, hb, if_pos hst]
  rfl

theorem faultBatchCloseOp_due (hst : b.st = .collecting) (hdue : b.firstAt + bits (s.reg Reg.xlFaultCtrl) 7 0 * 1000 ≤ s.ran) :
    faultBatchCloseOp slot s = s.batchClosed slot b := by
  simp [faultBatchCloseOp, hb, hst, State.since, hdue, State.closeBatch_collecting hb hst]

theorem faultBatchCloseOp_early (h : b.st ≠ .collecting ∨ s.ran < b.firstAt + bits (s.reg Reg.xlFaultCtrl) 7 0 * 1000) :
    faultBatchCloseOp slot s = s := by
  simp only [faultBatchCloseOp, hb]
  refine if_neg fun hc => ?_
  rw [Bool.and_eq_true, State.since, decide_eq_true_eq, decide_eq_true_eq] at hc
  exact h.elim (fun hne => hne hc.1) (fun hlt => Nat.not_le.mpr hlt hc.2)

end

/-! ### FAULT_RESUME (R190) -/

/-- Whether a FAULT_RESUME names a batch: its slot's batch is CLOSED and of the ID's GEN. -/
def State.NamesBatch (s : State) (id : Nat) : Prop :=
  ∃ b, Tbl.get? s.xlat.batches (id % 1024) = some b ∧ b.st = .closed ∧ b.gen % 64 = id / 1024 % 64

/-- What a FAULT_RESUME leaves that is refused. -/
def State.resumeRefused (s : State) (st : Status) : State := (s.bump Reg.xlResumeBad).setReg Reg.xlFaultResumeStat st.code

theorem State.faultResume_unnamed {id : Nat} (h : ¬s.NamesBatch id) (action : Nat) :
    (s.faultResume id action).2 = s.resumeRefused .notPresent := by
  cases hb : Tbl.get? s.xlat.batches (id % 1024) with
  | none => simp only [State.faultResume, hb]; rfl
  | some b =>
    have hbad : (b.st != .closed || b.gen % 64 != id / 1024 % 64) = true := by
      by_contra hc
      simp only [Bool.or_eq_true, bne_iff_ne, not_or, not_not] at hc
      exact h ⟨b, hb, hc⟩
    simp only [State.faultResume, hb, hbad, if_true]
    rfl

section
variable {id : Nat} (h : s.NamesBatch id)
include h

theorem State.faultResume_retry : (s.faultResume id 0).2 =
    ((s.rewalk fun p => p.slot == some (id % 1024)).freeSlot (id % 1024)).setReg Reg.xlFaultResumeStat 0 := by
  obtain ⟨b, hb, hst, hgen⟩ := h
  simp only [State.faultResume, hb, hst, hgen, bne_self_eq_false, Bool.or_self, Bool.false_eq_true, if_false]

theorem State.faultResume_abort : (s.faultResume id 1).2 =
    ((((s.xlat.parked.filter fun p => p.slot == some (id % 1024)).map (·.who.job)).foldl (fun s i => s.faultJob i) s).freeSlot
      (id % 1024)).setReg Reg.xlFaultResumeStat 0 := by
  obtain ⟨b, hb, hst, hgen⟩ := h
  simp only [State.faultResume, hb, hst, hgen, bne_self_eq_false, Bool.or_self, Bool.false_eq_true, if_false]

theorem State.faultResume_badAction (action : Nat) : (s.faultResume id (action + 2)).2 = s.resumeRefused .unsupported := by
  obtain ⟨b, hb, hst, hgen⟩ := h
  simp only [State.faultResume, hb, hst, hgen, bne_self_eq_false, Bool.or_self, Bool.false_eq_true, if_false]
  rfl

end

/-! ### Jobs that complete FAULTED (R191, R200) -/

section
variable {i : Nat} {j : Job} (hj : Tbl.get? s.jobs.jobs i = some j)
include hj

theorem State.faultJob_running (hrun : j.stopped = none) : s.faultJob i =
    (s.when (j.ty != 0 && !(j.phase = .done && j.status = .faulted)) fun s => (s.bump Reg.xlFaultedJobs).raiseQuiet 281).stopJob i .faulted := by
  simp only [State.faultJob, hj, hrun, Option.isSome_none, Bool.false_eq_true, if_false]

theorem State.faultJob_stopped (hstop : j.stopped ≠ none) : s.faultJob i = s := by
  simp only [State.faultJob, hj, Option.isSome_iff_ne_none.mpr hstop, if_true]

theorem State.faultJob_counts (hrun : j.stopped = none) (h : j.ty ≠ 0 ∧ ¬(j.phase = .done ∧ j.status = .faulted)) :
    s.faultJob i = ((s.bump Reg.xlFaultedJobs).raiseQuiet 281).stopJob i .faulted := by
  have hc : (j.ty != 0 && !(j.phase = .done && j.status = .faulted)) = true := by simpa [imp_iff_not_or] using h
  rw [State.faultJob_running hj hrun, hc, State.when_true]

theorem State.faultJob_uncounted (hrun : j.stopped = none) (h : ¬(j.ty ≠ 0 ∧ ¬(j.phase = .done ∧ j.status = .faulted))) :
    s.faultJob i = s.stopJob i .faulted := by
  have hc : (j.ty != 0 && !(j.phase = .done && j.status = .faulted)) = false := by simpa [imp_iff_not_or] using h
  rw [State.faultJob_running hj hrun, hc, State.when_false]

end

/-- Settles O43: each row's operation on a batch that it names and on one that it does not, and the three ways of a job. -/
theorem faultBatches : Obligations.FaultBatches := by
  intro s hs ok
  refine ⟨fun slot b hb => ⟨fun hst hdue => ?_, fun h => ?_⟩, fun id action => ⟨fun h => ⟨?_, ?_, ?_⟩, fun h => ⟨?_, ?_, ?_⟩⟩, ?_,
    fun t i j hj => ⟨fun hrun h => ?_, fun hrun h => ?_, fun h => ?_⟩⟩
  · exact exec_work_eq rfl hs (faultBatchCloseOp_due hb hst hdue)
  · exact exec_work_eq rfl hs (faultBatchCloseOp_early hb h)
  · exact exec_work_eq (f := fun s => (s.faultResume id.toNat 0).2) rfl hs (State.faultResume_unnamed h 0)
  · exact exec_work_eq (f := fun s => (s.faultResume id.toNat 1).2) rfl hs (State.faultResume_unnamed h 1)
  · exact exec_work_eq (f := fun s => (s.faultResume id.toNat (if action = 3 then 3 else 2)).2) rfl hs (State.faultResume_unnamed h _)
  · exact exec_work_eq (f := fun s => (s.faultResume id.toNat 0).2) rfl hs (State.faultResume_retry h)
  · exact exec_work_eq (f := fun s => (s.faultResume id.toNat 1).2) rfl hs (State.faultResume_abort h)
  · refine exec_work_eq (f := fun s => (s.faultResume id.toNat (if action = 3 then 3 else 2)).2) rfl hs ?_
    split
    · exact State.faultResume_badAction h 1
    · exact State.faultResume_badAction h 0
  · exact exec_work_eq (f := faultLimitCheckOp) rfl hs rfl
  · exact State.faultJob_counts hj hrun h
  · exact State.faultJob_uncounted hj hrun h
  · exact State.faultJob_stopped hj h

end Sys2Proof.Machine
end

section
/-! PROOFS. Walks: where a walk starts, what each table entry makes of it, and the table read that is refused. -/

namespace Sys2Proof.Machine

variable {s : State} {n : Nat} {w : Walk}

/-! ### The deepest cached pointer (R184) -/

/-- The deeper of a pointer kept so far and the next one; of two of one level the former stays. -/
def deeperPtr (b : Option PtrEntry) (p : PtrEntry) : Option PtrEntry :=
  match b with
  | none => some p
  | some q => if q.level < p.level then some p else some q

theorem deeperPtr_some (q p : PtrEntry) : ∃ r ∈ [q, p], deeperPtr (some q) p = some r ∧ q.level ≤ r.level ∧ p.level ≤ r.level := by
  by_cases h : q.level < p.level
  · exact ⟨p, by simp, if_pos h, h.le, le_rfl⟩
  · exact ⟨q, by simp, if_neg h, le_rfl, not_lt.mp h⟩

theorem foldl_deeperPtr_some (l : List PtrEntry) (q : PtrEntry) :
    ∃ r ∈ q :: l, l.foldl deeperPtr (some q) = some r ∧ ∀ p ∈ q :: l, p.level ≤ r.level := by
  induction l generalizing q with
  | nil => exact ⟨q, by simp, rfl, by simp⟩
  | cons p l ih =>
    obtain ⟨d, hd, hdeep, hq, hp⟩ := deeperPtr_some q p
    obtain ⟨r, hr, hfold, hmax⟩ := ih d
    refine ⟨r, ?_, by rw [List.foldl_cons, hdeep, hfold], ?_⟩
    · simp only [List.mem_cons, List.not_mem_nil, or_false] at hd hr ⊢
      rcases hr with rfl | hr <;> tauto
    · have hdr : d.level ≤ r.level := hmax d List.mem_cons_self
      simp only [List.forall_mem_cons] at hmax ⊢
      exact ⟨hq.trans hdr, hp.trans hdr, hmax.2⟩

/-- Of some pointers the fold keeps one of the greatest level. -/
theorem foldl_deeperPtr {l : List PtrEntry} (h : l ≠ []) :
    ∃ r ∈ l, l.foldl deeperPtr none = some r ∧ ∀ p ∈ l, p.level ≤ r.level := by
  obtain ⟨q, l, rfl⟩ := List.exists_cons_of_ne_nil h
  exact foldl_deeperPtr_some l q

/-! ### WALK_START (R178, R181, R184, R185) -/

theorem walkStartOp_takes {h : Nat} (hf : (s.xlat.walks.find? fun e => !e.2.started && e.2.half = h && s.walkerFree e.2) = some (n, w)) :
    walkStartOp h s = s.startWalk n := by
  rw [walkStartOp, hf]

theorem walkStartOp_none {h : Nat} (hf : (s.xlat.walks.find? fun e => !e.2.started && e.2.half = h && s.walkerFree e.2) = none) :
    walkStartOp h s = s := by
  rw [walkStartOp, hf]

/-- A walk is counted in its half. -/
def State.walkCounted (s : State) (w : Walk) : State := s.bump (Reg.xlWalks (xlatPage w.half))

theorem State.walkCounted_device (s : State) (w : Walk) : (s.walkCounted w).device = s.device := by
  refine reg_bump_ne s Reg.rootDeviceNum _ _ ?_
  simp only [Reg.rootDeviceNum, Reg.xlWalks, xlatPage]
  omega

/-- The cached pointers of a walk's tenant that cover its address. -/
def State.walkHits (s : State) (w : Walk) : List PtrEntry :=
  (Tbl.getD s.xlat.ptrs w.half []).filter fun p => p.tenant = w.tenant && p.va ≤ w.va && w.va < p.va + p.size

section
variable (hw : s.walk? n = some w)
include hw

theorem State.startWalk_disabled (hen : (s.context w.tenant).en = false) :
    s.startWalk n = w.waiters.foldl (fun t q => t.noRoot q.job) (s.endWalk n) := by
  simp only [State.startWalk, hw, hen, Bool.not_false, if_true]

section
variable (hen : (s.context w.tenant).en = true)
include hen

/-- A walk of an enabled context is counted, then starts or faults at level 1. -/
theorem State.startWalk_enabled : s.startWalk n =
    if 2 ^ (39 + (s.context w.tenant).rootBits) ≤ w.va then (s.walkCounted w).walkFault n 1 1
    else if devOf (s.context w.tenant).root ≠ s.device then (s.walkCounted w).walkFault n 3 1
    else (s.walkCounted w).onWalk n fun x => { x with
      started := true
      level := ((s.walkHits w).foldl deeperPtr none).elim 1 fun p => p.level + 1
      table := ((s.walkHits w).foldl deeperPtr none).elim (s.context w.tenant).root PtrEntry.table } := by
  rw [← s.walkCounted_device w]
  simp only [State.startWalk, hw, hen, Bool.not_true, Bool.false_eq_true, if_false, bne_iff_ne]
  refine if_congr Iff.rfl rfl (if_congr Iff.rfl rfl ?_)
  change (match (s.walkHits w).foldl deeperPtr none with | some p => _ | none => _) = _
  cases (s.walkHits w).foldl deeperPtr none <;> rfl

theorem State.startWalk_beyond (hva : 2 ^ (39 + (s.context w.tenant).rootBits) ≤ w.va) :
    s.startWalk n = (s.walkCounted w).walkFault n 1 1 := by
  rw [State.startWalk_enabled hw hen, if_pos hva]

section
variable (hva : w.va < 2 ^ (39 + (s.context w.tenant).rootBits))
include hva

theorem State.startWalk_foreign (hd : devOf (s.context w.tenant).root ≠ s.device) :
    s.startWalk n = (s.walkCounted w).walkFault n 3 1 := by
  rw [State.startWalk_enabled hw hen, if_neg (not_le.mpr hva), if_pos hd]

/-- A walk starts below the cached pointer of the greatest level, or at the root where none covers its address. -/
theorem State.startWalk_starts (hd : devOf (s.context w.tenant).root = s.device) : ∃ level table : Nat,
    s.startWalk n = (s.walkCounted w).onWalk n (fun x => { x with started := true, level := level, table := table }) ∧
    (s.walkHits w = [] → level = 1 ∧ table = (s.context w.tenant).root) ∧
    (s.walkHits w ≠ [] → ∃ p ∈ s.walkHits w, level = p.level + 1 ∧ table = p.table ∧ ∀ q ∈ s.walkHits w, q.level ≤ p.level) := by
  have hstart := State.startWalk_enabled hw hen
  rw [if_neg (not_le.mpr hva), if_neg (not_not.mpr hd)] at hstart
  refine ⟨_, _, hstart, fun hnone => ?_, fun hsome => ?_⟩
  · rw [hnone]
    exact ⟨rfl, rfl⟩
  · obtain ⟨p, hp, hfold, hmax⟩ := foldl_deeperPtr hsome
    rw [hfold]
    exact ⟨p, hp, rfl, rfl, hmax⟩

end
end
end

/-! ### What a table entry says (R180, R181, Tables 6-1 and 6-2) -/

/-- Whether an entry's LEAF suits its level: no leaf at level 1, no pointer at level 4. -/
def Walk.Shaped (w : Walk) (v : Nat) : Prop := (bit v 1 = true → w.level ≠ 1) ∧ (bit v 1 = false → w.level ≠ 4)

/-- The pointer that a walk caches from an entry of its level. -/
def Walk.ptr (w : Walk) (table : Nat) : PtrEntry :=
  { tenant := w.tenant, level := w.level, va := w.va / levelSize w.level * levelSize w.level, size := levelSize w.level, table := table }

/-- The bytes of the page that a leaf of a walk's level maps. -/
def Walk.pageSize (w : Walk) (v : Nat) : Nat := if w.level = 4 && bit v 5 then 65536 else levelSize w.level

/-- The translation that a leaf gives. -/
def Walk.leaf (w : Walk) (v : Nat) : TlbEntry :=
  { tenant := w.tenant, va := w.va / w.pageSize v * w.pageSize v, size := w.pageSize v, pa := v / 4096 * 4096,
    read := bit v 2, write := bit v 3, atomic := bit v 4 }

/-- A walk moves one level down to a table, and its half caches the pointer. -/
def State.walkDescends (s : State) (n : Nat) (w : Walk) (table : Nat) : State :=
  (s.onXlat fun x =>
    { x with ptrs := x.ptrs.put w.half ((w.ptr table :: (x.ptrs.getD w.half []).filter (· != w.ptr table)).take 131072) }).onWalk n
    fun w => { w with level := w.level + 1, table := table, reading := none }

theorem State.walk?_onWalk (s : State) (n : Nat) (f : Walk → Walk) : (s.onWalk n f).walk? n = (s.walk? n).map f := by
  simp [State.onWalk, State.walk?, Tbl.get?_update]

theorem State.ptr_mem_walkDescends (s : State) (n : Nat) (w : Walk) (table : Nat) :
    w.ptr table ∈ Tbl.getD (s.walkDescends n w table).xlat.ptrs w.half [] := by
  have h : Tbl.getD (s.walkDescends n w table).xlat.ptrs w.half [] = _ := (getD_put' _ _ _ _ _).trans (if_pos rfl)
  rw [h, List.take_succ_cons]
  exact List.mem_cons_self

section
variable (hw : s.walk? n = some w) {v : Nat}
include hw

theorem State.walk?_walkDescends (table : Nat) : (s.walkDescends n w table).walk? n =
    some { w with level := w.level + 1, table := table, reading := none } :=
  (State.walk?_onWalk _ _ _).trans (congrArg _ hw)

theorem State.walkEntry_absent (hv : bit v 0 = false) : s.walkEntry n v = s.walkFault n 1 w.level := by
  simp only [State.walkEntry, hw, hv, Bool.not_false, if_true]

section
variable (hv : bit v 0 = true)
include hv

theorem State.walkEntry_misshaped (h : ¬w.Shaped v) : s.walkEntry n v = s.walkFault n 3 w.level := by
  have hc : ((bit v 1 && w.level = 1) || (!bit v 1 && w.level = 4)) = true := by
    simpa [Walk.Shaped, -not_and, not_and_or] using h
  simp only [State.walkEntry, hw, hv, hc, Bool.not_true, Bool.false_eq_true, if_false, if_true]

section
variable (hshape : w.Shaped v)
include hshape

/-- An entry of the right shape moves its walk down or ends it. -/
theorem State.walkEntry_shaped : s.walkEntry n v =
    if bit v 1 = false then
      if devOf (v / 4096 * 4096) ≠ s.device then s.walkFault n 3 w.level else s.walkDescends n w (v / 4096 * 4096)
    else if v / 4096 * 4096 % w.pageSize v ≠ 0 then s.walkFault n 3 w.level else s.walkEnd n (w.leaf v) w.level := by
  have hc : ((bit v 1 && w.level = 1) || (!bit v 1 && w.level = 4)) = false := by
    obtain ⟨hleaf, hptr⟩ := hshape
    cases hb : bit v 1
    · simpa using hptr hb
    · simpa using hleaf hb
  simp only [State.walkEntry, hw, hv, hc, Bool.not_true, Bool.false_eq_true, if_false, Bool.not_eq_true', bne_iff_ne]
  rfl

theorem State.walkEntry_foreign (hleaf : bit v 1 = false) (hd : devOf (v / 4096 * 4096) ≠ s.device) :
    s.walkEntry n v = s.walkFault n 3 w.level := by
  rw [State.walkEntry_shaped hw hv hshape, if_pos hleaf, if_pos hd]

theorem State.walkEntry_descends (hleaf : bit v 1 = false) (hd : devOf (v / 4096 * 4096) = s.device) :
    s.walkEntry n v = s.walkDescends n w (v / 4096 * 4096) := by
  rw [State.walkEntry_shaped hw hv hshape, if_pos hleaf, if_neg (not_not.mpr hd)]

theorem State.walkEntry_misaligned (hleaf : bit v 1 = true) (ha : v / 4096 * 4096 % w.pageSize v ≠ 0) :
    s.walkEntry n v = s.walkFault n 3 w.level := by
  rw [State.walkEntry_shaped hw hv hshape, if_neg (by simp [hleaf]), if_pos ha]

theorem State.walkEntry_ends (hleaf : bit v 1 = true) (ha : v / 4096 * 4096 % w.pageSize v = 0) :
    s.walkEntry n v = s.walkEnd n (w.leaf v) w.level := by
  rw [State.walkEntry_shaped hw hv hshape, if_neg (by simp [hleaf]), if_neg (not_not.mpr ha)]

end
end
end

/-! ### WALK_READ_DONE (R181, R183) -/

section
variable (hw : s.walk? n = some w)
include hw

theorem State.walkTake_failed {o : Op} (h : o.status ≠ .ok) : s.walkTake n o = s.walkFault n 5 w.level := by
  rw [State.walkTake, if_neg h, hw]
  rfl

section
variable {i : Nat} {o : Op} (hi : w.reading = some i) (ho : s.op? i = some o)
include hi ho

theorem walkReadDoneOp_reading (h : o.finished = false) : walkReadDoneOp n s = s := by
  simp only [walkReadDoneOp, hw, hi, ho, h, Bool.false_eq_true, if_false]

theorem walkReadDoneOp_takes (h : o.finished = true) :
    walkReadDoneOp n s = (s.onJobs fun j => { j with ops := j.ops.del i }).walkTake n o := by
  simp only [walkReadDoneOp, hw, hi, ho, h, if_true]

end

section
variable (hi : w.reading = none)
include hi

theorem walkReadDoneOp_waiting (h : w.started = false) : walkReadDoneOp n s = s := by
  simp only [walkReadDoneOp, State.walkRead, hw, hi, h, Bool.not_false, Bool.true_or, if_true]

/-- A table read that neither tenant 0 nor the walk's tenant may make (R181). -/
theorem walkReadDoneOp_denied (h : w.started = true) :
    let off := offOf (w.table + 8 * walkIndex (s.context w.tenant).rootBits w.level w.va)
    let v := s.bump (Reg.xlWalkReads (xlatPage w.half))
    (v.grantCheck 0 off 8 { read := true }).isSome = true → (v.grantCheck w.tenant off 8 { read := true }).isSome = true →
      walkReadDoneOp n s = v.walkFault n 5 w.level := by
  intro off v h0 ht
  simp only [walkReadDoneOp, State.walkRead, hw, hi, h, Bool.not_true, Option.isSome_none, Bool.or_self, Bool.false_eq_true, if_false]
  exact if_pos (Bool.and_eq_true_iff.mpr ⟨h0, ht⟩)

end
end

/-- Settles O42: the start of a walk, each reading of a table entry, and a refused table read, one lemma each. -/
theorem walks : Obligations.Walks := by
  intro s n w hs hw ok c
  refine ⟨fun h hf => ⟨fun hen => ?_, fun hen hva => ?_, fun hen hva hd => ?_, fun hen hva hd => ?_⟩, fun h hf => ?_,
    fun i o hi ho => ⟨fun hrun => ?_, fun hfin => ?_⟩, fun hi hst => ?_, fun hi hst h0 ht => ?_⟩
  · exact exec_work_eq rfl hs ((walkStartOp_takes hf).trans (State.startWalk_disabled hw hen))
  · exact exec_work_eq rfl hs ((walkStartOp_takes hf).trans (State.startWalk_beyond hw hen hva))
  · exact exec_work_eq rfl hs ((walkStartOp_takes hf).trans (State.startWalk_foreign hw hen hva hd))
  · obtain ⟨level, table, hstart, hroot, hptr⟩ := State.startWalk_starts hw hen hva hd
    exact ⟨level, table, exec_work_eq rfl hs ((walkStartOp_takes hf).trans hstart), hroot, hptr⟩
  · exact exec_work_eq rfl hs (walkStartOp_none hf)
  · exact exec_work_eq rfl hs (walkReadDoneOp_reading hw hi ho hrun)
  · intro v e leaf table size shape
    have hv : v.walk? n = some w := hw
    have htake : ∀ {t : State}, v.walkTake n o = t → exec (.walkReadDone n) s = ok t := fun ht =>
      exec_work_eq rfl hs ((walkReadDoneOp_takes hw hi ho hfin).trans ht)
    have hentry : ∀ {t : State}, o.status = .ok → v.walkEntry n e = t → exec (.walkReadDone n) s = ok t := fun hok ht =>
      htake ((if_pos hok).trans ht)
    refine ⟨fun hbad => htake (State.walkTake_failed hv hbad), fun hok h0 => hentry hok (State.walkEntry_absent hv h0),
      fun hok h0 hsh => hentry hok (State.walkEntry_misshaped hv h0 hsh), fun hok h0 hsh hleaf => ⟨fun hd => ?_, fun hd => ?_⟩,
      fun hok h0 hsh hleaf => ⟨fun ha => ?_, fun ha => ?_⟩⟩
    · exact hentry hok (State.walkEntry_foreign hv h0 hsh hleaf hd)
    · exact ⟨v.walkDescends n w table, hentry hok (State.walkEntry_descends hv h0 hsh hleaf hd), State.walk?_walkDescends hv table,
        w.ptr table, State.ptr_mem_walkDescends v n w table, rfl⟩
    · exact hentry hok (State.walkEntry_misaligned hv h0 hsh hleaf ha)
    · exact hentry hok (State.walkEntry_ends hv h0 hsh hleaf ha)
  · exact exec_work_eq rfl hs (walkReadDoneOp_waiting hw hi hst)
  · exact exec_work_eq rfl hs (walkReadDoneOp_denied hw hi hst h0 ht)

end Sys2Proof.Machine
end

section
/-! PROOFS. Invalidation: what drops the cached translations of a range, when an INVAL waits and is answered, and XLAT_APPLY. -/

namespace Sys2Proof

/-! ### Sparse tables -/

/-- Each list of a table without the entries that meet a test. -/
def Tbl.without {α : Type} (hit : α → Bool) (t : Tbl (List α)) : Tbl (List α) := t.map fun e => (e.1, e.2.filter fun x => !hit x)

theorem Tbl.not_of_mem_without {α : Type} {hit : α → Bool} {t : Tbl (List α)} {e : Nat} {l : List α}
    (h : (e, l) ∈ Tbl.without hit t) {x : α} (hx : x ∈ l) : hit x = false := by
  obtain ⟨⟨k, l'⟩, _, heq⟩ := List.mem_map.mp h
  obtain ⟨rfl, rfl⟩ := Prod.mk.inj heq
  simpa using (List.mem_filter.mp hx).2

namespace Machine

variable {s : State}

/-! ### What faults and walks that start leave (R178 to R191) -/

/-- The cached translations and pointers, and the contexts. -/
def State.cached (s : State) : Tbl (List TlbEntry) × Tbl (List TlbEntry) × Tbl (List PtrEntry) × Tbl XContext :=
  (s.xlat.tlbs, s.xlat.l2, s.xlat.ptrs, s.xlat.ctx)

theorem State.raiseQuiet_cached (s : State) (src : Nat) (a : RaiseArgs) : (s.raiseQuiet src a).cached = s.cached := by
  unfold State.raiseQuiet
  dsimp only
  split
  · rfl
  · split <;> rfl

theorem State.faultJob_cached (s : State) (i : Nat) : (s.faultJob i).cached = s.cached := by
  cases hj : Tbl.get? s.jobs.jobs i with
  | none => simp only [State.faultJob, hj]
  | some j =>
    by_cases hrun : j.stopped = none
    · rw [State.faultJob_running hj hrun]
      exact when_keeps State.cached (f := fun s => (s.bump Reg.xlFaultedJobs).raiseQuiet 281)
        (fun u => (u.bump Reg.xlFaultedJobs).raiseQuiet_cached 281 { }) s _
    · rw [State.faultJob_stopped hj hrun]

theorem State.noRoot_cached (s : State) (i : Nat) : (s.noRoot i).cached = s.cached := (s.bump Reg.xlNoRoot).faultJob_cached i

theorem State.closeBatch_cached (s : State) (slot : Nat) : (s.closeBatch slot).cached = s.cached := by
  unfold State.closeBatch
  split
  · rfl
  · split <;> rfl

theorem State.batchFor_cached (s : State) (t : Nat) : (s.batchFor t).2.cached = s.cached := by
  unfold State.batchFor
  split
  · rfl
  · dsimp only
    split
    · split <;> rfl
    · rfl

theorem State.recordFault_cached (s : State) (t : Nat) (r : FaultRec) : (s.recordFault t r).2.cached = s.cached := by
  have h := s.batchFor_cached t
  unfold State.recordFault
  split
  · next heq => rwa [heq] at h
  · next heq =>
    rw [heq] at h
    dsimp only
    split
    · exact h
    · split
      · exact (State.closeBatch_cached _ _).trans h
      · exact h

theorem State.park_cached (s : State) (t va : Nat) (w : Waiter) (kind level : Nat) : (s.park t va w kind level).cached = s.cached := by
  unfold State.park
  split
  · rfl
  · dsimp only
    refine (State.recordFault_cached _ _ _ :).trans ?_
    split <;> rfl

theorem State.walkFault_cached (s : State) (n kind level : Nat) : (s.walkFault n kind level).cached = s.cached := by
  unfold State.walkFault
  split
  · rfl
  · next w _ => exact foldl_keeps State.cached (fun u q => u.park_cached w.tenant w.va q kind level) w.waiters (s.endWalk n)

theorem State.startWalk_cached (s : State) (n : Nat) : (s.startWalk n).cached = s.cached := by
  cases hw : s.walk? n with
  | none => simp only [State.startWalk, hw]
  | some w =>
    cases hen : (s.context w.tenant).en with
    | false =>
      rw [State.startWalk_disabled hw hen]
      exact foldl_keeps State.cached (fun u (q : Waiter) => u.noRoot_cached q.job) w.waiters (s.endWalk n)
    | true =>
      rw [State.startWalk_enabled hw hen]
      split
      · exact (s.walkCounted w).walkFault_cached n 1 1
      · split
        · exact (s.walkCounted w).walkFault_cached n 3 1
        · rfl

/-! ### Dropping a range (R193, R199) -/

/-- Whether a cached entry is of a tenant and overlaps a range. -/
def overlaps (ten lo hi tenant va size : Nat) : Bool := tenant = ten && va < hi && lo < va + size

theorem overlaps_iff {ten lo hi tenant va size : Nat} :
    overlaps ten lo hi tenant va size = true ↔ tenant = ten ∧ va < hi ∧ lo < va + size := by
  simp [overlaps, and_assoc]

/-- The cached entries that dropping a range leaves; the contexts stay. -/
theorem State.dropRange_cached (s : State) (ten lo hi : Nat) : (s.dropRange ten lo hi).cached =
    (Tbl.without (fun e => overlaps ten lo hi e.tenant e.va e.size) s.xlat.tlbs,
     Tbl.without (fun e => overlaps ten lo hi e.tenant e.va e.size) s.xlat.l2,
     Tbl.without (fun e => overlaps ten lo hi e.tenant e.va e.size) s.xlat.ptrs, s.xlat.ctx) :=
  foldl_keeps State.cached (f := fun s n => (s.onWalk n fun w => { w with reading := none }).startWalk n)
    (fun u n => (u.onWalk n fun w => { w with reading := none }).startWalk_cached n) _ _

theorem State.context_dropRange (s : State) (ten lo hi o : Nat) : (s.dropRange ten lo hi).context o = s.context o :=
  congrArg (fun x : _ × _ × _ × Tbl XContext => Tbl.getD x.2.2.2 o { }) (s.dropRange_cached ten lo hi)

/-- From one state to another the translations and pointers of a tenant that overlap a range are gone; the TLBs keep those of
other tenants. -/
def State.Dropped (u t : State) (ten lo hi : Nat) : Prop :=
  (∀ e l, (e, l) ∈ t.xlat.tlbs ∨ (e, l) ∈ t.xlat.l2 → ∀ x ∈ l, ¬(x.tenant = ten ∧ x.va < hi ∧ lo < x.va + x.size)) ∧
  (∀ e l, (e, l) ∈ t.xlat.ptrs → ∀ x ∈ l, ¬(x.tenant = ten ∧ x.va < hi ∧ lo < x.va + x.size)) ∧
  (∀ e l, (e, l) ∈ u.xlat.tlbs → ∃ l', (e, l') ∈ t.xlat.tlbs ∧ ∀ x ∈ l, x.tenant ≠ ten → x ∈ l')

theorem State.dropRange_drops {u : State} (h : u.xlat.tlbs = s.xlat.tlbs) (ten lo hi : Nat) : u.Dropped (s.dropRange ten lo hi) ten lo hi := by
  obtain ⟨htlb, hl2, hptr, -⟩ : _ ∧ _ ∧ _ ∧ _ := by simpa only [State.cached, Prod.mk.injEq] using s.dropRange_cached ten lo hi
  rw [State.Dropped, htlb, hl2, hptr, h]
  refine ⟨fun e l hl x hx => ?_, fun e l hl x hx => ?_, fun e l hl => ⟨_, List.mem_map.mpr ⟨_, hl, rfl⟩, fun x hx hne => ?_⟩⟩
  · rw [← overlaps_iff, Bool.not_eq_true]
    exact hl.elim (Tbl.not_of_mem_without · hx) (Tbl.not_of_mem_without · hx)
  · rw [← overlaps_iff, Bool.not_eq_true]
    exact Tbl.not_of_mem_without hl hx
  · exact List.mem_filter.mpr ⟨hx, by simp [overlaps, hne]⟩

/-! ### INVAL (R193, R194, R196) -/

section
variable {c : Nat} {k : Conn} {f : Frame}

/-- The form of an INVAL (R193): 16 bytes, and a range of whole pages within the address space. -/
def InvalFormed (f : Frame) : Prop :=
  f.len = 16 ∧ f.payload.length = 16 ∧ f.addr.toNat % 4096 = 0 ∧ beField f.payload 0 8 % 4096 = 0 ∧ f.addr.toNat < 2 ^ 57 ∧
    f.addr.toNat + beField f.payload 0 8 ≤ 2 ^ 57

/-- Whether an INVAL names a tenant itself. -/
def invalNames (f : Frame) : Bool := bit (beField f.payload 8 2) 0

/-- The tenant whose translations an INVAL drops. -/
def invalTenant (k : Conn) (f : Frame) : Nat := if invalNames f then beField f.payload 10 2 % 4096 else k.tenant

/-- Where the range of an INVAL begins; with length 0 it is all of the address space. -/
def invalLo (f : Frame) : Nat := if beField f.payload 0 8 = 0 then 0 else f.addr.toNat

/-- Where the range of an INVAL ends. -/
def invalHi (f : Frame) : Nat := if beField f.payload 0 8 = 0 then 2 ^ 57 else f.addr.toNat + beField f.payload 0 8

/-- An INVAL waits for the accesses and peer writes in flight through a range. -/
def State.invalWaits (s : State) (c : Nat) (f : Frame) (ten lo hi : Nat) : State :=
  s.onXlat fun x => { x with
    invals := x.invals.put x.nextInval { conn := c, f := f, since := s.ran, ops := s.usersOf ten lo hi, peers := s.peerUsersOf ten lo hi }
    nextInval := x.nextInval + 1 }

theorem invalFormed_iff : InvalFormed f ↔ ¬(f.len != 16 || f.payload.length != 16 || f.addr.toNat % 4096 != 0 ||
    beField f.payload 0 8 % 4096 != 0 || 2 ^ 57 ≤ f.addr.toNat || 2 ^ 57 < f.addr.toNat + beField f.payload 0 8) = true := by
  simp only [InvalFormed, Bool.or_eq_true, bne_iff_ne, decide_eq_true_eq, not_or, not_not, not_le, not_lt, and_assoc]

section
variable (hk : s.conn? c = some k)
include hk

theorem State.takeInval_darkHold (h : s.boot.service = .darkHold) : s.takeInval c f = s.respond c f .held := by
  simp only [State.takeInval, hk, h, if_true]

section
variable (hgo : s.boot.service ≠ .darkHold)
include hgo

theorem State.takeInval_malformed (h : ¬InvalFormed f) : s.takeInval c f = s.respond c f .unsupported := by
  have hbad := not_not.mp (mt invalFormed_iff.mpr h)
  simp only [State.takeInval, hk, if_neg hgo]
  exact if_pos hbad

section
variable (hf : InvalFormed f)
include hf

/-- An INVAL of the right form is refused, answered at once, or drops its range and waits. -/
theorem State.takeInval_formed : s.takeInval c f =
    if (invalNames f && k.tenant != 0) = true then s.respond c f .denied
    else if s.boot.service = .greyscale then (s.bump Reg.xlInvals).respond c f .ok
    else (s.dropRange (invalTenant k f) (invalLo f) (invalHi f)).invalWaits c f (invalTenant k f) (invalLo f) (invalHi f) := by
  simp only [State.takeInval, hk, if_neg hgo]
  exact if_neg (invalFormed_iff.mp hf)

theorem State.takeInval_foreign (hn : invalNames f = true) (ht : k.tenant ≠ 0) : s.takeInval c f = s.respond c f .denied := by
  rw [State.takeInval_formed hk hgo hf, if_pos (by simp [hn, ht])]

theorem State.takeInval_allowed (h : invalNames f = false ∨ k.tenant = 0) : s.takeInval c f =
    if s.boot.service = .greyscale then (s.bump Reg.xlInvals).respond c f .ok
    else (s.dropRange (invalTenant k f) (invalLo f) (invalHi f)).invalWaits c f (invalTenant k f) (invalLo f) (invalHi f) := by
  rw [State.takeInval_formed hk hgo hf, if_neg (by rcases h with h | h <;> simp [h])]

end
end
end

/-- What the row of an INVAL that arrives in its turn and is admitted answers. -/
theorem exec_inval {rx : Rx} (h : s.Request c k (asType 0x20 false rx)) (hc : c ≠ twinConn) : exec (.inval rx) s =
    .next (settle (((s.asked c (asType 0x20 false rx)).takeInval c (asType 0x20 false rx).f).done c (asType 0x20 false rx)).progress) := by
  have hty : (asType 0x20 false rx).f.ty = 0x20 := type_ty 0x20 false rx
  refine exec_work_eq (f := fun s => s.rxFrame (asType 0x20 false rx)) rfl h.turn.passes.clocked ?_
  rw [rxFrame_request h hc (by rw [hty]; decide) (by rw [hty]; decide) (by rw [hty]; decide) (type_resp 0x20 false rx)]
  exact congrArg (State.done · c _) (admit_inval h.admits.room h.admits.service h.admits.carve (congrArg BitVec.toNat hty))

end

/-! ### INVAL_ANSWER (R194) -/

/-- An invalidation that waits no longer: an INVAL counts, with the time that it took; a CTL_WR with XLAT_APPLY does not. -/
def State.invalEnded (s : State) (i : Nat) (w : InvalWait) : State :=
  (s.onXlat fun x => { x with invals := x.invals.del i }).when (!w.apply) fun s =>
    (s.bump Reg.xlInvals).when (s.reg Reg.xlInvalMaxNs < s.ran - w.since) fun u =>
      u.setReg Reg.xlInvalMaxNs (min (s.ran - w.since) (2 ^ 32 - 1))

section
variable {i : Nat} {w : InvalWait}

theorem invalAnswerOp_held (hw : Tbl.get? s.xlat.invals i = some w) (h : s.invalHeld w = true) : invalAnswerOp i s = s := by
  simp only [invalAnswerOp, hw, h, if_true]

theorem invalAnswerOp_ends (hw : Tbl.get? s.xlat.invals i = some w) (h : s.invalHeld w = false) :
    invalAnswerOp i s = (s.invalEnded i w).respond w.conn w.f .ok := by
  simp only [invalAnswerOp, hw, h, Bool.false_eq_true, if_false]
  rfl

theorem State.invalEnded_only (s : State) (i : Nat) (w : InvalWait) : s.invalEnded i w =
    { s with ctl := { s.ctl with regs := (s.invalEnded i w).ctl.regs }, xlat := { s.xlat with invals := Tbl.del s.xlat.invals i } } := by
  unfold State.invalEnded State.when
  split
  · dsimp only
    split <;> rfl
  · rfl

theorem State.invalEnded_waits (s : State) (i : Nat) (w : InvalWait) : (s.invalEnded i w).xlat.invals = Tbl.del s.xlat.invals i := by
  rw [State.invalEnded_only]

theorem State.invalEnded_counts (h : w.apply = false) : (s.invalEnded i w).reg Reg.xlInvals = satAdd 32 (s.reg Reg.xlInvals) 1 := by
  rw [State.invalEnded, h, Bool.not_false, State.when_true]
  refine Eq.trans ?_ (State.reg_bump (s.onXlat fun x => { x with invals := x.invals.del i }) Reg.xlInvals)
  refine when_keeps (·.reg Reg.xlInvals) (fun u => ?_) _ _
  rw [State.reg_setReg, if_neg (by decide)]

theorem State.invalEnded_apply (h : w.apply = true) (a : Nat) : (s.invalEnded i w).reg a = s.reg a := by
  rw [State.invalEnded, h, Bool.not_true, State.when_false, State.reg_onXlat]

end

/-! ### XLAT_APPLY (R178, R199) -/

/-- The tenant that XLAT_APPLY gives a context. -/
def State.applyTenant (s : State) : Nat := s.reg Reg.xlXlatTenantSel % 4096

/-- XLAT_CTRL as written for that tenant. -/
def State.applyCtrl (s : State) : Nat := ((Tbl.get? s.xlat.pendCtrl s.applyTenant).getD 0).toNat

/-- XLAT_ROOT as written for that tenant. -/
def State.applyRoot (s : State) : Nat := ((Tbl.get? s.xlat.pendRoot s.applyTenant).getD 0).toNat

/-- The context that XLAT_APPLY gives. -/
def State.applyContext (s : State) : XContext :=
  { en := bit s.applyCtrl 0, rootBits := bits s.applyCtrl 12 8, root := s.applyRoot / 4096 * 4096 }

/-- Whether that context is within its range: a disabled one always, an enabled one with 1 to 18 root bits and its root on this
device. -/
def State.ApplyFits (s : State) : Prop :=
  bit s.applyCtrl 0 = true → 1 ≤ bits s.applyCtrl 12 8 ∧ bits s.applyCtrl 12 8 ≤ 18 ∧ devOf s.applyRoot = s.device

theorem State.applyFits_iff : s.ApplyFits ↔ ¬(bit s.applyCtrl 0 &&
    (bits s.applyCtrl 12 8 = 0 || 18 < bits s.applyCtrl 12 8 || devOf s.applyRoot != s.device)) = true := by
  simp only [State.ApplyFits, Bool.and_eq_true, Bool.or_eq_true, decide_eq_true_eq, bne_iff_ne, not_and, not_or, not_not, not_lt,
    Nat.one_le_iff_ne_zero, and_assoc, ne_eq]

/-- The state once the tenant has its context and its translations are dropped. -/
def State.contextApplied (s : State) : State :=
  (s.onXlat fun x => { x with ctx := x.ctx.put s.applyTenant s.applyContext }).dropRange s.applyTenant 0 (2 ^ 57)

theorem State.xlatApply_refused (h : ¬s.ApplyFits) : (s.xlatApply none).2 = s.setReg Reg.xlXlatResult Status.unsupported.code :=
  congrArg Prod.snd (if_pos (not_not.mp (mt State.applyFits_iff.mpr h)))

theorem State.xlatApply_applies (h : s.ApplyFits) : (s.xlatApply none).2 = s.contextApplied.setReg Reg.xlXlatResult 0 :=
  congrArg Prod.snd (if_neg (State.applyFits_iff.mp h))

theorem State.context_contextApplied (s : State) (o : Nat) :
    s.contextApplied.context o = if s.applyTenant = o then s.applyContext else s.context o :=
  (State.context_dropRange _ _ _ _ _).trans (getD_put' _ _ _ _ _)

/-- Settles O41: an INVAL by its checks in order, its answer where it waits and where it need not, and the two outcomes of
XLAT_APPLY. -/
theorem invalidations : Obligations.Invalidations := by
  intro s c k k' rx hc dropped
  refine ⟨?_, fun hs => ⟨fun i w hw => ⟨fun h => ?_, fun h =>
    ⟨s.invalEnded i w, ?_, ?_, ?_, State.invalEnded_counts, State.invalEnded_apply⟩⟩, ?_⟩⟩
  · intro r hreq hk u f start len other ten lo hi after formed
    rw [exec_inval hreq hc]
    refine ⟨fun h => ?_, fun hgo hf => ?_, fun hgo hf ho ht => ?_, fun hf hown => ⟨fun h => ?_, fun h => ⟨u.dropRange ten lo hi, ?_, ?_⟩⟩⟩
    · rw [State.takeInval_darkHold hk h]
    · rw [State.takeInval_malformed hk hgo hf]
    · rw [State.takeInval_foreign hk hgo hf ho ht]
    · rw [State.takeInval_allowed hk (by rw [h]; decide) hf hown, if_pos h]
    · rw [State.takeInval_allowed hk (by rw [h]; decide) hf hown, if_neg (by rw [h]; decide)]
      rfl
    · exact State.dropRange_drops rfl ten lo hi
  · exact exec_work_eq rfl hs (invalAnswerOp_held hw h)
  · exact exec_work_eq rfl hs (invalAnswerOp_ends hw h)
  · rw [State.invalEnded_waits, Tbl.get?_del, if_pos rfl]
  · rw [State.invalEnded_waits]
    exact s.invalEnded_only i w
  · intro ten ctrl root fits
    refine ⟨fun h => ?_, fun h => ⟨s.contextApplied, ?_, ?_, ?_, fun o ho => ?_⟩⟩
    · exact exec_work_eq (f := fun s => (s.xlatApply none).2) rfl hs (State.xlatApply_refused h)
    · exact exec_work_eq (f := fun s => (s.xlatApply none).2) rfl hs (State.xlatApply_applies h)
    · exact State.dropRange_drops rfl ten 0 (2 ^ 57)
    · exact (s.context_contextApplied ten).trans (if_pos rfl)
    · exact (s.context_contextApplied o).trans (if_neg ho.symm)

end Machine
end Sys2Proof
end

section
/-! PROOFS. Jobs that arrive: the rows of BULK and JOB, the checks of Table 7-3 up to the job's number, its first line, the queue of a
die, and a JOB_TYPE that is not assigned. -/

namespace Sys2Proof.Machine

variable {s : State} {c : Nat}

/-! ### The rows (R202, Tables 7-1 and 7-3) -/

/-- A row that is the JOB, or the BULK, of a frame. -/
structure JobRow (row : Instr) (r : Rx) (isBulk : Bool) : Prop where
  rx : ∀ s, exec row s = work s fun s => s.rxFrame r
  type : r.f.ty = if isBulk then 4 else 5
  request : has r.f fResp = false

/-- What the row of a job that arrives in its turn and is admitted answers. -/
theorem JobRow.exec_eq {row : Instr} {r : Rx} {isBulk : Bool} {k : Conn} (h : JobRow row r isBulk) (hreq : s.Request c k r)
    (hc : c ≠ twinConn) : exec row s = .next (settle (((s.asked c r).takeJob c r.f isBulk).done c r).progress) := by
  have hne (n : Byte) (h4 : n ≠ 4) (h5 : n ≠ 5) : r.f.ty ≠ n := by
    rw [h.type]
    split
    · exact h4.symm
    · exact h5.symm
  have hadmit : (s.asked c r).admitReq c r.port r.f = (s.asked c r).takeJob c r.f isBulk :=
    admit_job isBulk hreq.admits.room hreq.admits.service hreq.admits.carve (by rw [h.type]; cases isBulk <;> rfl)
  rw [h.rx, work_clocked hreq.turn.passes.clocked, rxFrame_request hreq hc (hne 0x1A (by decide) (by decide))
    (hne 0x1B (by decide) (by decide)) (hne 0x52 (by decide) (by decide)) h.request, hadmit]

theorem JobRow.of_asJob {row : Instr} {rx : Rx} (isBulk : Bool) (job : Nat)
    (hrx : ∀ s, exec row s = work s fun s => s.rxFrame (asJob (if isBulk then 4 else 5) job rx)) :
    JobRow row (asJob (if isBulk then 4 else 5) job rx) isBulk :=
  ⟨hrx, (type_ty (if isBulk then 4 else 5) false rx).trans (by cases isBulk <;> rfl), type_resp (if isBulk then 4 else 5) false rx⟩

/-- The first two bytes of a payload that holds them are the JOB_TYPE that the row sets. -/
theorem asJob_jobType {rx : Rx} {job : Nat} (hjob : job < 65536) (hlen : 2 ≤ rx.f.payload.length) (ty : Nat) :
    leField (asJob ty job rx).f.payload 0 2 = job := by
  obtain ⟨b₀, b₁, bs, hpay⟩ : ∃ b₀ b₁ bs, rx.f.payload = b₀ :: b₁ :: bs := by
    match h : rx.f.payload, hlen with
    | b₀ :: b₁ :: bs, _ => exact ⟨b₀, b₁, bs, rfl⟩
  have hset : (asJob ty job rx).f.payload = BitVec.ofNat 8 job :: BitVec.ofNat 8 (job / 256) :: bs := by
    rw [show (asJob ty job rx).f.payload = (rx.f.payload.set 0 (BitVec.ofNat 8 job)).set 1 (BitVec.ofNat 8 (job / 256)) from rfl, hpay]
    rfl
  rw [hset]
  simp [leField, leNat]
  omega

/-- ACTION stands behind the JOB_TYPE. -/
theorem asMergeAct_jobType {rx : Rx} (hlen : 2 ≤ rx.f.payload.length) (action : Nat) :
    leField (asMergeAct action rx).f.payload 0 2 = 0x406 := by
  have hfield : leField (asMergeAct action rx).f.payload 0 2 = leField (asJob 5 0x406 rx).f.payload 0 2 := by
    rw [leField, leField, List.drop_zero, List.drop_zero,
      show (asMergeAct action rx).f.payload = (asJob 5 0x406 rx).f.payload.set 36 (BitVec.ofNat 8 action) from rfl,
      List.take_set_of_le (by decide)]
  rw [hfield, asJob_jobType (by decide) hlen]

/-- The rows of BULK and JOB, each with its frame, its JOB_TYPE and whether it is a BULK. -/
def jobRows : List ((Rx → Instr) × (Rx → Rx) × Nat × Bool) :=
  [(.bulkFill, asJob 4 1, 1, true), (.bulkCopy, asJob 4 2, 2, true), (.bulkCompare, asJob 4 3, 3, true), (.bulkReduce, asJob 4 4, 4, true),
    (.tierPolicy, asJob 5 0x10, 0x10, false), (.recode, asJob 5 0x11, 0x11, false), (.matmul, asJob 5 0x100, 0x100, false),
    (.convert, asJob 5 0x101, 0x101, false), (.sessionOpen, asJob 5 0x200, 0x200, false), (.sessionClose, asJob 5 0x201, 0x201, false),
    (.kvAppend, asJob 5 0x202, 0x202, false), (.attend, asJob 5 0x203, 0x203, false), (.wake, asJob 5 0x204, 0x204, false),
    (.sleep, asJob 5 0x205, 0x205, false), (.tableOpen, asJob 5 0x300, 0x300, false), (.tableVersion, asJob 5 0x301, 0x301, false),
    (.tableClose, asJob 5 0x302, 0x302, false), (.gather, asJob 5 0x310, 0x310, false), (.mergeUpdate, asJob 5 0x311, 0x311, false),
    (.collOpen, asJob 5 0x400, 0x400, false), (.collClose, asJob 5 0x401, 0x401, false), (.insertJob, asJob 5 0x402, 0x402, false),
    (.deleteJob, asJob 5 0x403, 0x403, false), (.searchJob, asJob 5 0x404, 0x404, false), (.mergeColl, asJob 5 0x405, 0x405, false),
    (.mergeResume, asMergeAct 0, 0x406, false), (.mergeAbandon, asMergeAct 1, 0x406, false)]

/-- Each is the row of its frame, and the frame carries the JOB_TYPE. -/
theorem jobRows_job (rx : Rx) : ∀ e ∈ jobRows, JobRow (e.1 rx) (e.2.1 rx) e.2.2.2 ∧
    (2 ≤ rx.f.payload.length → leField (e.2.1 rx).f.payload 0 2 = e.2.2.1) := by
  have hjob {row : Instr} (isBulk : Bool) (job : Nat) (hlt : job < 65536)
      (hrx : ∀ s, exec row s = work s fun s => s.rxFrame (asJob (if isBulk then 4 else 5) job rx)) :
      JobRow row (asJob (if isBulk then 4 else 5) job rx) isBulk ∧
        (2 ≤ rx.f.payload.length → leField (asJob (if isBulk then 4 else 5) job rx).f.payload 0 2 = job) :=
    ⟨.of_asJob isBulk job hrx, fun hlen => asJob_jobType hlt hlen _⟩
  have hact {row : Instr} (action : Nat) (hrx : ∀ s, exec row s = work s fun s => s.rxFrame (asMergeAct action rx)) :
      JobRow row (asMergeAct action rx) false ∧ (2 ≤ rx.f.payload.length → leField (asMergeAct action rx).f.payload 0 2 = 0x406) :=
    ⟨⟨hrx, type_ty 5 false rx, type_resp 5 false rx⟩, fun hlen => asMergeAct_jobType hlen action⟩
  unfold jobRows
  simp only [List.forall_mem_cons]
  refine ⟨hjob true 1 ?_ fun _ => rfl, hjob true 2 ?_ fun _ => rfl, hjob true 3 ?_ fun _ => rfl, hjob true 4 ?_ fun _ => rfl,
    hjob false 0x10 ?_ fun _ => rfl, hjob false 0x11 ?_ fun _ => rfl, hjob false 0x100 ?_ fun _ => rfl,
    hjob false 0x101 ?_ fun _ => rfl, hjob false 0x200 ?_ fun _ => rfl, hjob false 0x201 ?_ fun _ => rfl,
    hjob false 0x202 ?_ fun _ => rfl, hjob false 0x203 ?_ fun _ => rfl, hjob false 0x204 ?_ fun _ => rfl,
    hjob false 0x205 ?_ fun _ => rfl, hjob false 0x300 ?_ fun _ => rfl, hjob false 0x301 ?_ fun _ => rfl,
    hjob false 0x302 ?_ fun _ => rfl, hjob false 0x310 ?_ fun _ => rfl, hjob false 0x311 ?_ fun _ => rfl,
    hjob false 0x400 ?_ fun _ => rfl, hjob false 0x401 ?_ fun _ => rfl, hjob false 0x402 ?_ fun _ => rfl,
    hjob false 0x403 ?_ fun _ => rfl, hjob false 0x404 ?_ fun _ => rfl, hjob false 0x405 ?_ fun _ => rfl, hact 0 fun _ => rfl,
    hact 1 fun _ => rfl, fun _ h => absurd h List.not_mem_nil⟩ <;> decide

/-! ### The checks of admission (R202 to R205, Table 7-3 steps 1 to 5) -/

/-- The job of a frame under the next job number, before it enters a queue. -/
def State.numbered (s : State) (j : Job) : State :=
  s.onJobs fun x => { x with jobs := x.jobs.put s.jobs.nextJob j, nextJob := s.jobs.nextJob + 1 }

theorem State.numbered_job (s : State) (j : Job) : (s.numbered j).job? s.jobs.nextJob = some j :=
  (Tbl.get?_put _ _ _ _).trans (if_pos rfl)

section
variable {k : Conn} {f : Frame} {isBulk : Bool} (hk : s.conn? c = some k)
include hk

theorem State.takeJob_held (h : s.boot.service ≠ .full) : s.takeJob c f isBulk = s.refuseJob (jobOf c f isBulk) .held := by
  simp only [State.takeJob, hk, bne_iff_ne.mpr h, if_true]

variable (hfull : s.boot.service = .full)
include hfull

theorem State.takeJob_malformed (h : (jobOf c f isBulk).headOk = false) :
    s.takeJob c f isBulk = s.refuseJob (jobOf c f isBulk) .unsupported := by
  simp only [State.takeJob, hk, hfull, bne_self_eq_false, h, Bool.false_eq_true, if_false, Bool.not_false, if_true]

variable (hhead : (jobOf c f isBulk).headOk = true)
include hhead

theorem State.takeJob_foreign (h : k.tenant ≠ 0 ∧ (jobOf c f isBulk).tenant ≠ k.tenant) :
    s.takeJob c f isBulk = s.refuseJob (jobOf c f isBulk) .denied := by
  simp only [State.takeJob, hk, hfull, bne_self_eq_false, hhead, bne_iff_ne.mpr h.1, bne_iff_ne.mpr h.2, Bool.not_true, Bool.and_self,
    Bool.false_eq_true, if_false, if_true]

variable (hown : ¬(k.tenant ≠ 0 ∧ (jobOf c f isBulk).tenant ≠ k.tenant))
include hown

/-- A job of the connection's own tenant, in form: what its kinds of unit and its tenant's credits say. -/
theorem State.takeJob_own : s.takeJob c f isBulk =
    if !s.kindsPresent (jobOf c f isBulk) then s.refuseJob (jobOf c f isBulk) .unsupported
    else if (s.tenantJobs (jobOf c f isBulk).tenant).credits ≤ s.creditsUsed (jobOf c f isBulk).tenant then
      ((s.bump (Reg.jiRefusedCredit (ingressPage 0))).raiseQuiet 322).refuseJob (jobOf c f isBulk) .busy
    else (s.numbered (jobOf c f isBulk)).ingressRun s.jobs.nextJob := by
  have hforeign : (k.tenant != 0 && (jobOf c f isBulk).tenant != k.tenant) = false :=
    Bool.eq_false_iff.mpr fun h => hown (by simpa only [Bool.and_eq_true, bne_iff_ne] using h)
  simp only [State.takeJob, hk, hfull, bne_self_eq_false, hhead, hforeign, Bool.not_true, Bool.false_eq_true, if_false]
  rfl

theorem State.takeJob_absent (h : s.kindsPresent (jobOf c f isBulk) = false) :
    s.takeJob c f isBulk = s.refuseJob (jobOf c f isBulk) .unsupported := by
  rw [State.takeJob_own hk hfull hhead hown, h, Bool.not_false, if_pos rfl]

variable (hkinds : s.kindsPresent (jobOf c f isBulk) = true)
include hkinds

theorem State.takeJob_noCredit (h : (s.tenantJobs (jobOf c f isBulk).tenant).credits ≤ s.creditsUsed (jobOf c f isBulk).tenant) :
    s.takeJob c f isBulk = ((s.bump (Reg.jiRefusedCredit (ingressPage 0))).raiseQuiet 322).refuseJob (jobOf c f isBulk) .busy := by
  rw [State.takeJob_own hk hfull hhead hown, hkinds, Bool.not_true, if_neg Bool.false_ne_true, if_pos h]

theorem State.takeJob_numbers (h : s.creditsUsed (jobOf c f isBulk).tenant < (s.tenantJobs (jobOf c f isBulk).tenant).credits) :
    s.takeJob c f isBulk = (s.numbered (jobOf c f isBulk)).ingressRun s.jobs.nextJob := by
  rw [State.takeJob_own hk hfull hhead hown, hkinds, Bool.not_true, if_neg Bool.false_ne_true, if_neg h.not_ge]

end

/-! ### The first line (R207) -/

section
variable {i : Nat} {j : Job} (hj : s.job? i = some j) (hfresh : j.phase = .ingress ∧ j.stopped = none ∧ j.blocked = [])
include hj hfresh

theorem State.ingressRun_plain (hline : j.firstLine = none) : s.ingressRun i = s.enterQueue i j.plainDie := by
  obtain ⟨hphase, hstop, hblocked⟩ := hfresh
  simp only [State.ingressRun, hj, hphase, hstop, hblocked, hline, bne_self_eq_false, Option.isSome_none, List.any_nil, Bool.or_self,
    Bool.false_eq_true, if_false]

variable {va : Nat} {access : Access} {peer : Bool} {w : State} (hline : j.firstLine = some (va, access, peer))
include hline

theorem State.ingressRun_home {pa : Nat} (h : (Ctx.xlat { job := i, unit := 0, engine := 20 } va access 0 peer).run s = (.ok pa, w)) :
    s.ingressRun i = w.enterQueue i (homeDie (offOf pa)) := by
  obtain ⟨hphase, hstop, hblocked⟩ := hfresh
  simp only [State.ingressRun, hj, hphase, hstop, hblocked, hline, h, bne_self_eq_false, Option.isSome_none, List.any_nil, Bool.or_self,
    Bool.false_eq_true, if_false]

theorem State.ingressRun_waits {m : List Miss}
    (h : (Ctx.xlat { job := i, unit := 0, engine := 20 } va access 0 peer).run s = (.error (.wait m), w)) :
    s.ingressRun i = w.onJob i fun j => { j with blocked := [{ unit := 0, engine := 20, misses := m }] } := by
  obtain ⟨hphase, hstop, hblocked⟩ := hfresh
  simp only [State.ingressRun, hj, hphase, hstop, hblocked, hline, h, bne_self_eq_false, Option.isSome_none, List.any_nil, Bool.or_self,
    Bool.false_eq_true, if_false]

end

/-! ### The queue of a die (R206, R220, R221, R224, Table 7-3 steps 6 to 8) -/

/-- A job number that admission gives anew, or keeps, names the same job. -/
theorem State.renumber_number (s : State) (i : Nat) : (s.renumber i).1 = i ∨ (s.renumber i).1 = s.jobs.nextJob := by
  unfold State.renumber
  cases s.job? i with
  | none => exact .inl rfl
  | some j =>
    dsimp only
    split
    · exact .inl rfl
    · exact .inr rfl

theorem State.renumber_job (s : State) (i : Nat) : (s.renumber i).2.job? (s.renumber i).1 = s.job? i := by
  unfold State.renumber
  cases hj : s.job? i with
  | none => exact hj
  | some j =>
    dsimp only
    split
    · exact hj
    · exact (Tbl.get?_put _ _ _ _).trans (if_pos rfl)

theorem State.renumber_time (s : State) (i : Nat) : (s.renumber i).2.now = s.now ∧ (s.renumber i).2.ran = s.ran := by
  unfold State.renumber
  cases s.job? i with
  | none => exact ⟨rfl, rfl⟩
  | some j =>
    dsimp only
    split <;> exact ⟨rfl, rfl⟩

/-- The state in which a job of a tenant, of a length and a weight, waits in the queue of die d under its fair tag. -/
def State.queued (s : State) (i d t len w : Nat) : State :=
  (s.stampTag t len w).2.onJob i fun x =>
    { x with die := d, phase := .waiting, tag := (s.stampTag t len w).1, tAdmit := s.now, admitted := s.ran, blocked := [], held := [],
             kept := [] }

theorem State.queued_job (s : State) (i d t len w : Nat) : (s.queued i d t len w).job? i = (s.job? i).map fun x =>
    { x with die := d, phase := .waiting, tag := (s.stampTag t len w).1, tAdmit := s.now, admitted := s.ran, blocked := [], held := [],
             kept := [] } :=
  (State.job?_onJob _ _ _ _).trans (if_pos rfl)

section
variable {i : Nat} {j : Job} (hj : s.job? i = some j) {d : Nat}
include hj

theorem State.enterQueue_closed (h : ¬(s.stopping (ingressPage d) = false ∧ s.ctl.resetting.contains (ingressPage d) = false)) :
    s.enterQueue i d = s.dropJob i { j with die := d } .busy := by
  have hclosed : (s.stopping (ingressPage d) || s.ctl.resetting.contains (ingressPage d)) = true := by
    by_contra hc
    exact h (by simpa only [Bool.not_eq_true, Bool.or_eq_false_iff] using hc)
  simp only [State.enterQueue, hj, hclosed, if_true]

variable (hopen : s.stopping (ingressPage d) = false ∧ s.ctl.resetting.contains (ingressPage d) = false)
include hopen

theorem State.enterQueue_full (h : s.queueCap ≤ s.queueUsed d) :
    s.enterQueue i d = (s.bump (Reg.jiRefusedQueue (ingressPage d))).dropJob i { j with die := d } .busy := by
  simp only [State.enterQueue, hj, hopen.1, hopen.2, Bool.or_self, Bool.false_eq_true, if_false, if_pos h]

variable (hroom : s.queueUsed d < s.queueCap)
include hroom

theorem State.enterQueue_poolRefuses (h : (s.poolRefuses d j.tenant).1 = true) :
    s.enterQueue i d = (s.poolRefuses d j.tenant).2.dropJob i { j with die := d } .busy := by
  simp only [State.enterQueue, hj, hopen.1, hopen.2, Bool.or_self, Bool.false_eq_true, if_false, if_neg hroom.not_ge]
  rw [← Prod.mk.eta (p := s.poolRefuses d j.tenant), h]

variable (hpool : (s.poolRefuses d j.tenant).1 = false)
include hpool

theorem State.enterQueue_pooled {p : State} (hp : (s.poolRefuses d j.tenant).2 = p) : s.enterQueue i d =
    if !p.descOk { j with die := d } then (p.bump (Reg.jiRefusedDesc (ingressPage d))).dropJob i { j with die := d } .unsupported
    else if !p.kindsServe { j with die := d } then p.dropJob i { j with die := d } .busy
    else
      ((((p.renumber i).2.queued (p.renumber i).1 d j.tenant j.f.len.toNat ((p.renumber i).2.weightOf j.tenant j.weight)).bump64
        (Reg.jiJobsAdmitted (ingressPage d))).notePool d).jobBegin (p.renumber i).1 := by
  simp only [State.enterQueue, hj, hopen.1, hopen.2, Bool.or_self, Bool.false_eq_true, if_false, if_neg hroom.not_ge]
  rw [← Prod.mk.eta (p := s.poolRefuses d j.tenant), hpool, hp]
  rfl

theorem State.enterQueue_badDesc {p : State} (hp : (s.poolRefuses d j.tenant).2 = p) (h : p.descOk { j with die := d } = false) :
    s.enterQueue i d = (p.bump (Reg.jiRefusedDesc (ingressPage d))).dropJob i { j with die := d } .unsupported := by
  rw [State.enterQueue_pooled hj hopen hroom hpool hp, h, Bool.not_false, if_pos rfl]

theorem State.enterQueue_unserved {p : State} (hp : (s.poolRefuses d j.tenant).2 = p) (hdesc : p.descOk { j with die := d } = true)
    (h : p.kindsServe { j with die := d } = false) : s.enterQueue i d = p.dropJob i { j with die := d } .busy := by
  rw [State.enterQueue_pooled hj hopen hroom hpool hp, hdesc, h, Bool.not_true, if_neg Bool.false_ne_true, Bool.not_false, if_pos rfl]

theorem State.enterQueue_admits {p : State} (hp : (s.poolRefuses d j.tenant).2 = p) (hdesc : p.descOk { j with die := d } = true)
    (h : p.kindsServe { j with die := d } = true) : s.enterQueue i d =
      ((((p.renumber i).2.queued (p.renumber i).1 d j.tenant j.f.len.toNat ((p.renumber i).2.weightOf j.tenant j.weight)).bump64
        (Reg.jiJobsAdmitted (ingressPage d))).notePool d).jobBegin (p.renumber i).1 := by
  rw [State.enterQueue_pooled hj hopen hroom hpool hp, hdesc, h, Bool.not_true, if_neg Bool.false_ne_true, if_neg Bool.false_ne_true]

end

/-! ### A JOB_TYPE that is not assigned (R204) -/

/-- A descriptor in form has its head, and its JOB_TYPE is assigned. -/
theorem Job.headOk_assigned {j : Job} (h : j.headOk = true) :
    2 ≤ j.body.length ∧ (if j.isBulk then bulkType j.ty else jobTypes.contains j.ty) = true := by
  simp only [Job.headOk, Bool.and_eq_true, decide_eq_true_eq] at h
  obtain ⟨⟨⟨⟨⟨⟨⟨⟨hlen, hmin⟩, -⟩, -⟩, -⟩, -⟩, -⟩, hty⟩, -⟩ := h
  exact ⟨by omega, hty⟩

/-- Whether a JOB_TYPE is assigned in a frame of a type. -/
def jobAssigned (ty job : Nat) : Bool := if ty = 4 then bulkType job else jobTypes.contains job

theorem leField_two_lt (bs : List Byte) (off : Nat) : leField bs off 2 < 65536 := by
  rw [leField]
  match (bs.drop off) with
  | [] => decide
  | [b] => simpa [leNat] using b.isLt.trans (by decide)
  | b₀ :: b₁ :: l =>
    have h₀ := b₀.isLt
    have h₁ := b₁.isLt
    simp only [List.take_succ_cons, List.take_zero, leNat]
    omega

section
variable {rx : Rx} {ty job : Nat} (hty : ty = if rx.f.ty = 0x04 then 4 else 5)
  (hjob : job = if jobAssigned ty (leField rx.f.payload 0 2) then 0 else leField rx.f.payload 0 2)
include hty hjob

theorem unassignedJobType_row : JobRow (.unassignedJobType rx) (asJob ty job rx) (ty = 4) := by
  have hrx : ∀ s, exec (.unassignedJobType rx) s = work s fun s => s.rxFrame (asJob ty job rx) := by
    subst hty hjob
    exact fun _ => rfl
  have hcases : ty = 4 ∨ ty = 5 := hty ▸ ite_eq_or_eq _ _ _
  clear hty hjob
  obtain rfl | rfl := hcases
  · exact .of_asJob true job hrx
  · exact .of_asJob false job hrx

omit hty in
theorem unassignedJobType_malformed (c : Nat) : (jobOf c (asJob ty job rx).f (ty = 4)).headOk = false := by
  refine Bool.eq_false_iff.mpr fun h => ?_
  obtain ⟨hlen, hassigned⟩ := Job.headOk_assigned h
  have hnone : jobAssigned ty job = false := by
    rw [hjob]
    split
    · unfold jobAssigned
      split <;> rfl
    · next hno => exact Bool.eq_false_iff.mpr hno
  have hlt : job < 65536 := by
    rw [hjob]
    split
    · decide
    · exact leField_two_lt _ _
  have hlen' : 2 ≤ rx.f.payload.length := by
    have : (asJob ty job rx).f.payload.length = rx.f.payload.length := (List.length_set ..).trans (List.length_set ..)
    exact this ▸ hlen
  rw [show (jobOf c (asJob ty job rx).f (ty = 4)).ty = job from asJob_jobType hlt hlen' ty] at hassigned
  simp only [jobOf, decide_eq_true_eq] at hassigned
  exact absurd hassigned (Bool.eq_false_iff.mp hnone)

end

/-- Settles O50: the row of a job is its frame in turn, and the checks follow one another as in Table 7-3. -/
theorem jobAdmission : Obligations.JobAdmission := by
  unfold Obligations.JobAdmission
  intro rows
  refine ⟨?_, ?_, ?_⟩
  · intro s c k k' rx row as code isBulk hc hrow r hreq hk u j after foreign i v xlat
    obtain ⟨hjob, hcode⟩ := jobRows_job rx (row, as, code, isBulk) hrow
    have hexec : exec (row rx) s = after (u.takeJob c r.f isBulk) := hjob.exec_eq hreq hc
    have hv : v.job? i = some j := State.numbered_job u j
    have hfresh : j.phase = .ingress ∧ j.stopped = none ∧ j.blocked = [] := ⟨rfl, rfl, rfl⟩
    rw [hexec]
    refine ⟨hcode, fun h => ?_, fun hfull h => ?_, fun hfull hhead h => ?_, fun hfull hhead hown h => ?_, fun hfull hhead hown hkinds =>
      ⟨fun h => ?_, fun h => ?_⟩⟩
    · rw [State.takeJob_held hk h]
    · rw [State.takeJob_malformed hk hfull h]
    · rw [State.takeJob_foreign hk hfull hhead h]
    · rw [State.takeJob_absent hk hfull hhead hown h]
    · rw [State.takeJob_noCredit hk hfull hhead hown hkinds h]
    · have hrun : u.takeJob c r.f isBulk = v.ingressRun i := State.takeJob_numbers hk hfull hhead hown hkinds h
      rw [hrun]
      refine ⟨fun hline => ?_, fun va a p hline => ⟨fun pa w hx => ?_, fun m w hx => ?_⟩⟩
      · rw [State.ingressRun_plain hv hfresh hline]
      · rw [State.ingressRun_home hv hfresh hline hx]
      · rw [State.ingressRun_waits hv hfresh hline hx]
  · intro w i d j hj pg j' open_
    refine ⟨fun h => State.enterQueue_closed hj h, fun hopen h => State.enterQueue_full hj hopen h, ?_⟩
    intro hopen hroom p
    refine ⟨fun h => State.enterQueue_poolRefuses hj hopen hroom h, fun hpool => ⟨fun h => ?_, fun hdesc h => ?_, ?_⟩⟩
    · exact State.enterQueue_badDesc hj hopen hroom hpool rfl h
    · exact State.enterQueue_unserved hj hopen hroom hpool rfl hdesc h
    · intro hdesc h n q
      obtain ⟨hnow, hran⟩ := State.renumber_time p i
      refine ⟨q.queued n d j.tenant j.f.len.toNat (q.weightOf j.tenant j.weight), State.enterQueue_admits hj hopen hroom hpool rfl hdesc h,
        State.renumber_number p i, ?_⟩
      rw [State.queued_job, hnow, hran, State.renumber_job]
  · intro s c k k' rx ty job hc hty hjob r hreq hk hfull
    rw [(unassignedJobType_row hty hjob).exec_eq hreq hc, State.takeJob_malformed hk hfull (unassignedJobType_malformed hjob c)]

end Sys2Proof.Machine
end

section
/-! PROOFS. Dealing: which array and job a deal takes, what the chunk sums of a unit come to, the gather engine that the oldest job
takes, and the starts of merge entries and session jobs. -/

namespace Sys2Proof.Machine

variable {s : State}

/-! ### The array and the job of a deal (R222, R248) -/

theorem findSome?_range_some {α : Type} {f : Nat → Option α} {x : α} {n : Nat} (h : (List.range n).findSome? f = some x) :
    ∃ a < n, f a = some x ∧ ∀ b < a, f b = none := by
  obtain ⟨before, a, after, hsplit, ha, hnone⟩ := List.findSome?_eq_some_iff.mp h
  have hlt (b : Nat) : b ∈ before ++ a :: after ↔ b < n := hsplit ▸ List.mem_range
  have hsorted : (before ++ a :: after).Pairwise (· < ·) := hsplit ▸ List.pairwise_lt_range
  have han : a < n := (hlt a).mp (List.mem_append_right _ List.mem_cons_self)
  refine ⟨a, han, ha, fun b hb => hnone b ?_⟩
  obtain hmem | hmem := List.mem_append.mp ((hlt b).mpr (hb.trans han))
  · exact hmem
  · obtain rfl | hafter := List.mem_cons.mp hmem
    · exact absurd hb (lt_irrefl _)
    · exact absurd hb (List.rel_of_pairwise_cons (List.pairwise_append.mp hsorted).2.1 hafter).not_gt

/-- What an arbiter picks is one of the requests that wait. -/
theorem arbiterPick_mem {l : List (Nat × Nat × Nat)} {i : Nat} (h : arbiterPick l = some i) : ∃ x ∈ l, x.1 = i := by
  cases ht : l.take 16 with
  | nil => simp only [arbiterPick, ht, reduceCtorEq] at h
  | cons x xs =>
    simp only [arbiterPick, ht, Option.some.injEq] at h
    refine ⟨_, List.mem_of_mem_take (i := 16) ?_, h⟩
    rw [ht]
    refine List.foldlRecOn (motive := (· ∈ x :: xs)) xs _ List.mem_cons_self fun b hb y hy => ?_
    split
    · exact List.mem_cons_of_mem x hy
    · exact hb

theorem arbiterPick_none_iff {l : List (Nat × Nat × Nat)} : arbiterPick l = none ↔ l = [] := by
  cases l <;> simp [arbiterPick]

section
variable {p : Job → Bool} {fits : Nat → Job → Bool} {a i : Nat}

/-- Some job of a kind has a unit left that array a, which is free, can take. -/
def State.ArrayWanted (s : State) (p : Job → Bool) (fits : Nat → Job → Bool) (a : Nat) : Prop :=
  s.arrayHeld a = false ∧ ∃ e ∈ s.jobs.jobs, p e.2 = true ∧ fits a e.2 = true ∧ e.2.nextUnit.isSome = true

/-- The job that array a would take. -/
def State.arrayTakes (s : State) (p : Job → Bool) (fits : Nat → Job → Bool) (a : Nat) : Option (Nat × Nat) :=
  if s.arrayHeld a then none else (arbiterPick (s.waitingJobs fun j => p j && fits a j)).map fun i => (a, i)

theorem State.dealArray_eq : s.dealArray p fits = (List.range 8).findSome? (s.arrayTakes p fits) := rfl

theorem State.arrayTakes_some {x : Nat × Nat} (h : s.arrayTakes p fits a = some x) : x.1 = a ∧ s.arrayHeld a = false ∧
    ∃ j, (x.2, j) ∈ s.jobs.jobs ∧ p j = true ∧ fits a j = true ∧ j.nextUnit.isSome = true := by
  obtain ⟨hfree, hpick⟩ := ite_eq_iff'.mp h
  by_cases hheld : s.arrayHeld a = true
  · exact absurd (hfree hheld) nofun
  · obtain ⟨i, hi, rfl⟩ := Option.map_eq_some_iff.mp (hpick hheld)
    obtain ⟨y, hy, rfl⟩ := arbiterPick_mem hi
    obtain ⟨e, he, rfl⟩ := List.mem_map.mp hy
    obtain ⟨hmem, hgo⟩ := List.mem_filter.mp he
    simp only [Bool.and_eq_true, and_assoc] at hgo
    exact ⟨rfl, Bool.eq_false_iff.mpr hheld, e.2, hmem, hgo⟩

theorem State.arrayTakes_none_iff : s.arrayTakes p fits a = none ↔ ¬s.ArrayWanted p fits a := by
  by_cases hheld : s.arrayHeld a = true
  · simp [State.arrayTakes, State.ArrayWanted, hheld]
  · simp [State.arrayTakes, State.ArrayWanted, hheld, arbiterPick_none_iff, State.waitingJobs, List.filter_eq_nil_iff]

theorem State.dealArray_none_iff : s.dealArray p fits = none ↔ ∀ a, a < 8 → ¬s.ArrayWanted p fits a := by
  simp only [State.dealArray_eq, List.findSome?_eq_none_iff, List.mem_range, State.arrayTakes_none_iff]

theorem State.dealArray_some (h : s.dealArray p fits = some (a, i)) : a < 8 ∧ s.arrayHeld a = false ∧
    (∀ b, b < a → ¬s.ArrayWanted p fits b) ∧
    ∃ j, (i, j) ∈ s.jobs.jobs ∧ p j = true ∧ fits a j = true ∧ j.nextUnit.isSome = true := by
  obtain ⟨a', ha, htakes, hlower⟩ := findSome?_range_some h
  obtain ⟨rfl, hfree, hjob⟩ := State.arrayTakes_some htakes
  exact ⟨ha, hfree, fun b hb => State.arrayTakes_none_iff.mp (hlower b hb), hjob⟩

end

/-! ### What the chunk sums of a unit come to (R252) -/

section
variable {a i u : Nat} {ms : List Nat}

/-- The single mismatches on array a that count before a chunk shows a second one. -/
def State.residuesCounted (s : State) (a : Nat) (ms : List Nat) : State :=
  (ms.takeWhile (· < 2)).foldl (fun t n => if n = 1 then t.residue a else t) s

theorem State.residuesCounted_cons {n : Nat} (hn : ¬2 ≤ n) :
    s.residuesCounted a (n :: ms) = (s.when (n = 1) fun s => s.residue a).residuesCounted a ms := by
  have hlt : n < 2 := by omega
  simp only [State.residuesCounted, List.takeWhile_cons, hlt, decide_true, if_true, List.foldl_cons, State.when, decide_eq_true_eq]

theorem State.residues_hold (h : ¬∃ n ∈ ms, 2 ≤ n) : s.residues a i u ms = (false, s.residuesCounted a ms) := by
  induction ms generalizing s with
  | nil => rfl
  | cons n ms ih =>
    simp only [List.mem_cons, exists_eq_or_imp, not_or] at h
    obtain ⟨hn, hms⟩ := h
    rw [State.residues, if_neg hn, ih hms, State.residuesCounted_cons hn]

theorem State.residues_fail (h : ∃ n ∈ ms, 2 ≤ n) : s.residues a i u ms = (true, (s.residuesCounted a ms).residueFail a i u) := by
  induction ms generalizing s with
  | nil => simp only [List.not_mem_nil, false_and, exists_false] at h
  | cons n ms ih =>
    by_cases hn : 2 ≤ n
    · simp only [State.residues, if_pos hn, State.residuesCounted, List.takeWhile_cons, not_lt.mpr hn, decide_false, Bool.false_eq_true, if_false,
        List.foldl_nil]
    · have hms : ∃ n ∈ ms, 2 ≤ n := by simpa only [List.mem_cons, exists_eq_or_imp, or_iff_right hn] using h
      rw [State.residues, if_neg hn, ih hms, State.residuesCounted_cons hn]

/-- A unit that has been dealt runs on its array, unless the array fails on one of its chunks. -/
def State.runDealt (s : State) (a i u : Nat) (ms : List Nat) (c : Ctx) (body : Eng Unit) : State :=
  match s.residues a i u ms with
  | (true, s) => s
  | (false, s) => s.runUnit c (failKey u 0) body

theorem State.runDealt_runs {c : Ctx} {body : Eng Unit} (h : ¬∃ n ∈ ms, 2 ≤ n) :
    s.runDealt a i u ms c body = (s.residuesCounted a ms).runUnit c (failKey u 0) body := by
  rw [State.runDealt, State.residues_hold h]

theorem State.runDealt_fails {c : Ctx} {body : Eng Unit} (h : ∃ n ∈ ms, 2 ≤ n) :
    s.runDealt a i u ms c body = (s.residuesCounted a ms).residueFail a i u := by
  rw [State.runDealt, State.residues_fail h]

end

/-! ### TILE_DEAL, PIECE_DEAL and QUERY_DEAL (R248, R306, R362) -/

/-- The array and the job that TILE_DEAL takes. -/
def State.tileDeal (s : State) : Option (Nat × Nat) :=
  s.dealArray (fun j => j.ty = 0x100 || j.ty = 0x101) fun a j => s.arrayServes a j.needsExpander

/-- The array and the job that PIECE_DEAL takes. -/
def State.pieceDeal (s : State) : Option (Nat × Nat) := s.dealArray (fun j => j.ty = 0x203) s.pieceArray

/-- The array and the job that QUERY_DEAL takes. -/
def State.queryDeal (s : State) : Option (Nat × Nat) :=
  s.dealArray (fun j => j.ty = 0x404) fun a _ => s.arrayServes a false && s.serves (corePage (a / 4) 0x70)

/-- The state once a query has taken the mismatches that its chunk sums show. -/
def State.misfiresTaken (s : State) : State := s.onJobs fun j => { j with misfires := [] }

theorem tileDealOp_none {ms : List Nat} (h : s.tileDeal = none) : tileDealOp ms s = s := by
  rw [State.tileDeal] at h
  rw [tileDealOp, h]

theorem pieceDealOp_none {ms : List Nat} (h : s.pieceDeal = none) : pieceDealOp ms s = s := by
  rw [State.pieceDeal] at h
  rw [pieceDealOp, h]

theorem queryDealOp_none (h : s.queryDeal = none) : queryDealOp s = s := by
  rw [State.queryDeal] at h
  rw [queryDealOp, h]

section
variable {a i u : Nat} {j : Job} {ms : List Nat} (hj : s.job? i = some j) (hu : j.nextUnit = some u)
include hj hu

theorem tileDealOp_deals (h : s.tileDeal = some (a, i)) : tileDealOp ms s =
    (s.onJob i Job.dealt).runDealt a i u (if j.ty = 0x100 then ms else []) { job := i, unit := u, engine := a }
      (matrixUnit j.ty { job := i, unit := u, engine := a }) := by
  rw [State.tileDeal] at h
  simp only [tileDealOp, h, hj, hu]
  rfl

theorem pieceDealOp_deals (h : s.pieceDeal = some (a, i)) : pieceDealOp ms s =
    (s.onJob i Job.dealt).runDealt a i u ms { job := i, unit := u, engine := a } (attendUnit { job := i, unit := u, engine := a }) := by
  rw [State.pieceDeal] at h
  simp only [pieceDealOp, h, hj, hu, Option.bind_some]
  rfl

theorem queryDealOp_deals (h : s.queryDeal = some (a, i)) : queryDealOp s =
    (s.onJob i Job.dealt).misfiresTaken.runDealt a i u s.jobs.misfires
      { job := i, unit := u, engine := 14 + a / 4, array := some a }
      (queryUnit { job := i, unit := u, engine := 14 + a / 4, array := some a }) := by
  rw [State.queryDeal] at h
  simp only [queryDealOp, h, hj, hu, Option.bind_some]
  rfl

end

/-! ### GATHER_DEAL (R324) -/

/-- A gather engine that serves and holds no job. -/
def State.EngineFree (s : State) (e : Nat) : Prop := e < 4 ∧ s.serves (gatherPage e) = true ∧ s.gatherHeld e = false

/-- The lowest free gather engine. -/
def State.freeEngine (s : State) : Option Nat := (List.range 4).find? fun e => s.serves (gatherPage e) && !s.gatherHeld e

theorem State.freeEngine_none (h : ∀ e, ¬s.EngineFree e) : s.freeEngine = none := by
  refine List.find?_range_eq_none.mpr fun e he => ?_
  simpa [State.EngineFree, he, or_iff_not_imp_left] using h e

theorem State.freeEngine_some {e : Nat} (h : s.EngineFree e) (hlower : ∀ b, b < e → ¬s.EngineFree b) : s.freeEngine = some e := by
  obtain ⟨he, hserves, hfree⟩ := h
  refine List.find?_range_eq_some.mpr ⟨by simp [hserves, hfree], List.mem_range.mpr he, fun b hb => ?_⟩
  simpa [State.EngineFree, hb.trans he, or_iff_not_imp_left] using hlower b hb

theorem gatherDealOp_idle (h : (∀ e, ¬s.EngineFree e) ∨ ∀ x ∈ s.jobs.jobs, s.embReady x.1 x.2 = false) : gatherDealOp s = s := by
  obtain hnone | hready := h
  · have hfree : s.freeEngine = none := State.freeEngine_none hnone
    rw [State.freeEngine] at hfree
    rw [gatherDealOp, hfree]
  · have hfind : s.jobs.jobs.find? (fun x => s.embReady x.1 x.2) = none :=
      List.find?_eq_none.mpr fun x hx => Bool.eq_false_iff.mp (hready x hx)
    rw [gatherDealOp, hfind]
    split <;> rfl

theorem gatherDealOp_deals {e i : Nat} {j : Job} {before later : List (Nat × Job)} (h : s.EngineFree e)
    (hlower : ∀ b, b < e → ¬s.EngineFree b) (hjobs : s.jobs.jobs = before ++ (i, j) :: later)
    (holder : ∀ x ∈ before, s.embReady x.1 x.2 = false) (hready : s.embReady i j = true) :
    gatherDealOp s = (s.onJob i fun j => { j with phase := .running, engine := 10 + e }).embClaim i := by
  have hfind : s.jobs.jobs.find? (fun x => s.embReady x.1 x.2) = some (i, j) :=
    List.find?_eq_some_iff_append.mpr ⟨hready, before, later, hjobs, fun x hx => by rw [holder x hx]; rfl⟩
  have hfree : s.freeEngine = some e := State.freeEngine_some h hlower
  rw [State.freeEngine] at hfree
  rw [gatherDealOp, hfree, hfind]

/-! ### MERGE_ENTRY_CLAIM (R326) -/

/-- A job that runs has claimed no entries yet, and enough of them are free. -/
def State.MayClaim (s : State) (j : Job) : Prop :=
  (j.ty = 0x310 ∨ j.ty = 0x311) ∧ j.phase = .running ∧ j.next = 0 ∧ j.stopped = none ∧ 4096 ≤ s.mergeFree

theorem State.mayClaim_iff {j : Job} : s.MayClaim j ↔
    ¬((j.ty != 0x310 && j.ty != 0x311) || j.phase != .running || j.next != 0 || j.stopped.isSome || s.mergeFree < 4096) = true := by
  simp only [State.MayClaim, Bool.or_eq_true, Bool.and_eq_true, bne_iff_ne, decide_eq_true_eq, not_or, not_and_or, not_not, not_lt, ne_eq,
    Option.isSome_iff_ne_none, and_assoc]

/-- The state in which a job has claimed n entries. -/
def State.entriesClaimed (s : State) (i n : Nat) : State :=
  (s.onEmb fun e => { e with claims := e.claims.put i n }).onJob i fun j => { j with next := 1 }

section
variable {i : Nat} {j : Job} (hj : s.job? i = some j)
include hj

theorem State.embClaim_claims (h : s.MayClaim j) : s.embClaim i =
    (s.entriesClaimed i (min (s.reg (if j.ty = 0x310 then Reg.geFilterMax else Reg.geMergeMax)) s.mergeFree)).runUnit
      { job := i, unit := 0, engine := j.engine } (failKey 0 0) (embUnit j.ty { job := i, unit := 0, engine := j.engine }) := by
  simp only [State.embClaim, hj, if_neg (State.mayClaim_iff.mp h)]
  rfl

theorem State.embClaim_idle (h : ¬s.MayClaim j) : s.embClaim i = s := by
  simp only [State.embClaim, hj, not_not.mp (mt State.mayClaim_iff.mpr h), if_true]

end

/-! ### SESSION_JOB_START (R296) -/

/-- A session job that waits for its turn. -/
def Job.SessionWaiting (j : Job) : Prop := j.phase = .waiting ∧ j.stopped = none ∧ 0x200 ≤ j.ty ∧ j.ty ≤ 0x205

theorem Job.sessionWaiting_iff {j : Job} :
    j.SessionWaiting ↔ ¬(j.phase != .waiting || j.stopped.isSome || j.ty < 0x200 || 0x205 < j.ty) = true := by
  simp only [Job.SessionWaiting, Bool.or_eq_true, bne_iff_ne, decide_eq_true_eq, not_or, not_not, not_lt, ne_eq,
    Option.isSome_iff_ne_none, and_assoc]

section
variable {i : Nat} {j : Job} (hj : s.job? i = some j)
include hj

theorem State.sessionGo_idle (h : ¬j.SessionWaiting) : s.sessionGo i = s := by
  simp only [State.sessionGo, hj, not_not.mp (mt Job.sessionWaiting_iff.mpr h), if_true]

theorem State.sessionGo_waiting (h : j.SessionWaiting) : s.sessionGo i =
    if j.ty != 0x200 && (s.sessionBefore i j).contains 0x201 then s.stopJob i .notPresent
    else if j.ty != 0x200 && s.sessionWaits i j then s
    else s.sessionBegin i j := by
  simp only [State.sessionGo, hj, if_neg (Job.sessionWaiting_iff.mp h)]

theorem State.sessionGo_closed (h : j.SessionWaiting) (hty : j.ty ≠ 0x200) (hclose : 0x201 ∈ s.sessionBefore i j) :
    s.sessionGo i = s.stopJob i .notPresent := by
  rw [State.sessionGo_waiting hj h, if_pos (by simp [hty, hclose])]

theorem State.sessionGo_waits (h : j.SessionWaiting) (hty : j.ty ≠ 0x200) (hclose : 0x201 ∉ s.sessionBefore i j)
    (hwaits : s.sessionWaits i j = true) : s.sessionGo i = s := by
  rw [State.sessionGo_waiting hj h, if_neg (by simp [hclose]), if_pos (by simp [hty, hwaits])]

theorem State.sessionGo_begins (h : j.SessionWaiting) (hturn : j.ty = 0x200 ∨ 0x201 ∉ s.sessionBefore i j ∧ s.sessionWaits i j = false) :
    s.sessionGo i = s.sessionBegin i j := by
  obtain hopen | ⟨hclose, hwaits⟩ := hturn
  · rw [State.sessionGo_waiting hj h, if_neg (by simp [hopen]), if_neg (by simp [hopen])]
  · rw [State.sessionGo_waiting hj h, if_neg (by simp [hclose]), if_neg (by simp [hwaits])]

end

/-- Settles O51: who takes a deal by the arbiter's pick, a dealt unit by what its chunk sums come to, and the other rows by the
conditions under which their operations act. -/
theorem workDeals : Obligations.WorkDeals := by
  intro s hs ok
  refine ⟨?_, ?_, ?_, ?_, ?_⟩
  · intro p fits waits
    exact ⟨State.dealArray_none_iff, fun a i => State.dealArray_some⟩
  · intro failed counted dealt
    have hdealt {row op p fits sums engine array unit clear} (hrow : exec row s = work s op) (hnone : s.dealArray p fits = none → op s = s)
        (hdeals : ∀ a i j u, s.dealArray p fits = some (a, i) → s.job? i = some j → j.nextUnit = some u →
          op s = (clear (s.onJob i Job.dealt)).runDealt a i u (sums j) { job := i, unit := u, engine := engine a, array := array a }
            (unit j { job := i, unit := u, engine := engine a, array := array a })) :
        dealt row p fits sums engine array unit clear := by
      refine ⟨fun h => exec_work_eq hrow hs (hnone h), fun a i j u h hj hu => ⟨fun hsums => ?_, fun hsums => ?_⟩⟩
      · exact exec_work_eq hrow hs ((hdeals a i j u h hj hu).trans (State.runDealt_runs hsums))
      · exact exec_work_eq hrow hs ((hdeals a i j u h hj hu).trans (State.runDealt_fails hsums))
    exact ⟨fun ms => hdealt rfl tileDealOp_none fun a i j u h hj hu => tileDealOp_deals hj hu h,
      fun ms => hdealt rfl pieceDealOp_none fun a i j u h hj hu => pieceDealOp_deals hj hu h,
      hdealt (clear := State.misfiresTaken) rfl queryDealOp_none fun a i j u h hj hu => queryDealOp_deals hj hu h⟩
  · intro free
    exact ⟨fun h => exec_work_eq rfl hs (gatherDealOp_idle h), fun e before i j later h hlower hjobs holder hready =>
      exec_work_eq rfl hs (gatherDealOp_deals h hlower hjobs holder hready)⟩
  · intro i j hj go
    exact ⟨fun h => ⟨_, rfl, exec_work_eq (f := fun s => s.embClaim i) rfl hs (State.embClaim_claims hj h)⟩,
      fun h => exec_work_eq (f := fun s => s.embClaim i) rfl hs (State.embClaim_idle hj h)⟩
  · intro i j hj waiting
    have hgo {t : State} (h : s.sessionGo i = t) : exec (.sessionJobStart i) s = ok t :=
      exec_work_eq (f := fun s => s.sessionGo i) rfl hs h
    exact ⟨fun h => hgo (State.sessionGo_idle hj h), fun h hty hclose => hgo (State.sessionGo_closed hj h hty hclose),
      fun h hty hclose hwaits => hgo (State.sessionGo_waits hj h hty hclose hwaits), fun h hturn => hgo (State.sessionGo_begins hj h hturn)⟩

end Sys2Proof.Machine
end

section
/-! PROOFS. How jobs end: when a completion is due and how it goes out, what stopping a job changes, and the highest use of a
request pool. -/

namespace Sys2Proof.Machine

variable {s : State} {i : Nat} {j : Job}

/-! ### JOB_COMPLETION (R208 to R210) -/

/-- A job's work is over: it is stopped, or runs and has ended all its units. -/
def Job.Worked (j : Job) : Prop :=
  j.stopped.isSome = true ∨ j.phase = .running ∧ j.finished = j.units ∧ j.blocked = [] ∧ j.todo = []

/-- The completion of a job carries record and result to TARGET (R210). -/
def Job.WritesResult (j : Job) : Prop := bit j.flags 1 = true ∧ j.isBulk = false ∧ j.phase ≠ .ingress

theorem Job.writesResult_iff (j : Job) : j.WritesResult ↔ (bit j.flags 1 && !j.isBulk && j.phase != .ingress) = true := by
  simp only [Job.WritesResult, Bool.and_eq_true, Bool.not_eq_true', bne_iff_ne, ne_eq, and_assoc]

/-- The state in which a completion has been formed whose body is to be written at TARGET. -/
def State.completionKept (s : State) (i : Nat) (st : Status) (detail : Nat) (body : List Byte) : State :=
  s.onJob i fun j =>
    { j with phase := .done, status := st, stopped := none, fails := [], blocked := [], bad := [], staging := [], held := [], kept := [],
             faultAt := [], finished := 0, todo := [], engine := j.doneEngine, doneAt := s.now, detail := detail, result := body }

theorem State.completionKept_job {st : Status} {detail : Nat} {body : List Byte} {x : Job}
    (hx : (s.completionKept i st detail body).job? i = some x) :
    x.phase = .done ∧ x.status = st ∧ x.detail = detail ∧ x.result = body ∧ x.stopped = none := by
  rw [State.completionKept, State.job?_onJob, if_pos rfl, Option.map_eq_some_iff] at hx
  obtain ⟨y, -, rfl⟩ := hx
  exact ⟨rfl, rfl, rfl, rfl, rfl⟩

theorem jobCompletionOp_unready (h : s.jobReady i = false) : jobCompletionOp i s = s := by
  simp only [jobCompletionOp, h, Bool.not_false, if_true]

theorem jobCompletionOp_none (hj : s.job? i = none) : jobCompletionOp i s = s :=
  jobCompletionOp_unready (by simp only [State.jobReady, hj])

section
variable (hj : s.job? i = some j)
include hj

theorem State.jobReady_iff :
    s.jobReady i = true ↔ j.Worked ∧ j.peerLeft = [] ∧ s.jobBusy i = false ∧ j.phase ≠ .done := by
  simp only [State.jobReady, hj, Job.Worked, Bool.and_eq_true, Bool.or_eq_true, decide_eq_true_eq, List.isEmpty_iff, Bool.not_eq_true',
    bne_iff_ne, and_assoc]

variable {st : Status} {result : List Byte} {detail : Nat} {t : State}

theorem jobCompletionOp_sends (hty : j.ty ≠ 0) (hready : s.jobReady i = true) (hform : s.jobForm i j = (st, result, detail, t))
    (hw : ¬((t.job? i).getD j).WritesResult) : jobCompletionOp i s =
      t.jobEnds i ((t.job? i).getD j) st (((t.job? i).getD j).record st false t.now result.length detail ++ result) := by
  simp only [jobCompletionOp, hready, hj, hty, hform, (Job.writesResult_iff _).not.mp hw, Bool.not_true, Bool.false_eq_true, if_false]

theorem jobCompletionOp_writes (hty : j.ty ≠ 0) (hready : s.jobReady i = true) (hform : s.jobForm i j = (st, result, detail, t))
    (hw : ((t.job? i).getD j).WritesResult) : jobCompletionOp i s =
      (t.completionKept i st detail (((t.job? i).getD j).record st true t.now result.length detail ++ result)).targetRun i := by
  simp only [jobCompletionOp, hready, hj, hty, hform, (Job.writesResult_iff _).mp hw, Bool.not_true, Bool.false_eq_true, if_false, if_true]
  rfl

end

/-! ### TIME_LIMIT_EXPIRY (R211) -/

theorem State.stopJob_job (hj : s.job? i = some j) (st : Status) : (s.stopJob i st).job? i =
    some { j with stopped := some (j.stopped.getD st), lowest := some (j.lowest.getD j.unwritten), blocked := [], refs := [], blocks := [] } := by
  refine (Tbl.get?_update _ i i _).trans ?_
  rw [if_pos rfl, show Tbl.get? s.jobs.jobs i = some j from hj]
  rfl

theorem State.stopJob_others (st : Status) {k : Nat} (hk : k ≠ i) : (s.stopJob i st).job? k = s.job? k :=
  (Tbl.get?_update _ i k _).trans (if_neg hk.symm)

theorem State.stopJob_parked {st : Status} {p : Parked} (hp : p ∈ (s.stopJob i st).xlat.parked) : p.who.job ≠ i :=
  bne_iff_ne.mp (List.mem_filter.mp hp).2

theorem State.stopJob_waiters {st : Status} {w : Nat × Walk} (hw : w ∈ (s.stopJob i st).xlat.walks) {y : Waiter} (hy : y ∈ w.2.waiters) :
    y.job ≠ i := by
  obtain ⟨w', -, rfl⟩ := List.mem_map.mp hw
  exact bne_iff_ne.mp (List.mem_filter.mp hy).2

/-- A job has passed its time limit, once admitted. -/
def State.LimitPassed (s : State) (j : Job) : Prop :=
  j.ty ≠ 0 ∧ j.limit ≠ 0 ∧ j.phase ≠ .ingress ∧ j.admitted + j.limit * 1000 ≤ s.ran

theorem timeLimitExpiryOp_none (hj : s.job? i = none) : timeLimitExpiryOp i s = s := by
  simp only [timeLimitExpiryOp, hj]

section
variable (hj : s.job? i = some j)
include hj

theorem timeLimitExpiryOp_eq :
    timeLimitExpiryOp i s =
      s.when (j.ty != 0 && j.limit != 0 && j.phase != .ingress && s.since j.admitted (j.limit * 1000)) fun s => s.stopJob i .timeout := by
  simp only [timeLimitExpiryOp, hj, State.when]

theorem timeLimitExpiryOp_passed (h : s.LimitPassed j) : timeLimitExpiryOp i s = s.stopJob i .timeout := by
  obtain ⟨hty, hlimit, hphase, hran⟩ := h
  simp only [timeLimitExpiryOp_eq hj, State.since, bne_iff_ne.mpr hty, bne_iff_ne.mpr hlimit, bne_iff_ne.mpr hphase, decide_eq_true hran,
    Bool.and_self, State.when_true]

theorem timeLimitExpiryOp_early (h : ¬s.LimitPassed j) : timeLimitExpiryOp i s = s := by
  rw [timeLimitExpiryOp_eq hj]
  refine if_neg fun hc => h ?_
  simp only [Bool.and_eq_true, bne_iff_ne, State.since, decide_eq_true_eq, and_assoc] at hc
  exact hc

end

/-! ### POOL_HIGH (R226) -/

theorem exec_poolHigh (hs : s.clocked = true) (h : Nat) :
    exec (.poolHigh h) s = .next (settle (s.setReg (Reg.rpPoolHigh (poolPage (h % 2))) (s.poolUsed (h % 2)))) := act_clocked hs _

/-- Settles O53: a completion is sent or kept for TARGET as its job says, an expired limit stops the job and what stopping changes
is said once, and POOL_HIGH is one register. -/
theorem jobEnds : Obligations.JobEnds := by
  intro s hs ok
  refine ⟨?_, fun i hj => ⟨?_, ?_⟩, ?_, fun h => ⟨_, exec_poolHigh hs h, ?_, fun a ha => ?_, rfl⟩⟩
  · intro i j hj hty worked ready
    have hready : s.jobReady i = true ↔ ready := State.jobReady_iff hj
    refine ⟨fun h => ?_, ?_⟩
    · exact exec_work_eq rfl hs (jobCompletionOp_unready (Bool.eq_false_iff.mpr (mt hready.mp h)))
    · intro h st result detail t hform j' record writes
      refine ⟨fun hw => ?_, fun hw => ⟨t.completionKept i st detail (record true), ?_, rfl, rfl, fun x hx => State.completionKept_job hx⟩⟩
      · exact exec_work_eq rfl hs (jobCompletionOp_sends hj hty (hready.mpr h) hform hw)
      · exact exec_work_eq rfl hs (jobCompletionOp_writes hj hty (hready.mpr h) hform hw)
  · exact exec_work_eq rfl hs (jobCompletionOp_none hj)
  · exact exec_work_eq rfl hs (timeLimitExpiryOp_none hj)
  · intro i j hj due
    refine ⟨fun h => ?_, fun h => ?_⟩
    · exact ⟨s.stopJob i .timeout, _, exec_work_eq rfl hs (timeLimitExpiryOp_passed hj h), State.stopJob_job hj .timeout, rfl, rfl,
        fun k hk => State.stopJob_others .timeout hk, rfl, rfl, rfl, fun p hp => State.stopJob_parked hp,
        fun w hw y hy => State.stopJob_waiters hw hy⟩
    · exact exec_work_eq rfl hs (timeLimitExpiryOp_early hj h)
  · exact (State.reg_setReg _ _ _ _).trans (if_pos rfl)
  · exact (State.reg_setReg _ _ _ _).trans (if_neg ha.symm)

end Sys2Proof.Machine
end

section
/-! PROOFS. Palette slots: what a palette command or a step of a build leaves of the slot that it names, and that it leaves every
other slot, the store and the jobs as they are. -/

namespace Sys2Proof.Machine

variable {s t u : State} {n k : Nat} {x : Slot} {b : Build}

/-! ### What changes one slot -/

/-- Nothing changes of the slots but slot k, of the store, or of the jobs. -/
def State.OnlyPalSlot (s : State) (k : Nat) (t : State) : Prop :=
  (∀ j, j ≠ k → t.palSlot? j = s.palSlot? j) ∧ t.store = s.store ∧ t.jobs = s.jobs

/-- Slot k is left as y, and nothing else changes of what OnlyPalSlot names. -/
def State.SlotBecomes (s : State) (k : Nat) (y : Option Slot) (t : State) : Prop := s.OnlyPalSlot k t ∧ t.palSlot? k = y

theorem State.OnlyPalSlot.becomes {y : Option Slot} (h : s.OnlyPalSlot k t) (hy : t.SlotBecomes k y u) : s.SlotBecomes k y u := by
  obtain ⟨hslots, hstore, hjobs⟩ := h
  obtain ⟨⟨hslots', hstore', hjobs'⟩, hk⟩ := hy
  exact ⟨⟨fun j hj => (hslots' j hj).trans (hslots j hj), hstore'.trans hstore, hjobs'.trans hjobs⟩, hk⟩

theorem State.slotBecomes_same {y : Option Slot} (hx : s.palSlot? k = y) (hslots : t.pal.slots = s.pal.slots)
    (hstore : t.store = s.store) (hjobs : t.jobs = s.jobs) : s.SlotBecomes k y t := by
  have hget (j : Nat) : t.palSlot? j = s.palSlot? j := congrArg (Tbl.get? · j) hslots
  exact ⟨⟨fun j _ => hget j, hstore, hjobs⟩, (hget k).trans hx⟩

theorem State.slotBecomes_onPalSlot (hx : s.palSlot? k = some x) (f : Slot → Slot) : s.SlotBecomes k (some (f x)) (s.onPalSlot k f) := by
  have hget (j : Nat) : (s.onPalSlot k f).palSlot? j = if k = j then (s.palSlot? k).map f else s.palSlot? j :=
    Tbl.get?_update s.pal.slots k j f
  refine ⟨⟨fun j hj => (hget j).trans (if_neg hj.symm), rfl, rfl⟩, ?_⟩
  rw [hget, if_pos rfl, hx, Option.map_some]

theorem State.slotBecomes_put (s : State) (k : Nat) (x : Slot) :
    s.SlotBecomes k (some x) (s.onPal fun p => { p with slots := p.slots.put k x }) := by
  have hget (j : Nat) := Tbl.get?_put s.pal.slots k j x
  exact ⟨⟨fun j hj => (hget j).trans (if_neg hj.symm), rfl, rfl⟩, (hget k).trans (if_pos rfl)⟩

theorem State.slotBecomes_del (s : State) (k : Nat) :
    s.SlotBecomes k none (s.onPal fun p => { p with slots := p.slots.del k }) := by
  have hget (j : Nat) := Tbl.get?_del s.pal.slots k j
  exact ⟨⟨fun j hj => (hget j).trans (if_neg hj.symm), rfl, rfl⟩, (hget k).trans (if_pos rfl)⟩

/-! ### Generations that are referred to (R269, R270) -/

/-- A generation of a slot exists and is referred to. -/
def State.GenReferred (s : State) (n : Nat) (g : Option Gen) : Prop := ∃ y, g = some y ∧ s.palRefs n y.num ≠ 0

theorem State.genReferred_iff (s : State) (n : Nat) (g : Option Gen) :
    s.GenReferred n g ↔ (g.any fun y => s.palRefs n y.num != 0) = true := by
  cases g <;> simp [State.GenReferred]

theorem State.palRoom_iff (hx : s.palSlot? n = some x) : s.palRoom n = true ↔ ¬s.GenReferred n x.older := by
  rw [State.palRoom, hx, Option.bind_some]
  cases x.older <;> simp [State.GenReferred]

/-! ### INSTALL (R266, R268, R270) -/

/-- Code lengths that make a valid palette in the mode of a slot. -/
def Slot.Fits (x : Slot) (all : List Nat) : Prop :=
  lensValid (all.take (symCount x.smode)) = true ∧ ∀ l ∈ all.drop (symCount x.smode), l = 0

theorem Slot.fits_iff (x : Slot) (all : List Nat) :
    x.Fits all ↔ (!lensValid (all.take (symCount x.smode)) || (all.drop (symCount x.smode)).any (· != 0)) = false := by
  simp [Slot.Fits]

/-- The slot has a build that an installed palette ends: one that collects or is pending. -/
def Slot.BuildEnds (x : Slot) : Prop := ∃ b, x.build = some b ∧ (b.st = .collecting ∨ b.st = .pending)

theorem Slot.buildEnds_iff (x : Slot) : x.BuildEnds ↔ (x.build.any fun b => b.st = .collecting || b.st = .pending) = true := by
  cases h : x.build <;> simp [Slot.BuildEnds, h]

/-- The palette that INSTALL takes for a slot out of PAL_DATA. -/
def State.palLens (s : State) (x : Slot) : List Nat := (lensOf s.palData).take (symCount x.smode)

theorem palInstallOp_unconfigured (hx : s.palSlot? s.palSel = none) : palInstallOp s = s.palResult .unsupported 0 := by
  simp only [palInstallOp, hx]

section
variable (hx : s.palSlot? s.palSel = some x)
include hx

theorem palInstallOp_invalid (h : ¬x.Fits (lensOf s.palData)) : palInstallOp s = s.palResult .unsupported 0 := by
  rw [Slot.fits_iff, Bool.not_eq_false] at h
  simp only [palInstallOp, hx, h, if_true]

section
variable (hfits : x.Fits (lensOf s.palData))
include hfits

theorem palInstallOp_full (h : s.GenReferred s.palSel x.older) : palInstallOp s = s.palResult .busy 0 := by
  have hroom : s.palRoom s.palSel = false := Bool.eq_false_iff.mpr fun hr => (State.palRoom_iff hx).mp hr h
  rw [Slot.fits_iff] at hfits
  simp only [palInstallOp, hx, hfits, hroom, Bool.false_eq_true, if_false, Bool.not_false, if_true]

section
variable (hfree : ¬s.GenReferred s.palSel x.older)
include hfree

theorem palInstallOp_ends (h : x.BuildEnds) : palInstallOp s =
    (((s.histDrop (s.palSel % 2) (.slot s.palSel)).bump Reg.tcBuildsCancelled).onPalSlot s.palSel fun _ =>
      { x.install (s.palLens x) with build := none }).palResult .ok x.nextNum := by
  rw [Slot.fits_iff] at hfits
  rw [Slot.buildEnds_iff] at h
  simp only [palInstallOp, hx, hfits, h, (State.palRoom_iff hx).mpr hfree, Bool.not_true, Bool.false_eq_true, if_false, if_true,
    State.when_true]
  rfl

theorem palInstallOp_keeps (h : ¬x.BuildEnds) : palInstallOp s =
    (s.onPalSlot s.palSel fun _ => x.install (s.palLens x)).palResult .ok x.nextNum := by
  rw [Slot.fits_iff] at hfits
  rw [Slot.buildEnds_iff, Bool.not_eq_true] at h
  simp only [palInstallOp, hx, hfits, h, (State.palRoom_iff hx).mpr hfree, Bool.not_true, Bool.false_eq_true, if_false,
    State.when_false]
  rfl

end
end
end

/-! ### BUILD (R273, R274; that a slot with a build answers OK is log entry 55) -/

theorem palBuildOp_unconfigured (hx : s.palSlot? s.palSel = none) : palBuildOp s = s.palResult .unsupported 0 := by
  simp only [palBuildOp, hx]

theorem palBuildOp_building (hx : s.palSlot? s.palSel = some x) (hb : x.build.isSome = true) :
    palBuildOp s = s.palResult .ok 0 := by
  simp only [palBuildOp, hx, hb, if_true]

theorem palBuildOp_asks (hx : s.palSlot? s.palSel = some x) (hb : x.build = none) :
    palBuildOp s = (s.buildAsk s.palSel).palResult .ok 0 := by
  simp only [palBuildOp, hx, hb, Option.isSome_none, Bool.false_eq_true, if_false]

theorem State.histAsk_becomes {y : Option Slot} (h : s.SlotBecomes k y t) (g : Nat) (a : HistUser) :
    s.SlotBecomes k y (t.histAsk g a) := by
  refine h.1.becomes (State.slotBecomes_same h.2 (State.histAsk_slots t g a) ?_ ?_)
  · rw [State.histAsk_pal]
  · rw [State.histAsk_pal]

/-- A slot whose build is asked for waits for a histogram unit or collects with one. -/
theorem State.buildAsk_becomes (hx : s.palSlot? n = some x) :
    ∃ b : Build, s.SlotBecomes n (some { x with build := some b }) (s.buildAsk n) ∧ b.blocks = 0 ∧
      (b.st = .waiting ∨ b.st = .collecting) := by
  have hset := State.slotBecomes_onPalSlot hx fun y => { y with build := some { st := .waiting } }
  have hwait := State.histAsk_becomes hset (n % 2) (.slot n)
  unfold State.buildAsk
  dsimp only
  split
  · exact ⟨{ st := .collecting }, hwait.1.becomes (State.slotBecomes_onPalSlot hwait.2 _), rfl, .inr rfl⟩
  · exact ⟨{ st := .waiting }, hwait, rfl, .inl rfl⟩

/-! ### CONFIG (R267, R276, R290; that a new SMODE empties the counts of a build is the model's choice) -/

/-- A slot with the SMODE, ENC_MODE and AUTO of PAL_CFG. -/
def Slot.configured (x : Slot) (cfg : Nat) : Slot := { x with smode := cfg % 4, always := bit cfg 4, auto := bit cfg 8 }

/-- A CONFIG would change the mode or the coding of a slot. -/
def Slot.Changes (x : Slot) (cfg : Nat) : Prop := x.smode ≠ cfg % 4 ∨ x.always ≠ bit cfg 4

theorem Slot.changes_iff (x : Slot) (cfg : Nat) : x.Changes cfg ↔ (x.smode != cfg % 4 || x.always != bit cfg 4) = true := by
  simp [Slot.Changes]

theorem palConfigOp_refuses (h : s.palSel = 0 ∨ s.reg Reg.tcPalCfg % 4 = 3) : palConfigOp s = s.palResult .unsupported 0 := by
  have hbad : (decide (s.palSel = 0) || decide (s.reg Reg.tcPalCfg % 4 = 3)) = true := by simpa using h
  simp only [palConfigOp, hbad, if_true]

section
variable (hn : s.palSel ≠ 0) (hmode : s.reg Reg.tcPalCfg % 4 ≠ 3)
include hn hmode

theorem palConfigOp_unconfigured (hx : s.palSlot? s.palSel = none) : palConfigOp s =
    (s.onPal fun p => { p with slots := p.slots.put s.palSel (Slot.configured { } (s.reg Reg.tcPalCfg)) }).palResult .ok 0 := by
  simp only [palConfigOp, hn, hmode, hx, decide_false, Bool.or_self, Bool.false_eq_true, if_false]
  rfl

section
variable (hx : s.palSlot? s.palSel = some x)
include hx

/-- CONFIG of a slot: refused to change the coding of a generation, and a build under way counts anew in a new mode. -/
theorem palConfigOp_some : palConfigOp s =
    if x.newer.isSome && (x.smode != s.reg Reg.tcPalCfg % 4 || x.always != bit (s.reg Reg.tcPalCfg) 4) then s.palResult .unsupported 0
    else ((s.onPalSlot s.palSel fun y => y.configured (s.reg Reg.tcPalCfg)).when
      (x.smode != s.reg Reg.tcPalCfg % 4 && x.build.isSome) fun s' => s'.onPalSlot s.palSel fun y =>
        { y with build := y.build.map fun b => { b with counts := [], blocks := 0 } }).palResult .ok 0 := by
  simp only [palConfigOp, hn, hmode, hx, decide_false, Bool.or_self, Bool.false_eq_true, if_false]
  rfl

theorem palConfigOp_coded (hnew : x.newer.isSome = true) (h : x.Changes (s.reg Reg.tcPalCfg)) :
    palConfigOp s = s.palResult .unsupported 0 := by
  rw [palConfigOp_some hn hmode hx, hnew, (x.changes_iff _).mp h]
  rfl

theorem palConfigOp_sets (hnew : x.newer = none ∨ ¬x.Changes (s.reg Reg.tcPalCfg))
    (hbuild : x.smode = s.reg Reg.tcPalCfg % 4 ∨ x.build = none) :
    palConfigOp s = (s.onPalSlot s.palSel fun y => y.configured (s.reg Reg.tcPalCfg)).palResult .ok 0 := by
  have hrestart : (x.smode != s.reg Reg.tcPalCfg % 4 && x.build.isSome) = false := by
    obtain h | h := hbuild <;> simp [h]
  rw [palConfigOp_some hn hmode hx, hrestart, if_neg, State.when_false]
  rw [Bool.and_eq_true, ← x.changes_iff]
  rintro ⟨hsome, hchanges⟩
  obtain h | h := hnew
  · simp [h] at hsome
  · exact h hchanges

theorem palConfigOp_restarts (hnew : x.newer = none) (h : x.smode ≠ s.reg Reg.tcPalCfg % 4) (hb : x.build = some b) :
    palConfigOp s = ((s.onPalSlot s.palSel fun y => y.configured (s.reg Reg.tcPalCfg)).onPalSlot s.palSel fun y =>
      { y with build := y.build.map fun b => { b with counts := [], blocks := 0 } }).palResult .ok 0 := by
  rw [palConfigOp_some hn hmode hx, hnew, hb, bne_iff_ne.mpr h]
  rfl

end
end

/-! ### CLEAR (R267, R290; that a build is dropped with its slot is log entry 55) -/

theorem palClearOp_zero (hn : s.palSel = 0) : palClearOp s = s.palResult .unsupported 0 := by
  simp only [palClearOp, hn, if_true]

section
variable (hn : s.palSel ≠ 0)
include hn

theorem palClearOp_unconfigured (hx : s.palSlot? s.palSel = none) : palClearOp s = s.palResult .ok 0 := by
  simp only [palClearOp, hn, hx, if_false]

theorem palClearOp_referred (hx : s.palSlot? s.palSel = some x)
    (h : s.GenReferred s.palSel x.newer ∨ s.GenReferred s.palSel x.older) : palClearOp s = s.palResult .busy 0 := by
  rw [State.genReferred_iff, State.genReferred_iff, ← Bool.or_eq_true] at h
  simp only [palClearOp, hn, hx, h, if_false, if_true]

theorem palClearOp_clears (hx : s.palSlot? s.palSel = some x) (hnew : ¬s.GenReferred s.palSel x.newer)
    (hold : ¬s.GenReferred s.palSel x.older) : palClearOp s =
    ((s.histDrop (s.palSel % 2) (.slot s.palSel)).onPal fun p => { p with slots := p.slots.del s.palSel }).palResult .ok 0 := by
  rw [State.genReferred_iff, Bool.not_eq_true] at hnew hold
  simp only [palClearOp, hn, hx, hnew, hold, Bool.or_self, Bool.false_eq_true, if_false]

end

/-! ### READ (R290; log entry 27) -/

/-- The generation that PAL_SEL names. -/
def State.palGen (s : State) : Option Gen :=
  if bit (s.reg Reg.tcPalSel) 16 then (s.palSlot? s.palSel).bind (·.older) else (s.palSlot? s.palSel).bind (·.newer)

/-- The 32 words of PAL_DATA take bytes. -/
def State.setPalData (s : State) (bs : List Byte) : State :=
  (List.range 32).foldl (fun s i => s.setReg (Reg.tcPalData + 4 * i) (leField bs (4 * i) 4)) s

theorem palReadOp_none (h : s.palGen = none) : palReadOp s = s.draw.2.setReg Reg.tcPalResult (s.draw.1 % 256) := by
  unfold State.palGen at h
  simp only [palReadOp, h]

theorem palReadOp_some {g : Gen} (h : s.palGen = some g) :
    palReadOp s = (s.setPalData (lensBytes g.lens)).palResult .ok 0 := by
  unfold State.palGen at h
  simp only [palReadOp, h, State.setPalData]

theorem State.reg_setWords (s : State) (a m : Nat) (f : Nat → Nat) {i : Nat} (hi : i < m) :
    ((List.range m).foldl (fun s i => s.setReg (a + 4 * i) (f i)) s).reg (a + 4 * i) = f i % 2 ^ 64 := by
  induction m with
  | zero => omega
  | succ m ih =>
    rw [List.range_succ, List.foldl_append, List.foldl_cons, List.foldl_nil, State.reg_setReg]
    by_cases h : i = m
    · rw [h, if_pos rfl]
    · rw [if_neg (by omega), ih (by omega)]

theorem State.setPalData_pal (s : State) (bs : List Byte) : (s.setPalData bs).pal = s.pal := by
  unfold State.setPalData
  refine foldl_keeps State.pal (fun _ _ => ?_) _ s
  rfl

/-! ### The steps of a build (R270, R274, R291) -/

/-- Whether a pending install has waited its 10 ms without being announced (R291). -/
theorem Build.overdue_iff :
    (decide (b.st = .pending) && !b.alarmed && s.since b.since 10000000 && !s.palRoom k) = true ↔
      b.st = .pending ∧ b.alarmed = false ∧ b.since + 10000000 ≤ s.ran ∧ s.palRoom k = false := by
  simp [State.since, and_assoc]

section
variable (hx : s.palSlot? k = some x) (hb : x.build = some b)
include hx hb

theorem State.buildOf_eq : (s.palSlot? k).bind (·.build) = some b := by
  rw [hx, Option.bind_some, hb]

theorem buildStartOp_turn (hst : b.st = .waiting) (hturn : s.histTurn (k % 2) (.slot k) = true) :
    buildStartOp k s = (s.histTake (k % 2)).onPalSlot k fun x => { x with build := some { st := .collecting } } := by
  simp only [buildStartOp, State.buildOf_eq hx hb, hst, hturn, decide_true, Bool.and_self, if_true]

theorem buildStartOp_waits (h : b.st ≠ .waiting ∨ s.histTurn (k % 2) (.slot k) = false) : buildStartOp k s = s := by
  simp only [buildStartOp, State.buildOf_eq hx hb]
  exact if_neg (by obtain h | h := h <;> simp [h])

theorem pendingInstallOp_room (hst : b.st = .pending) (hroom : s.palRoom k = true) :
    pendingInstallOp k s = s.buildInstall k b.lens := by
  simp only [pendingInstallOp, State.buildOf_eq hx hb, hst, hroom, decide_true, Bool.and_self, if_true]

theorem pendingInstallOp_waits (h : b.st ≠ .pending ∨ s.palRoom k = false) : pendingInstallOp k s = s := by
  simp only [pendingInstallOp, State.buildOf_eq hx hb]
  exact if_neg (by obtain h | h := h <;> simp [h])

theorem pendingInstallWaitOp_eq : pendingInstallWaitOp k s =
    if b.st = .pending && !b.alarmed && s.since b.since 10000000 && !s.palRoom k then
      (s.onPalSlot k fun x => { x with build := some { b with alarmed := true } }).raise 346
    else s := by
  simp only [pendingInstallWaitOp, State.buildOf_eq hx hb]

end

theorem State.buildStart_becomes (hx : s.palSlot? k = some x) : s.SlotBecomes k (some { x with build := some { st := .collecting } })
    ((s.histTake (k % 2)).onPalSlot k fun x => { x with build := some { st := .collecting } }) := by
  have htake := State.slotBecomes_same hx (s.histTake_slots (k % 2)) rfl rfl
  exact htake.1.becomes (State.slotBecomes_onPalSlot htake.2 _)

theorem State.buildInstall_becomes (hx : s.palSlot? k = some x) (lens : List Nat) :
    s.SlotBecomes k (some { x.install lens with build := none }) (s.buildInstall k lens) := by
  have hset := State.slotBecomes_onPalSlot hx fun x => { x.install lens with build := none }
  exact hset.1.becomes (State.slotBecomes_same hset.2 rfl rfl rfl)

theorem State.raise_becomes {y : Option Slot} (h : s.SlotBecomes k y t) (i : Nat) : s.SlotBecomes k y (t.raise i) :=
  h.1.becomes (State.slotBecomes_same h.2 rfl rfl rfl)

/-- Settles O55: each command and each step of a build by its guards, and where it changes a slot by what the slot becomes. -/
theorem paletteRows : Obligations.PaletteRows := by
  intro s hs ok n only refused gives referred
  refine ⟨fun hx => ⟨?_, ?_⟩, fun x hx => ?_, ⟨fun h => ?_, fun hn hm hx => ?_, fun hn hm x hx => ?_⟩,
    ⟨fun hn => ?_, fun hn hx => ?_, fun hn x hx => ⟨fun h => ?_, fun hnew hold => ?_⟩⟩, ⟨fun g hg => ?_, fun hg => ?_⟩,
    fun k x b hx hb => ?_⟩
  · exact exec_work_eq rfl hs (palInstallOp_unconfigured hx)
  · exact exec_work_eq rfl hs (palBuildOp_unconfigured hx)
  · refine ⟨fun h => ?_, fun hv hr => ?_, fun hv hr => ⟨fun he => ?_, fun he => ?_⟩, fun hb => ?_, fun hb => ?_⟩
    · exact exec_work_eq rfl hs (palInstallOp_invalid hx h)
    · exact exec_work_eq rfl hs (palInstallOp_full hx hv hr)
    · have hdrop := State.slotBecomes_same (t := (s.histDrop (n % 2) (.slot n)).bump Reg.tcBuildsCancelled) hx rfl rfl rfl
      exact ⟨_, exec_work_eq rfl hs (palInstallOp_ends hx hv hr he), hdrop.1.becomes (State.slotBecomes_onPalSlot hdrop.2 _)⟩
    · exact ⟨_, exec_work_eq rfl hs (palInstallOp_keeps hx hv hr he), State.slotBecomes_onPalSlot hx _⟩
    · exact exec_work_eq rfl hs (palBuildOp_building hx hb)
    · obtain ⟨b, ⟨honly, hslot⟩, hblocks, hst⟩ := State.buildAsk_becomes hx
      exact ⟨_, b, exec_work_eq rfl hs (palBuildOp_asks hx hb), honly, hslot, hblocks, hst⟩
  · exact exec_work_eq rfl hs (palConfigOp_refuses h)
  · exact ⟨_, exec_work_eq rfl hs (palConfigOp_unconfigured hn hm hx), s.slotBecomes_put n _⟩
  · have hset := State.slotBecomes_onPalSlot hx fun y => y.configured (s.reg Reg.tcPalCfg)
    refine ⟨fun hnew h => ?_, fun hnew hbuild => ?_, fun hnew h b hb => ?_⟩
    · exact exec_work_eq rfl hs (palConfigOp_coded hn hm hx hnew h)
    · exact ⟨_, exec_work_eq rfl hs (palConfigOp_sets hn hm hx hnew hbuild), hset⟩
    · refine ⟨_, exec_work_eq rfl hs (palConfigOp_restarts hn hm hx hnew h hb), ?_⟩
      obtain ⟨honly, hslot⟩ := hset.1.becomes (State.slotBecomes_onPalSlot hset.2 _)
      exact ⟨honly, hslot.trans (by simp only [Slot.configured, hb, Option.map_some])⟩
  · exact exec_work_eq rfl hs (palClearOp_zero hn)
  · exact exec_work_eq rfl hs (palClearOp_unconfigured hn hx)
  · exact exec_work_eq rfl hs (palClearOp_referred hn hx h)
  · have hdrop := State.slotBecomes_same (t := s.histDrop (n % 2) (.slot n)) hx rfl rfl rfl
    exact ⟨_, exec_work_eq rfl hs (palClearOp_clears hn hx hnew hold), hdrop.1.becomes (State.slotBecomes_del _ n)⟩
  · have hexec : exec .palRead s = .next (settle (palReadOp s)) := act_clocked hs _
    exact ⟨_, hexec.trans (by rw [palReadOp_some hg]; rfl), s.setPalData_pal _, fun i hi => s.reg_setWords _ 32 _ hi⟩
  · have hexec : exec .palRead s = .next (settle (palReadOp s)) := act_clocked hs _
    exact ⟨s.draw.2, s.draw.1 % 256, hexec.trans (by rw [palReadOp_none hg]), rfl, fun a => rfl⟩
  · refine ⟨fun hst hturn => ?_, fun h => ?_, fun hst hroom => ?_, fun h => ?_, fun hdue => ?_, fun hdue => ?_⟩
    · obtain ⟨honly, hslot⟩ := State.buildStart_becomes hx
      exact ⟨_, exec_work_eq rfl hs (buildStartOp_turn hx hb hst hturn), honly, hslot⟩
    · exact exec_work_eq rfl hs (buildStartOp_waits hx hb h)
    · obtain ⟨honly, hslot⟩ := State.buildInstall_becomes hx b.lens
      exact ⟨_, exec_work_eq rfl hs (pendingInstallOp_room hx hb hst hroom), honly, hslot, (raise_counts _ 346 346 _).trans (if_pos rfl)⟩
    · exact exec_work_eq rfl hs (pendingInstallOp_waits hx hb h)
    · have hset := State.slotBecomes_onPalSlot hx fun x => { x with build := some { b with alarmed := true } }
      obtain ⟨honly, hslot⟩ := State.raise_becomes hset 346
      exact ⟨_, exec_work_eq rfl hs ((pendingInstallWaitOp_eq hx hb).trans (if_pos (Build.overdue_iff.mpr hdue))), honly, hslot,
        (raise_counts _ 346 346 _).trans (if_pos rfl)⟩
    · exact exec_work_eq rfl hs ((pendingInstallWaitOp_eq hx hb).trans (if_neg (mt Build.overdue_iff.mp hdue)))

end Sys2Proof.Machine
end

section
/-! PROOFS. What the gather and search engines do of themselves: what the end of a window leaves of the tables, and for promotions,
closed tables and merges the condition under which each acts. -/

namespace Sys2Proof.Machine

variable {s : State} {t n i k : Nat} {v : Version}

/-! ### EMB_WINDOW_END (R338, R339) -/

theorem State.table_onTable (s : State) (t k : Nat) (f : Table → Table) :
    (s.onTable t f).table k = if t = k then f (s.table t) else s.table k := by
  simp only [State.table, State.onTable, State.onEmb_emb, Tbl.getD, Tbl.get?_put]
  split <;> rfl

/-- An open table's window has ended: no fetch of the next one is counted, and no tracker holds a row. -/
def Table.WindowOver (x : Table) : Prop := x.opened = true → x.winNow = 0 ∧ ∀ v ∈ x.versions, v.tracker = []

/-- The state but for the tables and the events. -/
def State.besideTables (s : State) : State := { s with emb := { s.emb with tables := [] }, ev := { } }

theorem State.tableWindow_closed (h : (s.table t).opened = false) : s.tableWindow t = s := by
  simp only [State.tableWindow, h, Bool.not_false, if_true]

/-- The window end of an open table is one update of it, and the alert when its fetches exceed the limit. -/
theorem State.tableWindow_open (h : (s.table t).opened = true) : ∃ (f : Table → Table) (alert : Bool),
    s.tableWindow t = (s.onTable t f).when alert (·.raise 364) ∧ ∀ x, (f x).opened = x.opened ∧ (f x).WindowOver := by
  refine ⟨_, _, if_neg (by simp [h]), ?_⟩
  intro x
  refine ⟨rfl, fun _ => ⟨rfl, fun v hv => ?_⟩⟩
  obtain ⟨w, -, rfl⟩ := List.mem_map.mp hv
  rfl

theorem State.table_alerted (s : State) (b : Bool) (k : Nat) : (s.when b (·.raise 364)).table k = s.table k :=
  when_keeps (fun u => u.table k) (f := (·.raise 364)) (fun _ => rfl) s b

theorem State.tableWindow_beside (s : State) (t : Nat) : (s.tableWindow t).besideTables = s.besideTables := by
  cases h : (s.table t).opened with
  | false => rw [State.tableWindow_closed h]
  | true =>
    obtain ⟨f, alert, heq, -⟩ := State.tableWindow_open h
    rw [heq]
    exact when_keeps State.besideTables (f := (·.raise 364)) (fun _ => rfl) _ alert

theorem State.tableWindow_ne (h : t ≠ k) (s : State) : (s.tableWindow t).table k = s.table k := by
  cases hopen : (s.table t).opened with
  | false => rw [State.tableWindow_closed hopen]
  | true =>
    obtain ⟨f, alert, heq, -⟩ := State.tableWindow_open hopen
    rw [heq, State.table_alerted, State.table_onTable, if_neg h]

theorem State.tableWindow_same (s : State) (t : Nat) :
    ((s.tableWindow t).table t).opened = (s.table t).opened ∧ ((s.tableWindow t).table t).WindowOver := by
  cases hopen : (s.table t).opened with
  | false =>
    rw [State.tableWindow_closed hopen]
    exact ⟨hopen, fun h => absurd h (by simp [hopen])⟩
  | true =>
    obtain ⟨f, alert, heq, hf⟩ := State.tableWindow_open hopen
    rw [heq, State.table_alerted, State.table_onTable, if_pos rfl, ← hopen]
    exact hf _

theorem State.tableWindow_opened (s : State) (t k : Nat) : ((s.tableWindow t).table k).opened = (s.table k).opened := by
  by_cases h : t = k
  · subst h
    exact (s.tableWindow_same t).1
  · rw [State.tableWindow_ne h]

theorem State.tableWindow_over (h : (s.table k).WindowOver) (t : Nat) : ((s.tableWindow t).table k).WindowOver := by
  by_cases ht : t = k
  · subst ht
    exact (s.tableWindow_same t).2
  · rwa [State.tableWindow_ne ht]

/-- The state in which a new window has begun, of every table in turn. -/
def State.windowsEnded (s : State) : State :=
  s.emb.tables.keys.foldl State.tableWindow (s.onEmb fun e => { e with windowAt := s.ran })

theorem State.windowsEnded_beside (s : State) : s.windowsEnded.besideTables = (s.onEmb fun e => { e with windowAt := s.ran }).besideTables :=
  foldl_keeps State.besideTables State.tableWindow_beside _ _

theorem State.windowsEnded_opened (s : State) (k : Nat) : (s.windowsEnded.table k).opened = (s.table k).opened :=
  foldl_keeps (fun u => (u.table k).opened) (fun u j => u.tableWindow_opened j k) _ (s.onEmb fun e => { e with windowAt := s.ran })

theorem State.windowsEnded_over (hk : k ∈ s.emb.tables.keys) : (s.windowsEnded.table k).WindowOver :=
  foldl_establishes (P := fun u => (u.table k).WindowOver) hk (fun u => (u.tableWindow_same k).2) (fun _ j h => State.tableWindow_over h j) _

theorem embWindowEndOp_due (h : s.emb.windowAt + s.reg Reg.geEmbCtrl % 1024 * 1000000 ≤ s.ran) : embWindowEndOp s = s.windowsEnded := by
  rw [embWindowEndOp, if_pos (by simpa [State.since] using h), State.windowsEnded, Tbl.keys, List.foldl_map]

theorem embWindowEndOp_early (h : s.ran < s.emb.windowAt + s.reg Reg.geEmbCtrl % 1024 * 1000000) : embWindowEndOp s = s := by
  rw [embWindowEndOp, if_neg (by simpa [State.since] using h)]

/-! ### HOT_PROMOTION_BATCH (R340) -/

/-- Promotions of the version or a MERGE_UPDATE of it run. -/
def State.PromotionBusy (s : State) (t n : Nat) : Prop :=
  ∃ e ∈ s.jobs.jobs, e.2.stopped = none ∧ (e.2.bind = [0, t, n] ∨ e.2.bind = [t, n] ∧ e.2.ty = 0x311 ∧ e.2.phase = .running)

theorem State.promotionBusy_iff (s : State) (t n : Nat) : s.PromotionBusy t n ↔
    (s.jobs.jobs.any fun e => e.2.stopped.isNone &&
      (e.2.bind = [0, t, n] || (e.2.bind = [t, n] && e.2.ty = 0x311 && e.2.phase = .running))) = true := by
  simp only [State.PromotionBusy, List.any_eq_true, Bool.and_eq_true, Bool.or_eq_true, decide_eq_true_eq, Option.isNone_iff_eq_none, and_assoc]

theorem hotPromotionBatchOp_some (hv : (s.table t).version? n = some v) (hdue : v.due ≠ []) (hbusy : ¬s.PromotionBusy t n) :
    hotPromotionBatchOp t n s =
      let (i, w) := s.ownBegin (s.table t).tenant 10 [0, t, n]
      let c : Ctx := { job := i, unit := 0, engine := 10 }
      ((w.onJob i fun j => { j with counts := v.due }).runUnit c (failKey 0 0) (hotUnit c)).hotEnd i := by
  rw [State.promotionBusy_iff, Bool.not_eq_true] at hbusy
  simp only [hotPromotionBatchOp, hv, hbusy, List.isEmpty_eq_false_iff.mpr hdue, Bool.or_self, Bool.false_eq_true, if_false]

theorem hotPromotionBatchOp_waits (h : (∀ v, (s.table t).version? n = some v → v.due = []) ∨ s.PromotionBusy t n) :
    hotPromotionBatchOp t n s = s := by
  cases hv : (s.table t).version? n with
  | none => simp only [hotPromotionBatchOp, hv]
  | some v =>
    simp only [hotPromotionBatchOp, hv]
    rw [if_pos]
    obtain hdue | hbusy := h
    · rw [hdue v hv]; rfl
    · rw [(s.promotionBusy_iff t n).mp hbusy, Bool.or_true]

/-! ### TABLE_CLOSE_DONE (R322) -/

/-- The handle of a table is free but for its generation, and the TABLE_CLOSE has ended its work. -/
def State.tableFreed (s : State) (t i : Nat) : State :=
  (s.onTable t fun x => { gen := x.gen }).onJob i fun j => { j with finished := 1 }

theorem State.tableFreed_table (s : State) (t i k : Nat) :
    (s.tableFreed t i).table k = if t = k then { gen := (s.table t).gen } else s.table k := s.table_onTable t k fun x => { gen := x.gen }

theorem State.tableFreed_job (s : State) (t i : Nat) : (s.tableFreed t i).job? i = (s.job? i).map fun j => { j with finished := 1 } := by
  rw [State.tableFreed, State.job?_onJob, if_pos rfl]
  rfl

theorem tableCloseDoneOp_frees (hclosing : (s.table t).closing = some i) (hleft : (s.table t).versions = []) :
    tableCloseDoneOp t s = s.tableFreed t i := by
  simp only [tableCloseDoneOp, hclosing, hleft, List.isEmpty_nil, if_true, State.tableFreed]

theorem tableCloseDoneOp_waits (h : (s.table t).closing = none ∨ (s.table t).versions ≠ []) : tableCloseDoneOp t s = s := by
  rw [tableCloseDoneOp]
  split
  · next hclosing =>
    obtain hnone | hleft := h
    · simp [hnone] at hclosing
    · rw [if_neg (by simpa using hleft)]
  · rfl

/-! ### MERGE_SWITCH and MERGE_DRAIN (R369, R370) -/

/-- In full service, with no work of the device's own on the collection. -/
def State.MayOwnWork (s : State) (k : Nat) : Prop := s.ownBusy k = false ∧ s.boot.service = .full

/-- No query of the generation that the collection's merge retires is left. -/
def State.QueriesDrained (s : State) (k : Nat) : Prop :=
  ∀ e ∈ s.jobs.jobs, e.2.ty = 0x404 → ∀ b, e.2.query = some b → ¬(b.k = k ∧ b.gen = (s.coll k).merge.oldGen)

theorem State.queriesDrained_iff (s : State) (k : Nat) : s.QueriesDrained k ↔
    (s.jobs.jobs.any fun e => e.2.ty = 0x404 && e.2.query.any fun b => b.k = k && b.gen = (s.coll k).merge.oldGen) = false := by
  simp [State.QueriesDrained, List.any_eq_false, Option.any_eq_false]

/-- A unit of a merge run as work of the device's own on the collection's search engine. -/
def State.mergeOwnRun (s : State) (k kind : Nat) (unit : Ctx → Nat → Eng Unit) : State :=
  let b := s.ownBegin (s.coll k).tenant (14 + k % 2) [kind, k]
  let c : Ctx := { job := b.1, unit := 0, engine := 14 + k % 2 }
  (b.2.runUnit c (failKey 0 0) (unit c k)).mergeOwnEnd b.1

theorem State.switchReady_iff (s : State) (k : Nat) :
    ((s.coll k).merge.st = .running ∧ (s.coll k).merge.complete = true ∧ s.MayOwnWork k) ↔
      ((s.coll k).merge.st = .running && (s.coll k).merge.complete && !s.ownBusy k && s.boot.service = .full) = true := by
  simp only [State.MayOwnWork, Bool.and_eq_true, Bool.not_eq_true', decide_eq_true_eq, and_assoc]

theorem mergeSwitchOp_runs (hst : (s.coll k).merge.st = .running) (hcomplete : (s.coll k).merge.complete = true)
    (hfree : s.MayOwnWork k) : mergeSwitchOp k s = s.mergeOwnRun k 1 switchUnit :=
  if_pos ((s.switchReady_iff k).mp ⟨hst, hcomplete, hfree⟩)

theorem mergeSwitchOp_waits (h : (s.coll k).merge.st ≠ .running ∨ (s.coll k).merge.complete = false ∨ ¬s.MayOwnWork k) :
    mergeSwitchOp k s = s := by
  refine if_neg (mt (s.switchReady_iff k).mpr ?_)
  rintro ⟨hst, hcomplete, hfree⟩
  obtain h | h | h := h
  · exact h hst
  · exact absurd hcomplete (Bool.eq_false_iff.mp h)
  · exact h hfree

theorem State.drainReady_iff (s : State) (k : Nat) :
    ((s.coll k).merge.st = .draining ∧ s.QueriesDrained k ∧ s.MayOwnWork k) ↔
      ((s.coll k).merge.st = .draining &&
        !(s.jobs.jobs.any fun e => e.2.ty = 0x404 && e.2.query.any fun b => b.k = k && b.gen = (s.coll k).merge.oldGen) &&
        !s.ownBusy k && s.boot.service = .full) = true := by
  simp only [State.MayOwnWork, State.queriesDrained_iff, Bool.and_eq_true, Bool.not_eq_true', decide_eq_true_eq, and_assoc]

theorem mergeDrainOp_runs (hst : (s.coll k).merge.st = .draining) (hdrained : s.QueriesDrained k) (hfree : s.MayOwnWork k) :
    mergeDrainOp k s = s.mergeOwnRun k 2 drainUnit :=
  if_pos ((s.drainReady_iff k).mp ⟨hst, hdrained, hfree⟩)

theorem mergeDrainOp_waits (h : (s.coll k).merge.st ≠ .draining ∨ ¬s.QueriesDrained k ∨ ¬s.MayOwnWork k) : mergeDrainOp k s = s := by
  refine if_neg (mt (s.drainReady_iff k).mpr ?_)
  rintro ⟨hst, hdrained, hfree⟩
  obtain h | h | h := h
  · exact h hst
  · exact h hdrained
  · exact h hfree

/-- Settles O52: a window's end by what the fold over the tables establishes for each and keeps, and the other rows by the
conditions under which their operations act. -/
theorem engineOwnWork : Obligations.EngineOwnWork := by
  intro s hs ok
  refine ⟨⟨fun h => ?_, fun h => exec_work_eq rfl hs (embWindowEndOp_early h)⟩, fun t n => ⟨fun v hv hdue hbusy => ?_, fun h => ?_⟩,
    fun t i hclosing hleft => ?_, fun t h => exec_work_eq rfl hs (tableCloseDoneOp_waits h), ?_⟩
  · have hbeside := s.windowsEnded_beside
    refine ⟨_, exec_work_eq rfl hs (embWindowEndOp_due h), (congrArg (·.emb.windowAt) hbeside :), (congrArg State.store hbeside :),
      (congrArg State.jobs hbeside :), fun k hk hopen => ?_⟩
    have hopened := (s.windowsEnded_opened k).trans hopen
    exact ⟨hopened, State.windowsEnded_over hk hopened⟩
  · exact ⟨_, _, rfl, exec_work_eq rfl hs (hotPromotionBatchOp_some hv hdue hbusy)⟩
  · exact exec_work_eq rfl hs (hotPromotionBatchOp_waits h)
  · exact ⟨_, exec_work_eq rfl hs (tableCloseDoneOp_frees hclosing hleft), (s.tableFreed_table t i t).trans (if_pos rfl),
      fun k hk => (s.tableFreed_table t i k).trans (if_neg hk.symm), s.tableFreed_job t i⟩
  · intro k x own free drained
    exact ⟨fun hst hcomplete hfree => exec_work_eq rfl hs (mergeSwitchOp_runs hst hcomplete hfree),
      fun h => exec_work_eq rfl hs (mergeSwitchOp_waits h),
      fun hst hdrained hfree => exec_work_eq rfl hs (mergeDrainOp_runs hst hdrained hfree),
      fun h => exec_work_eq rfl hs (mergeDrainOp_waits h)⟩

end Sys2Proof.Machine
end

section
/-! PROOFS. Frames of the twin connection: a frame in its turn is taken as its KIND says (Table 13-2); then what the frames about
mirrored operations, handed-over requests and extent commands come to where they find their entry, and where they find none. -/

namespace Sys2Proof.Machine

variable {s : State} {f : Frame} {key : TwinKey} {e aux : Nat}

/-! ### A frame in its turn (R381, Table 13-2) -/

/-- A row of the twin connection answers what its KIND takes of the state in which its frame arrives. -/
theorem exec_twinFrame {row : Instr} {kind : Nat} {rx : Rx} {take : State → Frame → Nat → Nat → Nat → State}
    (hrow : exec row s = work s fun s => s.rxFrame (asTwin kind rx)) {w1 w2 w3 : Word}
    (hext : twinExt (asTwin kind rx).f = some (kind, [w1, w2, w3])) (hturn : s.TwinTurn (asTwin kind rx))
    (htake : ∀ (u : State) f, twinExt f = some (kind, [w1, w2, w3]) →
      u.takeTwin f = take u f (w1.toNat % 2 ^ 17) w2.toNat (w3.toNat % 2 ^ 24) := by intro u f h; simp only [State.takeTwin, h]) :
    exec row s = .next (settle ((take (s.twinTurn (asTwin kind rx)) (asTwin kind rx).f (w1.toNat % 2 ^ 17) w2.toNat
      (w3.toNat % 2 ^ 24)).closed twinConn).progress) := by
  rw [hrow, work_clocked hturn.ofTwin.passes.clocked, rxFrame_twin hturn, htake _ _ hext]

/-! ### MIRROR (R385, R388; that an atomic's payload is its new value and its old one is log entry 56) -/

/-- The bytes of a MIRROR's new value. -/
def mirrorLen (f : Frame) : Nat := if f.payload.length = f.len.toNat then f.payload.length else f.payload.length / 2

/-- The shadow that a MIRROR brings, in a phase. -/
def mirrorShadow (f : Frame) (e phase : Nat) : Shadow :=
  { key := frameKey f, extent := e, addr := offOf f.addr.toNat, value := f.payload.take (mirrorLen f),
    old := f.payload.drop (mirrorLen f), phase := phase }

/-- The shadow of a MIRROR stands here in a phase. -/
def State.shadowed (s : State) (f : Frame) (e phase : Nat) : State :=
  (s.onTwin fun t => { t with shadows := t.shadows ++ [mirrorShadow f e phase] }).notePool (homeDie (offOf f.addr.toNat))

theorem State.takeMirror_known {x : Shadow} (hx : s.twin.shadows.find? (fun x => x.key = frameKey f) = some x) :
    s.takeMirror f e = if x.phase = 2 then s.sendMirrorAck (frameKey f) e else s := by
  simp only [State.takeMirror, hx]

section
variable (hx : s.twin.shadows.find? (fun x => x.key = frameKey f) = none)
include hx

theorem State.takeMirror_waits (hroom : s.shadowRoom (offOf f.addr.toNat) = false) : s.takeMirror f e = s.shadowed f e 0 := by
  simp only [State.takeMirror, hx, hroom, State.shadowed, mirrorShadow, mirrorLen, bne_iff_ne, ne_eq, ite_not, Bool.false_eq_true,
    if_false, Nat.zero_ne_one]

theorem State.takeMirror_applies (hroom : s.shadowRoom (offOf f.addr.toNat) = true) :
    s.takeMirror f e = (s.shadowed f e 1).applyShadow (mirrorShadow f e 1) := by
  simp only [State.takeMirror, hx, hroom, State.shadowed, mirrorShadow, mirrorLen, bne_iff_ne, ne_eq, ite_not, if_true]

end

/-! ### RETIRE (R388) -/

theorem bne_eq_decide_ne {α : Type} [DecidableEq α] (a b : α) : (a != b) = decide (a ≠ b) := by
  rw [bne, decide_not]
  rfl

theorem State.takeRetire_shadows (s : State) (key : TwinKey) :
    (s.takeRetire key).twin.shadows = s.twin.shadows.filter fun x => x.key ≠ key := by
  simp only [State.takeRetire, State.onTwin_twin, bne_eq_decide_ne]

/-! ### MIRROR_ACK (Table 13-3 steps 5 and 6) -/

theorem State.takeMirrorAck_none (h : s.twin.holders.find? (fun h => h.key = key && h.phase = 1) = none) : s.takeMirrorAck key = s := by
  simp only [State.takeMirrorAck, h]

theorem State.takeMirrorAck_some {x : HolderOp} (h : s.twin.holders.find? (fun h => h.key = key && h.phase = 1) = some x) :
    s.takeMirrorAck key = (((s.copyWrite x.addr x.value).onTwin fun t =>
      { t with holders := t.holders.map fun y => if y = x then { y with phase := 3 } else y }).bump64 Reg.twMirrorOps).mirrorEnd x.op
        .ok x.old := by
  simp only [State.takeMirrorAck, h]

/-! ### TAKEN and DONE (R389, R390) -/

theorem State.takeTaken_none (h : s.twin.handed.find? (fun h => h.key = key) = none) : s.takeTaken key = s := by
  simp only [State.takeTaken, h]

theorem State.takeTaken_some {x : Handed} (h : s.twin.handed.find? (fun h => h.key = key) = some x) : s.takeTaken key =
    if x.front then
      (if x.orphan then s.bump Reg.twOrphansDiscarded else s).onTwin fun t =>
        { t with handed := t.handed.map fun y => if y = x then { y with taken := true, orphan := false } else y }
    else (if x.orphan then s.bump Reg.twOrphansDiscarded else s).dropCopy x := by
  simp only [State.takeTaken, h, State.when]

/-- A copy that is let go takes only itself from the twin unit, and its operation from the operations. -/
theorem State.dropCopy_keeps (s : State) (x : Handed) : (s.dropCopy x).twin.handed = s.twin.handed.filter (fun y => y ≠ x) ∧
    (s.dropCopy x).store = s.store ∧ (s.dropCopy x).jobs.jobs = s.jobs.jobs ∧
    (s.dropCopy x).jobs.ops = if x.op = 0 then s.jobs.ops else s.jobs.ops.del x.op := by
  simp only [State.dropCopy, bne_eq_decide_ne]
  split <;> exact ⟨rfl, rfl, rfl, rfl⟩

theorem State.takeDone_none {st : Status} {p : List Byte} (h : s.twin.handed.find? (fun h => h.key = key && h.front) = none) :
    s.takeDone key st p = s := by
  simp only [State.takeDone, h]

theorem State.takeDone_some {st : Status} {p : List Byte} {x : Handed}
    (h : s.twin.handed.find? (fun h => h.key = key && h.front) = some x) : s.takeDone key st p =
      (s.onTwin fun t => { t with handed := t.handed.filter fun y => y != x }).mirrorEnd x.op st p := by
  simp only [State.takeDone, h]

/-! ### HANDOVER and ORPHAN_STATE at the holder (R389, R390, R391; that an ORPHAN_STATE is read as a HANDOVER is log entry 57) -/

/-- A request that this device holds the extent of: its own front entry resumes, a result is answered with it, one under way is
only answered TAKEN, and any other enters as an operation. -/
theorem State.holdRequest_cases (s : State) (f : Frame) (e aux : Nat) :
    let key := frameKey f
    let front := s.twin.handed.find? fun h => h.key = key && h.front
    (∀ h, front = some h → s.holdRequest f e aux = (s.sendTaken key e).takeBack h) ∧
    (front = none → ∀ st p, s.keyResult key = some (st, p) → s.holdRequest f e aux = (s.sendTaken key e).sendDone key e st p) ∧
    (front = none → s.keyResult key = none → s.twinKnown key = true → s.holdRequest f e aux = s.sendTaken key e) ∧
    (front = none → s.keyResult key = none → s.twinKnown key = false →
      s.holdRequest f e aux = s.enterTwin key e (handedRequest s f aux)) := by
  intro key front
  refine ⟨fun h hfront => ?_, fun hfront st p hres => ?_, fun hfront hres hknown => ?_, fun hfront hres hknown => ?_⟩
  · simp only [State.holdRequest, show s.twin.handed.find? (fun h => h.key = frameKey f && h.front) = some h from hfront]; rfl
  all_goals simp only [State.holdRequest, show s.twin.handed.find? (fun h => h.key = frameKey f && h.front) = none from hfront,
    show s.keyResult (frameKey f) = _ from hres]
  · rfl
  · rw [if_pos hknown]
  · rw [if_neg (by rw [hknown]; decide)]

/-- The copy that this device keeps of a request it sends back. -/
def State.backCopy (s : State) (f : Frame) (e aux : Nat) : Handed :=
  { key := frameKey f, op := 0, extent := e, f := handedRequest s f aux, since := s.ran, front := false }

/-- The copies of requests with the one that goes back, in place of any other copy of its key. -/
def State.handedBack (s : State) (f : Frame) (e aux : Nat) : List Handed :=
  (s.twin.handed.filter fun x => x.key != frameKey f || x.front) ++ [s.backCopy f e aux]

theorem State.takeHandover_holder (h : s.holds e = true) : s.takeHandover f e aux = s.holdRequest f e aux := if_pos h

theorem State.takeHandover_back (h : s.holds e = false) : s.takeHandover f e aux =
    ((s.onTwin fun x => { x with handed := s.handedBack f e aux }).bump Reg.twHandovers).sendTwin
      { twinFrame 0x10 e (s.lease e).gen 0 aux (frameKey f) 0 f.payload with len := f.len } := by
  rw [State.takeHandover, if_neg (by rw [h]; decide)]
  rfl

theorem State.takeHandover_back_keeps (h : s.holds e = false) : (s.takeHandover f e aux).twin.handed = s.handedBack f e aux ∧
    (s.takeHandover f e aux).store = s.store ∧ (s.takeHandover f e aux).jobs = s.jobs ∧
    (s.takeHandover f e aux).twin.leases = s.twin.leases := by
  rw [State.takeHandover_back h, sendTwin_twin, sendTwin_store, sendTwin_jobs]
  exact ⟨rfl, rfl, rfl, rfl⟩

/-! ### EXT_CMD and EXT_DONE (R383, R400) -/

/-- The answer EXT_DONE. -/
def State.sendExtDone (s : State) (e : Nat) (st : Status) : State := s.sendTwin (twinFrame 0x51 e (s.lease e).gen 0 0 noKey st.code [])

/-- EXT_CMD carries the grant entry of an extent that is fenced here and free. -/
def State.CarriesGrant (s : State) (f : Frame) (e : Nat) : Prop :=
  beField f.payload 0 1 = 1 ∧ (s.lease e).st = .fenced ∧ (s.extent e).st = .free

theorem State.carriesGrant_iff : s.CarriesGrant f e ↔
    (beField f.payload 0 1 = 1 && (s.lease e).st = .fenced && (s.extent e).st = .free) = true := by
  simp only [State.CarriesGrant, Bool.and_eq_true, decide_eq_true_eq, and_assoc]

theorem State.takeExtCmd_carried (h : s.CarriesGrant f e) :
    s.takeExtCmd f e = (s.onExtent e fun x => argExtent (beField f.payload 4 4) x).sendExtDone e .ok := by
  simp only [State.takeExtCmd, State.carriesGrant_iff.mp h, if_true]
  rfl

theorem State.takeExtCmd_applies (h : ¬s.CarriesGrant f e) : s.takeExtCmd f e =
    (s.extApply (beField f.payload 0 1) e (beField f.payload 4 4)).2.sendExtDone e
      (s.extApply (beField f.payload 0 1) e (beField f.payload 4 4)).1 := by
  rw [State.carriesGrant_iff] at h
  simp only [State.takeExtCmd, if_neg h]
  rfl

/-- A carried command is settled with the partner's status: OK lets it be applied here. -/
def State.extSettled (s : State) (c : Carried) (e : Nat) (st : Byte) : State :=
  let v := s.onTwin fun t => { t with carried := t.carried.erase c }
  if st = 0 then (v.extApply c.cmd e c.arg).2.extResult (v.extApply c.cmd e c.arg).1 else v.setReg Reg.tmExtStat (st.toNat * 256)

theorem State.takeExtDone_none {st : Nat} (h : s.twin.carried.find? (fun c => c.extent = e) = none) : s.takeExtDone e st = s := by
  simp only [State.takeExtDone, h]

theorem State.takeExtDone_some {st : Byte} {c : Carried} (h : s.twin.carried.find? (fun c => c.extent = e) = some c) :
    s.takeExtDone e st.toNat = c.wait.elim (s.extSettled c e st) fun w => (s.extSettled c e st).respond w.1 w.2 .ok := by
  have hst : st.toNat = 0 ↔ st = 0 := BitVec.toNat_inj (y := 0)
  simp only [State.takeExtDone, h, State.extSettled, hst]
  cases c.wait <;> rfl

/-! ### The rows -/

/-- Settles O57: each row by what its KIND takes, where the frame finds its entry and where it finds none. -/
theorem twinOperations : Obligations.TwinOperations := by
  intro s rx takes held
  refine ⟨fun w1 w2 w3 hext hturn => ⟨_, exec_twinFrame (take := fun u f e _ _ => u.takeMirror f e) rfl hext hturn,
      fun y hy => ⟨fun h => ?_, fun h => ?_⟩, State.takeMirror_waits, State.takeMirror_applies⟩,
    fun w1 w2 w3 hext hturn => ⟨_, exec_twinFrame (take := fun u f _ _ _ => u.takeMirrorAck (frameKey f)) rfl hext hturn,
      State.takeMirrorAck_none, fun h => State.takeMirrorAck_some⟩,
    fun w1 w2 w3 hext hturn => ⟨_, exec_twinFrame (take := fun u f _ _ _ => u.takeRetire (frameKey f)) rfl hext hturn,
      State.takeRetire_shadows _ _, rfl⟩,
    fun w1 w2 w3 hext hturn => ⟨_, exec_twinFrame (take := fun u f _ _ _ => u.takeTaken (frameKey f)) rfl hext hturn,
      State.takeTaken_none, fun h hh => ⟨fun hf => ?_, fun hf => ?_⟩⟩,
    fun w1 w2 w3 hext hturn => ⟨_, exec_twinFrame (take := fun u f _ _ _ => u.takeDone (frameKey f) (statusOf f.status.toNat) f.payload)
      rfl hext hturn, State.takeDone_none, fun h => State.takeDone_some⟩,
    fun w1 w2 w3 hext hturn => ⟨_, exec_twinFrame (take := fun u f e _ aux => u.takeHandover f e aux) rfl hext hturn,
      fun h => ?_, fun h => ?_⟩,
    fun w1 w2 w3 hext hturn => ⟨_, exec_twinFrame (take := fun u f e _ aux => u.takeOrphanState f e aux) rfl hext hturn,
      fun h => ?_, fun h => ?_⟩,
    fun w1 w2 w3 hext hturn => ⟨_, exec_twinFrame (take := fun u f e _ _ => u.takeExtCmd f e) rfl hext hturn,
      State.takeExtCmd_carried, State.takeExtCmd_applies⟩,
    fun w1 w2 w3 hext hturn => ⟨_, exec_twinFrame (take := fun u f e _ _ => u.takeExtDone e f.status.toNat) rfl hext hturn,
      State.takeExtDone_none, fun c hc => ⟨fun hw => ?_, fun k g hw => ?_⟩⟩⟩
  · exact (State.takeMirror_known hy).trans (if_pos h)
  · exact (State.takeMirror_known hy).trans (if_neg h)
  · rw [State.takeTaken_some hh, if_pos hf]
  · rw [State.takeTaken_some hh, if_neg (by rw [hf]; decide)]
    cases h.orphan <;> exact State.dropCopy_keeps _ h
  · rw [State.takeHandover_holder h]
    exact State.holdRequest_cases _ _ _ _
  · obtain ⟨hhanded, hstore, hjobs, hleases⟩ := State.takeHandover_back_keeps (f := (asTwin 0x10 rx).f) (aux := w3.toNat % 2 ^ 24) h
    refine ⟨hhanded, hstore, hjobs, hleases, ?_⟩
    rw [hhanded]
    exact State.takeHandover_back h
  · rw [State.takeOrphanState, if_pos h]
    exact State.holdRequest_cases _ _ _ _
  · rw [State.takeOrphanState, if_neg (by rw [h]; decide)]
  · rw [State.takeExtDone_some hc, hw]; rfl
  · rw [State.takeExtDone_some hc, hw]; rfl

end Sys2Proof.Machine
end

section
/-! PROOFS. Frames of the twin connection about the pair and its leases: what a PAIR_HELLO comes to by its token and its ECHO, what
a LEASE_LIST entry makes of its lease, and what the other frames do where they act and where they do not. -/

namespace Sys2Proof.Machine

variable {s t u : State} {f : Frame} {rx : Rx} {e d gen code aux : Nat} {x y z : Lease}

/-! ### PAIR_HELLO (R378, R380) -/

/-- The NONCE and the ECHO of a PAIR_HELLO. -/
def helloNonce (f : Frame) : Nat := beField f.payload 24 8
def helloEcho (f : Frame) : Nat := beField f.payload 32 8

/-- What the path of a PAIR_HELLO remembers. -/
def State.helloPath (s : State) (rx : Rx) : TwinPath := s.twin.paths.getD (s.twinPathOf rx.port) { }

/-- The frame is from the partner's address, and its token is that of its fields under the pair key. -/
def State.HelloGood (s : State) (key : BitVec 256) (rx : Rx) : Prop :=
  rx.src = s.partnerIp ∧ BitVec.ofNat 128 (beField rx.f.payload 0 16) =
    token key (tokenBytes (s.reg Reg.twPartnerDev % 65536) (1 - s.side) rx.f.incarn.toNat (beField rx.f.payload 16 8) (helloNonce rx.f)
      (helloEcho rx.f))

/-- Its ECHO is a NONCE that this device sent on the path within the last 10 ms. -/
def State.HelloFresh (s : State) (rx : Rx) : Prop :=
  helloEcho rx.f ≠ 0 ∧ ∃ e ∈ (s.helloPath rx).nonces, e.1.toNat = helloEcho rx.f ∧ s.ran < e.2 + 10000001

/-- A PAIR_HELLO was answered on its path within the last ms. -/
def State.HelloSoon (s : State) (rx : Rx) : Prop := ∃ t, (s.helloPath rx).lastAnswer = some t ∧ s.ran < t + 1000000

/-- Whether the path of a PAIR_HELLO is live. -/
def State.helloLive (s : State) (n : Nat) : Bool := (s.conn? twinConn).any fun k => (k.paths.getD n { }).live

theorem State.helloGood_iff {key : BitVec 256} : s.HelloGood key rx ↔ ¬(rx.src != s.partnerIp ||
    token key (tokenBytes (s.reg Reg.twPartnerDev % 65536) (1 - s.side) rx.f.incarn.toNat (beField rx.f.payload 16 8)
      (beField rx.f.payload 24 8) (beField rx.f.payload 32 8)) != BitVec.ofNat 128 (beField rx.f.payload 0 16)) = true := by
  simp only [State.HelloGood, helloNonce, helloEcho, Bool.or_eq_true, bne_iff_ne, ne_eq, not_or, not_not]
  exact and_congr_right' eq_comm

theorem State.helloFresh_iff : s.HelloFresh rx ↔ ¬(beField rx.f.payload 32 8 = 0 ||
    !(s.twin.paths.getD (s.twinPathOf rx.port) { }).nonces.any fun e =>
      e.1.toNat = beField rx.f.payload 32 8 && !s.since e.2 10000001) = true := by
  simp only [State.HelloFresh, State.helloPath, helloEcho, State.since, List.any_eq_true, Bool.or_eq_true, Bool.and_eq_true,
    decide_eq_true_eq, Bool.not_eq_true', not_or, Nat.not_le, ← Bool.not_eq_true, not_not, ne_eq]

theorem State.helloSoon_iff : s.HelloSoon rx ↔
    ((s.twin.paths.getD (s.twinPathOf rx.port) { }).lastAnswer.any fun t => !s.since t 1000000) = true := by
  simp [State.HelloSoon, State.helloPath, State.since, Option.any_eq_true]

theorem State.takePairHello_keyless (h : s.twin.key = none) : s.takePairHello rx = s.bump Reg.twPairDenied := by
  simp only [State.takePairHello, h]

section
variable {key : BitVec 256} (hkey : s.twin.key = some key)
include hkey

theorem State.takePairHello_denied (h : ¬s.HelloGood key rx) : s.takePairHello rx = s.bump Reg.twPairDenied := by
  simp only [State.takePairHello, hkey]
  exact if_pos (not_not.mp (mt State.helloGood_iff.mpr h))

section
variable (hgood : s.HelloGood key rx)
include hgood

theorem State.takePairHello_soon (h : ¬s.HelloFresh rx) (hsoon : s.HelloSoon rx) : s.takePairHello rx = s.bump Reg.twPairDenied := by
  simp only [State.takePairHello, hkey]
  rw [if_neg (State.helloGood_iff.mp hgood), if_pos (not_not.mp (mt State.helloFresh_iff.mpr h)), if_pos (State.helloSoon_iff.mp hsoon)]

theorem State.takePairHello_answers (h : ¬s.HelloFresh rx) (hsoon : ¬s.HelloSoon rx) : s.takePairHello rx =
    (s.onTwin fun t => { t with paths := t.paths.put (s.twinPathOf rx.port) { s.helloPath rx with lastAnswer := some s.ran } }).sendPairHello
      (s.twinPathOf rx.port) (helloNonce rx.f) := by
  simp only [State.takePairHello, hkey]
  rw [if_neg (State.helloGood_iff.mp hgood), if_pos (not_not.mp (mt State.helloFresh_iff.mpr h)),
    if_neg (mt State.helloSoon_iff.mpr hsoon)]
  rfl

section
variable (hfresh : s.HelloFresh rx) (hincarn : s.twin.partnerIncarn = some rx.f.incarn)
include hfresh hincarn

theorem State.takePairHello_live (h : (s.twinHeard rx.f).helloLive (s.twinPathOf rx.port) = true) :
    s.takePairHello rx = s.twinHeard rx.f := by
  simp only [State.takePairHello, hkey]
  rw [if_neg (State.helloGood_iff.mp hgood), if_neg (State.helloFresh_iff.mp hfresh), if_pos hincarn]
  exact if_pos h

/-- A further path of an open twin connection goes live, and its PAIR_HELLO is answered. -/
theorem State.takePairHello_opens (h : (s.twinHeard rx.f).helloLive (s.twinPathOf rx.port) = false)
    (hopen : (s.twinHeard rx.f).twinOpen = true) : s.takePairHello rx =
      ((s.twinHeard rx.f).onPath twinConn (s.twinPathOf rx.port) fun q => { q with
        live := true, opened := true, lost := 0, probeAt := none, droppedAt := none, lastAcked := (s.twinHeard rx.f).ran }).sendPairHello
          (s.twinPathOf rx.port) (helloNonce rx.f) := by
  simp only [State.takePairHello, hkey]
  rw [if_neg (State.helloGood_iff.mp hgood), if_neg (State.helloFresh_iff.mp hfresh), if_pos hincarn]
  exact (if_neg (Bool.eq_false_iff.mp h)).trans (by rw [hopen]; rfl)

end
end
end

theorem asTwin_type (kind : Nat) (rx : Rx) : (asTwin kind rx).f.ty = 0x60 := type_ty 0x60 false rx

/-- A PAIR_HELLO that a paired device receives on a twin port is checked, whatever its connection says. -/
theorem rxFrame_pairHello (h : s.Passes rx) (hty : rx.f.ty = 0x60) (hrole : (s.counted rx).role rx.port = 2)
    (hpaired : (s.counted rx).paired = true) (hservice : (s.counted rx).boot.service ≠ .greyscale)
    (hext : ∃ ws, twinExt rx.f = some (1, ws)) : s.rxFrame rx = (s.counted rx).takePairHello rx := by
  obtain ⟨ws, hext⟩ := hext
  rw [rxFrame_passes h]
  simp [State.rxAccepted, State.rxTwin, hty, hrole, hpaired, hservice, hext]

theorem exec_pairHello (h : s.Passes (asFlag fUnseq true (asTwin 0x01 rx)))
    (hrx : s.rxFrame (asFlag fUnseq true (asTwin 0x01 rx)) = t) : exec (.pairHello rx) s = .next (settle t.progress) :=
  exec_work_eq (f := fun s => s.rxFrame (asFlag fUnseq true (asTwin 0x01 rx))) rfl h.clocked hrx

/-! ### BEAT (R395) -/

theorem State.heard_only (s : State) (c : Nat) (rx : Rx) : s.OnlySends (s.heard c rx) :=
  ((State.OnlySends.onConn s c _).trans (State.OnlySends.onPath _ _ _ _)).trans (takeAck_only _ _ _ _)

/-- A frame of the twin connection outside the sequence is only heard. -/
theorem rxFrame_unsequenced (h : s.OfTwin rx) (hun : has rx.f fUnseq = true) : s.rxFrame rx = s.twinHears rx := by
  rw [rxFrame_ofTwin h]
  simp [State.rxConn, h.type, hun, State.twinHears, State.heard]

/-- A lease that went LOST returns to the state that it left. -/
def Lease.returned (x : Lease) : Lease := if x.st = .lost then { x with st := x.before, before := .none } else x

theorem State.twinHeard_known (h : s.twin.partnerIncarn = some f.incarn) : s.twinHeard f =
    s.onTwin fun t => { t with lastHeard := s.ran, leases := t.leases.map fun e => (e.1, e.2.returned) } := if_pos h

theorem State.lease_twinHears (h : s.OfTwin rx) (d : Nat) : (s.twinHears rx).lease d = ((s.counted rx).lease d).returned := by
  rw [State.lease, State.twinHears, (OnlySends.facts (State.heard_only _ _ _)).1, State.twinHeard_known h.incarn]
  exact Tbl.getD_mapVals Lease.returned _ d { }

/-! ### RENEW (R391, R393) -/

theorem State.settleOrphans_none (h : s.twin.handed.filter (·.orphan) = []) (l : List TwinKey) : s.settleOrphans l = s := by
  rw [State.settleOrphans, h, List.mergeSort_nil, List.foldl_nil]

/-- A RENEW carries the digest and the count of the leases that this device takes its partner to hold. -/
def State.RenewSame (s : State) (f : Frame) : Prop :=
  beField f.payload 0 4 = leaseDigest s.partnerLeases ∧ beField f.payload 4 4 = s.partnerLeases.length

/-- The LEASE_LIST has gone out. -/
def State.listOut (s : State) : State := (if s.twin.listSent then s else s.sendLeaseList).onTwin fun t => { t with listSent := true }

section
variable (h : s.twin.handed.filter (·.orphan) = [])
include h

theorem State.takeRenew_same (hsame : s.RenewSame f) : s.takeRenew f aux = s := by
  obtain ⟨hdigest, hcount⟩ := hsame
  simp only [State.takeRenew, hdigest, hcount, decide_true, Bool.and_self, Bool.not_true, State.when_false]
  exact State.settleOrphans_none h _

theorem State.takeRenew_differs (hsame : ¬s.RenewSame f) : s.takeRenew f aux = s.listOut := by
  have hdiffers : (!(decide (beField f.payload 0 4 = leaseDigest s.partnerLeases) &&
      decide (beField f.payload 4 4 = s.partnerLeases.length))) = true := by
    simpa [State.RenewSame, imp_iff_not_or] using hsame
  have hhanded : s.listOut.twin.handed = s.twin.handed := by
    rw [State.listOut]
    split
    · rfl
    · exact (congrArg Twin.handed (OnlySends.facts (sendLeaseList_only s)).1 :)
  simp only [State.takeRenew, hdiffers, State.when_true]
  exact State.settleOrphans_none (by rw [← h, ← hhanded]; rfl) _

end

/-! ### A lease of one extent changes -/

theorem State.lease_of_get? (h : s.twin.leases.get? e = some x) : s.lease e = x := by
  rw [State.lease, Tbl.getD, h]
  rfl

theorem State.get?_of_lease (h : (s.lease e).st ≠ .none) : s.twin.leases.get? e = some (s.lease e) := by
  rw [State.lease, Tbl.getD] at h ⊢
  cases hx : s.twin.leases.get? e with
  | none => rw [hx] at h; exact absurd rfl h
  | some x => rfl

/-- From s to t no lease but that of an extent has changed, and neither the store nor an operation. -/
def State.OnlyLease (s : State) (e : Nat) (t : State) : Prop :=
  (∀ d, d ≠ e → t.twin.leases.get? d = s.twin.leases.get? d) ∧ t.store = s.store ∧ t.jobs = s.jobs

/-- From s to t the lease of an extent has become y; no other has changed, and neither the store, nor an operation, nor how far
the lists are exchanged. -/
structure State.LeaseBecomes (s : State) (e : Nat) (y : Lease) (t : State) : Prop where
  lease : t.twin.leases.get? e = some y
  only : s.OnlyLease e t
  lists : t.twin.listed = s.twin.listed ∧ t.twin.listSent = s.twin.listSent

theorem State.LeaseBecomes.onLease (h : s.twin.leases.get? e = some x) (g : Lease → Lease) : s.LeaseBecomes e (g x) (s.onLease e g) :=
  ⟨by rw [lease_onLease, if_pos rfl, h]; rfl, ⟨fun d hd => by rw [lease_onLease, if_neg hd], rfl, rfl⟩, rfl, rfl⟩

theorem State.LeaseBecomes.trans (h : s.LeaseBecomes e y t) (h' : t.LeaseBecomes e z u) : s.LeaseBecomes e z u :=
  ⟨h'.lease, ⟨fun d hd => (h'.only.1 d hd).trans (h.only.1 d hd), h'.only.2.1.trans h.only.2.1, h'.only.2.2.trans h.only.2.2⟩,
    h'.lists.1.trans h.lists.1, h'.lists.2.trans h.lists.2⟩

theorem State.LeaseBecomes.onLeaseAgain (h : s.LeaseBecomes e y t) (g : Lease → Lease) : s.LeaseBecomes e (g y) (t.onLease e g) :=
  h.trans (.onLease h.lease g)

theorem State.LeaseBecomes.sends (h : s.LeaseBecomes e y t) (h' : t.OnlySends u) : s.LeaseBecomes e y u := by
  obtain ⟨htwin, hstore, hjobs, -⟩ := OnlySends.facts h'
  refine h.trans ⟨?_, ⟨fun d _ => ?_, hstore, hjobs⟩, ?_, ?_⟩ <;> rw [htwin]
  exact h.lease

theorem State.LeaseBecomes.markDirty (h : s.LeaseBecomes e y t) (d : Nat) : s.LeaseBecomes e y (t.markDirty d) :=
  h.trans ⟨h.lease, ⟨fun _ _ => rfl, rfl, rfl⟩, rfl, rfl⟩

/-! ### LEASE_LIST (R393, R400, Table 13-5; that NONE too is FENCED by a partner in SOLO is log entry 56) -/

/-- The state in which a lease ends whose GEN the partner's claim exceeds: FENCED where the partner's copy is the current one. -/
def LeaseSt.yielded (st : LeaseSt) (code : Nat) : LeaseSt :=
  match st with
  | .none | .hold | .shadow => if code = 6 then .fenced else .shadow
  | .giving => .shadow
  | .solo | .fenced => .fenced
  | .lost => .lost
  | .conflict => .conflict

/-- The states that end FENCED under a claim. -/
def LeaseSt.Fences (st : LeaseSt) (code : Nat) : Prop := st = .solo ∨ st = .fenced ∨ (code = 6 ∧ st ≠ .giving)

theorem LeaseSt.yielded_fenced {st : LeaseSt} (h : st.Fences code) (hlost : st ≠ .lost) (hconflict : st ≠ .conflict) :
    st.yielded code = .fenced := by
  cases st <;> simp_all [LeaseSt.yielded, LeaseSt.Fences]

theorem LeaseSt.yielded_shadow {st : LeaseSt} (h : ¬st.Fences code) (hlost : st ≠ .lost) (hconflict : st ≠ .conflict) :
    st.yielded code = .shadow := by
  cases st <;> simp_all [LeaseSt.yielded, LeaseSt.Fences]

/-- The partner's entry claims the lease: it reads HOLD, GIVING or SOLO. -/
def Claims (code : Nat) : Prop := code = 2 ∨ code = 4 ∨ code = 6

/-- The partner's claim is of a higher GEN than a lease that can yield to it. -/
def Lease.Outranked (x : Lease) (code gen : Nat) : Prop := Claims code ∧ x.gen < gen ∧ x.st ≠ .lost ∧ x.st ≠ .conflict

/-- Both devices claim the lease at the same GEN, one of them in SOLO. -/
def Lease.Clashes (x : Lease) (code gen : Nat) : Prop :=
  x.gen = gen ∧ ((x.st = .solo ∧ (code = 6 ∨ code = 2)) ∨ (x.st = .hold ∧ code = 6))

theorem Lease.clashes_iff : x.Clashes code gen ↔ (decide (x.gen = gen) && ((decide (x.st = .solo) && (decide (code = 6) || decide (code = 2))) ||
    (decide (x.st = .hold) && decide (code = 6)))) = true := by
  simp only [Lease.Clashes, Bool.and_eq_true, Bool.or_eq_true, decide_eq_true_eq]

section
variable (hx : s.twin.leases.get? e = some x)
include hx

theorem State.LeaseBecomes.partner (code : Nat) : s.LeaseBecomes e { x with partner := code } (s.onLease e fun x => { x with partner := code }) :=
  .onLease hx fun x => { x with partner := code }

theorem State.settleLease_released (hcode : code = 7) (hst : x.st = .conflict) :
    s.LeaseBecomes e { x with partner := code, st := .solo, holder := s.side } (s.settleLease e code gen) := by
  simp only [State.settleLease, State.lease_of_get? hx, hcode, hst, decide_true, Bool.and_self, if_true]
  exact ((State.LeaseBecomes.partner hx 7).onLeaseAgain fun y => { y with st := .solo, holder := s.side }).markDirty e

theorem State.settleLease_yields (h : x.Outranked code gen) : s.LeaseBecomes e
    { x with partner := code, st := x.st.yielded code, gen := gen, holder := 1 - s.side, given := false } (s.settleLease e code gen) := by
  obtain ⟨hclaims, hgen, hlost, hconflict⟩ := h
  have hcode : (decide (code = 2) || decide (code = 4) || decide (code = 6)) = true := by
    simpa [Claims, or_assoc] using hclaims
  have h7 : ¬(decide (code = 7) && decide (x.st = .conflict)) = true := by simp [hconflict]
  have hyields : ¬(decide (x.st = .lost) || decide (x.st = .conflict)) = true := by simp [hlost, hconflict]
  simp only [State.settleLease, State.lease_of_get? hx, if_neg h7, hcode, decide_eq_true hgen, Bool.and_self, if_true, if_neg hyields]
  exact (State.LeaseBecomes.partner hx code).onLeaseAgain fun y =>
    { y with st := x.st.yielded code, gen := gen, holder := 1 - s.side, given := false }

theorem State.settleLease_clashes (h : x.Clashes code gen) :
    s.LeaseBecomes e { x with partner := code, st := .conflict } (s.settleLease e code gen) := by
  have h7 : ¬(decide (code = 7) && decide (x.st = .conflict)) = true := by
    obtain ⟨-, ⟨hst, -⟩ | ⟨hst, -⟩⟩ := h <;> simp [hst]
  have hgen : ¬x.gen < gen := by have := h.1; omega
  simp only [State.settleLease, State.lease_of_get? hx, if_neg h7, decide_eq_false hgen, Bool.false_and, Bool.false_eq_true, if_false,
    Lease.clashes_iff.mp h, if_true]
  exact ((State.LeaseBecomes.partner hx code).onLeaseAgain fun y => { y with st := .conflict }).sends (.bump _ _ _)

theorem State.settleLease_notes (h7 : ¬(code = 7 ∧ x.st = .conflict)) (hhigher : ¬x.Outranked code gen) (hclash : ¬x.Clashes code gen) :
    s.LeaseBecomes e { x with partner := code } (s.settleLease e code gen) := by
  replace h7 : ¬(decide (code = 7) && decide (x.st = .conflict)) = true := by simpa using h7
  simp only [State.settleLease, State.lease_of_get? hx, if_neg h7, if_neg (mt Lease.clashes_iff.mpr hclash)]
  split
  · next hclaim =>
    rw [if_pos]
    · exact .partner hx code
    · by_contra hyields
      refine hhigher ?_
      simp only [Bool.and_eq_true, Bool.or_eq_true, decide_eq_true_eq, not_or, or_assoc] at hclaim hyields
      exact ⟨hclaim.2, hclaim.1, hyields⟩
  · exact .partner hx code

end

/-- The entries of a grant that are carried to a partner without them leave every lease as it is. -/
theorem State.LeaseBecomes.carryEntries (l : List Nat) (h : s.LeaseBecomes e y t) :
    s.LeaseBecomes e y (l.foldl (fun s e => s.carryEntry e) t) := by
  induction l generalizing t with
  | nil => exact h
  | cons d l ih => exact ih ((h.markDirty d).sends (sendTwin_only _ _))

/-- This device's own list has gone out, and the partner's has come. -/
def State.listTaken (s : State) : State :=
  (if s.twin.listSent then s else s.sendLeaseList).onTwin fun t => { t with listSent := false, listed := true }

theorem State.listTaken_keeps (s : State) : s.listTaken.twin.leases = s.twin.leases ∧ s.listTaken.store = s.store ∧
    s.listTaken.jobs = s.jobs := by
  obtain ⟨htwin, hstore, hjobs, -⟩ := OnlySends.facts (sendLeaseList_only s)
  rw [State.listTaken]
  split
  · exact ⟨rfl, rfl, rfl⟩
  · exact ⟨(congrArg Twin.leases htwin :), hstore, hjobs⟩

theorem State.listTaken_side (s : State) : s.listTaken.side = (if s.twin.listSent then s else s.sendLeaseList).side := rfl

/-- A LEASE_LIST of one entry settles the lease of its extent, and may carry grant entries after it. -/
theorem State.takeLeaseList_one (hx : s.twin.leases.get? (beField f.payload 0 4 % 2 ^ 17) = some x) : ∃ l : List Nat,
    s.takeLeaseList f 1 = l.foldl (fun s e => s.carryEntry e) (s.listTaken.settleLease (beField f.payload 0 4 % 2 ^ 17)
      (beField f.payload 0 4 / 2 ^ 28) (beField f.payload 4 4)) := by
  have hknown : (s.listTaken.twin.leases.get? (beField f.payload 0 4 % 2 ^ 17)).isNone = false := by
    rw [s.listTaken_keeps.1, hx]; rfl
  simp only [State.listTaken] at hknown ⊢
  simp only [State.takeLeaseList, List.range_one, List.map_cons, List.map_nil, List.foldl_cons, List.foldl_nil, Nat.mul_zero, zero_add,
    hknown, Bool.false_and, Bool.false_eq_true, if_false, Nat.one_lt_ofNat, if_true]
  exact ⟨_, rfl⟩

/-- What the entry of a LEASE_LIST makes of its lease, the LEASE_LIST makes of it. -/
theorem State.takeLeaseList_settles (haux : aux = 1) (hx : s.twin.leases.get? (beField f.payload 0 4 % 2 ^ 17) = some x)
    (h : s.listTaken.twin.leases.get? (beField f.payload 0 4 % 2 ^ 17) = some x →
      s.listTaken.LeaseBecomes (beField f.payload 0 4 % 2 ^ 17) y (s.listTaken.settleLease (beField f.payload 0 4 % 2 ^ 17)
        (beField f.payload 0 4 / 2 ^ 28) (beField f.payload 4 4))) :
    (s.takeLeaseList f aux).twin.leases.get? (beField f.payload 0 4 % 2 ^ 17) = some y ∧
      s.OnlyLease (beField f.payload 0 4 % 2 ^ 17) (s.takeLeaseList f aux) ∧ (s.takeLeaseList f aux).twin.listed = true ∧
      (s.takeLeaseList f aux).twin.listSent = false := by
  subst haux
  obtain ⟨l, hl⟩ := State.takeLeaseList_one hx
  obtain ⟨hleases, hstore, hjobs⟩ := s.listTaken_keeps
  obtain ⟨hlease, ⟨hothers, hstore', hjobs'⟩, hlisted, hsent⟩ := (h (hleases ▸ hx)).carryEntries l
  rw [hl]
  exact ⟨hlease, ⟨fun d hd => (hothers d hd).trans (by rw [hleases]), hstore'.trans hstore, hjobs'.trans hjobs⟩, hlisted, hsent⟩

/-! ### GIVE and TAKE (R392, Table 13-5) -/

/-- The extent of a GIVE that is taken: this device holds its lease. -/
def State.leaseTaken (s : State) (e gen : Nat) : State := s.onLease e fun x => { x with st := .hold, gen := gen, holder := s.side }

theorem State.takeGive_takes (h : (s.lease e).st = .shadow) :
    s.takeGive e gen = (s.leaseTaken e gen).sendTwin (twinFrame 0x06 e gen 0 0 noKey 0 []) := if_pos h

theorem State.takeGive_becomes (hx : s.twin.leases.get? e = some x) (hst : x.st = .shadow) :
    s.LeaseBecomes e { x with st := .hold, gen := gen, holder := s.side } (s.takeGive e gen) := by
  rw [State.takeGive_takes (by rw [State.lease_of_get? hx, hst])]
  exact (State.LeaseBecomes.onLease hx fun x => { x with st := .hold, gen := gen, holder := s.side }).sends (sendTwin_only _ _)

/-- The lease of an extent that TAKE has moved to the partner. -/
def State.leaseGiven (s : State) (e gen : Nat) : State :=
  s.onLease e fun x => { x with st := .shadow, gen := gen, holder := 1 - s.side, given := false }

/-- The operations of an extent that wait for its lease. -/
def State.leaseWaiters (s : State) (e : Nat) : List Nat :=
  (s.jobs.ops.filter fun o => o.2.extent = e && o.2.mirrored && !o.2.started).map (·.1)

theorem State.takeTake_gives (h : (s.lease e).st = .giving) :
    s.takeTake e gen = (s.leaseWaiters e).foldl (fun s i => s.mirrorStart i) (s.leaseGiven e gen) := if_pos h

theorem State.leaseGiven_becomes (h : (s.lease e).st = .giving) : s.LeaseBecomes e
    { s.lease e with st := .shadow, gen := gen, holder := 1 - s.side, given := false } (s.leaseGiven e gen) :=
  .onLease (State.get?_of_lease (by rw [h]; decide)) fun x => { x with st := .shadow, gen := gen, holder := 1 - s.side, given := false }

/-! ### COPY (R400) -/

theorem State.takeCopy_writes (h : (s.lease e).st = .fenced ∧ extentOf (offOf f.addr.toNat) = e) :
    s.takeCopy f e = s.copyWrite (offOf f.addr.toNat) (slice f.payload 0 4096) := if_pos (by simpa using h)

theorem State.takeCopy_idle (h : ¬((s.lease e).st = .fenced ∧ extentOf (offOf f.addr.toNat) = e)) : s.takeCopy f e = s :=
  if_neg (by simpa using h)

/-! ### RESET_NOTICE (R399) -/

/-- Whether a departing partner leaves the extent of a lease to this device. -/
def Lease.leftBehind (x : Lease) : Bool := x.st = .hold || x.st = .shadow || x.st = .giving || x.st = .lost

theorem State.takeResetNotice_leases (hshadows : s.twin.shadows = []) (hholders : s.twin.holders = []) (hhanded : s.twin.handed = [])
    (hkeys : (s.twin.leases.map (·.1)).Nodup) (d : Nat) : s.takeResetNotice.twin.leases.get? d =
      (s.twin.leases.get? d).map fun x => if x.leftBehind then x.soloOf s.side else x :=
  takeover_quiet (p := Lease.leftBehind) hshadows hholders hhanded hkeys d

/-! ### Unknown KINDs (R381) -/

theorem twinForm_unknown {k : Nat} {ws : List Word} (hext : twinExt f = some (k, ws)) (hk : k ∉ twinKinds) : twinForm f = false := by
  rw [twinForm, hext]
  split
  · next hk' =>
    obtain ⟨rfl, rfl⟩ := Prod.mk.inj (Option.some.inj hk')
    simp [hk]
  · rfl

/-- A TWIN frame that reaches step 4 with a KIND that Table 13-2 does not list is dropped there. -/
theorem rxFrame_unknownKind (hport : s.hasPort rx.port = true) (hup : (s.portSt rx.port).up = true)
    (hon : s.ownState (portPage rx.port) ≠ .off) (hloud : s.twinMuted rx.port = false) (hdrill : (s.drillDrop rx.port 0).1 = false)
    (hfec : rx.fecOk = true) (hfcs : rx.fcsOk = true) (hsecure : (((s.drillDrop rx.port 0).2.received rx).macsec rx).1 = true)
    (hty : rx.f.ty = 0x60) (hform : twinForm rx.f = false) :
    s.rxFrame rx = (((s.drillDrop rx.port 0).2.received rx).macsec rx).2.dropHdr rx.port := by
  simp [State.rxFrame, hport, hup, hon, hloud, hdrill, hfec, hfcs, hsecure, State.formed, hty, hform]

/-! ### The rows -/

/-- Settles O56: each frame by what its KIND takes, where it acts and where it leaves the state as it is. -/
theorem twinLeases : Obligations.TwinLeases := by
  intro s rx ok takes leaseOnly
  refine ⟨?_, ?_,
    fun w1 w2 w3 hext hturn => ⟨_, exec_twinFrame (take := fun u f _ _ aux => u.takeRenew f aux) rfl hext hturn,
      fun h => ⟨State.takeRenew_same h, fun hd hs => ?_, fun hd hs => ?_⟩⟩,
    fun w1 w2 w3 hext hturn => ⟨_, exec_twinFrame (take := fun u f _ _ aux => u.takeLeaseList f aux) rfl hext hturn,
      fun haux x hx => ⟨fun h7 hst => ?_, fun hc hg hl hcf => ⟨fun h => ?_, fun h => ?_⟩, fun h => ?_, fun h7 hh hc => ?_⟩⟩,
    fun w1 w2 w3 hext hturn => ⟨_, exec_twinFrame (take := fun u _ e gen _ => u.takeGive e gen) rfl hext hturn,
      fun x hx hst => ?_, fun h => if_neg h⟩,
    fun w1 w2 w3 hext hturn => ⟨_, exec_twinFrame (take := fun u _ e gen _ => u.takeTake e gen) rfl hext hturn,
      fun h => ⟨State.takeTake_gives h, fun hw => ?_⟩, fun h => if_neg h⟩,
    fun w1 w2 w3 hext hturn => ⟨_, exec_twinFrame (take := fun u f e _ _ => u.takeCopy f e) rfl hext hturn,
      State.takeCopy_writes, State.takeCopy_idle⟩,
    fun w1 w2 w3 hext hturn => ⟨_, exec_twinFrame (take := fun u _ e _ aux => u.takeCheckpoint e aux) rfl hext hturn,
      fun h => if_pos h, fun h => if_neg h⟩,
    fun w1 w2 w3 hext hturn => ⟨_, exec_twinFrame (take := fun u _ _ _ _ => u.takeResetNotice) rfl hext hturn, rfl,
      State.takeResetNotice_leases⟩, ?_⟩
  · intro r u f n nonce echo x good fresh soon hpass hrole hpaired hservice hext
    have hrx : s.rxFrame r = u.takePairHello r :=
      rxFrame_pairHello hpass ((flag_ty _ _ _).trans (asTwin_type 0x01 rx)) hrole hpaired hservice hext
    have hrow {t : State} (h : u.takePairHello r = t) : exec (.pairHello rx) s = ok t := exec_pairHello hpass (hrx.trans h)
    refine ⟨fun hkey => hrow (State.takePairHello_keyless hkey), fun key hkey =>
      ⟨fun hbad => hrow (State.takePairHello_denied hkey hbad), fun hgood hold hsoon => hrow (State.takePairHello_soon hkey hgood hold hsoon),
        fun hgood hold hsoon => hrow (State.takePairHello_answers hkey hgood hold hsoon), fun hgood hfresh hincarn => ⟨fun hlive => ?_,
          fun hlive hopen => ?_⟩⟩⟩
    · exact hrow (State.takePairHello_live hkey hgood hfresh hincarn hlive)
    · exact hrow (State.takePairHello_opens hkey hgood hfresh hincarn hlive hopen)
  · exact fun h => ⟨exec_work_eq (f := fun s => s.rxFrame (asFlag fUnseq true (asTwin 0x02 rx))) rfl h.passes.clocked
      (rxFrame_unsequenced h (as_has fUnseq true _ (by decide))), State.lease_twinHears h⟩
  · rw [State.takeRenew_differs h hd, State.listOut, if_pos hs]
  · rw [State.takeRenew_differs h hd, State.listOut, if_neg (by rw [hs]; decide)]
  · have h' := State.takeLeaseList_settles haux hx fun hx => State.settleLease_released hx h7 hst
    rw [State.listTaken_side] at h'
    exact h'
  · have h' := State.takeLeaseList_settles haux hx fun hx => State.settleLease_yields hx ⟨hc, hg, hl, hcf⟩
    rw [LeaseSt.yielded_fenced h hl hcf, State.listTaken_side] at h'
    exact h'
  · have h' := State.takeLeaseList_settles haux hx fun hx => State.settleLease_yields hx ⟨hc, hg, hl, hcf⟩
    rw [LeaseSt.yielded_shadow h hl hcf, State.listTaken_side] at h'
    exact h'
  · exact State.takeLeaseList_settles haux hx fun hx => State.settleLease_clashes hx h
  · exact State.takeLeaseList_settles haux hx fun hx => State.settleLease_notes hx h7 hh hc
  · have hgives := State.takeGive_becomes (gen := w2.toNat) hx hst
    exact ⟨State.takeGive_takes (by rw [State.lease_of_get? hx, hst]), hgives.lease, hgives.only⟩
  · have hgives := State.leaseGiven_becomes (gen := w2.toNat) h
    have hnone : (s.twinTurn (asTwin 0x06 rx)).leaseWaiters (w1.toNat % 2 ^ 17) = [] := hw
    rw [State.takeTake_gives h, hnone, List.foldl_nil, State.lease_of_get? hgives.lease]
    exact ⟨hgives.only, rfl, rfl⟩
  · rintro kind r u hclocked hport hup hon hloud hdrill hfec hfcs hsecure ⟨k, ws, hext, hk⟩
    exact exec_work_eq (f := fun s => s.rxFrame r) rfl hclocked (rxFrame_unknownKind hport hup hon hloud hdrill hfec hfcs hsecure
      (asTwin_type _ rx) (twinForm_unknown hext hk))

end Sys2Proof.Machine
end

section
/-! PROOFS. The timers of the twin unit, LEASE_CMD and the witness: what each row's operation comes to where its condition holds, and
that it leaves the state as it is where it does not. -/

namespace Sys2Proof.Machine

variable {s : State} {e i since : Nat} {x : Lease}

/-! ### Every lease changes by the same rule -/

def State.mapLeases (s : State) (g : Lease → Lease) : State :=
  s.onTwin fun t => { t with leases := t.leases.map fun e => (e.1, g e.2) }

theorem State.mapLeases_get? (s : State) (g : Lease → Lease) (d : Nat) :
    (s.mapLeases g).twin.leases.get? d = (s.twin.leases.get? d).map g := Tbl.get?_mapVals (fun _ => g) _ d

/-! ### PAIR_HELLO_TIMER, BEAT_TIMER and RENEW_TIMER (R380, R393, R395) -/

/-- The timer of a path sends a PAIR_HELLO where the path is not live and none was sent within 10 ms. -/
def State.helloTimed (s : State) (n : Nat) : State :=
  let due := (s.twin.paths.getD n { }).lastHello.all fun t => s.since t 10000000
  if s.helloLive n || !due then s
  else (s.onTwin fun t => { t with paths := t.paths.put n { (s.twin.paths.getD n { }) with lastHello := some s.ran } }).sendPairHello n 0

theorem pairHelloTimerOp_runs (hpaired : s.paired = true) (hservice : s.boot.service ≠ .greyscale) :
    pairHelloTimerOp s = s.twinPaths.foldl (fun u e => u.helloTimed e.1) s := if_neg (by simp [hpaired, hservice])

theorem pairHelloTimerOp_idle (h : s.paired = false ∨ s.boot.service = .greyscale) : pairHelloTimerOp s = s := if_pos (by simpa using h)

/-- The live paths of the twin connection. -/
def State.livePaths (s : State) : List Nat := ((s.conn? twinConn).elim [] fun k => k.paths.filter fun q => q.2.live).map (·.1)

/-- A BEAT leaves on a path, with the connection's acknowledgement. -/
def State.sendBeat (s : State) (n : Nat) : State :=
  s.sendUnseq twinConn n ((s.conn? twinConn).elim (twinFrame 0x02 0 0 0 0 noKey 0 []) fun k => k.withAck (twinFrame 0x02 0 0 0 0 noKey 0 []))

theorem beatTimerOp_due (hopen : s.twinOpen = true) (hdue : s.twin.lastBeat + 100000 ≤ s.ran) :
    beatTimerOp s = s.livePaths.foldl State.sendBeat (s.onTwin fun x => { x with lastBeat := s.ran }) :=
  if_pos (by simp [hopen, State.since, hdue])

theorem beatTimerOp_idle (h : s.twinOpen = false ∨ s.ran < s.twin.lastBeat + 100000) : beatTimerOp s = s :=
  if_neg (by simpa [State.since, imp_iff_not_or] using h)

/-- The orphans of a RENEW, in the order of their keys, and what it carries. -/
def State.orphans (s : State) : List Handed := (s.twin.handed.filter (·.orphan)).mergeSort fun a b => keyLe a.key b.key
def State.renewBody (s : State) : List Byte :=
  beBytes 4 (leaseDigest s.heldLeases) ++ beBytes 4 s.heldLeases.length ++ s.orphans.flatMap fun h =>
    beBytes 4 (identOf h.key.tenant.toNat h.key.agent.toNat) ++ beBytes 4 h.key.opId.toNat ++ beBytes 4 h.extent

theorem renewTimerOp_due (hopen : s.twinOpen = true) (hdue : s.twin.lastRenew + 1000000 ≤ s.ran) : renewTimerOp s =
    (s.onTwin fun x => { x with lastRenew := s.ran }).sendTwin (twinFrame 0x03 0 0 0 s.orphans.length noKey 0 s.renewBody) :=
  if_pos (by simp [hopen, State.since, hdue])

theorem renewTimerOp_idle (h : s.twinOpen = false ∨ s.ran < s.twin.lastRenew + 1000000) : renewTimerOp s = s :=
  if_neg (by simpa [State.since, imp_iff_not_or] using h)

/-! ### TWIN_SILENCE_TIMEOUT (R395) -/

def State.SilenceDue (s : State) : Prop := s.paired = true ∧ s.boot.service ≠ .greyscale ∧ s.twin.lastHeard + 2000000 ≤ s.ran

theorem State.silenceDue_iff : s.SilenceDue ↔
    (s.paired && s.boot.service != .greyscale && s.since s.twin.lastHeard 2000000) = true := by
  simp only [State.SilenceDue, State.since, Bool.and_eq_true, bne_iff_ne, decide_eq_true_eq, and_assoc]

/-- A lease that needs the partner goes LOST, and keeps the state that it left. -/
def Lease.silenced (x : Lease) : Lease :=
  if x.st = .hold || x.st = .shadow || x.st = .giving then { x with st := .lost, before := x.st } else x

theorem twinSilenceOp_due (h : s.SilenceDue) : twinSilenceOp s = s.mapLeases Lease.silenced := if_pos (State.silenceDue_iff.mp h)

theorem twinSilenceOp_early (h : ¬s.SilenceDue) : twinSilenceOp s = s := if_neg (mt State.silenceDue_iff.mpr h)

/-! ### MOVE and LEASE_GIVE (R392, Table 13-5) -/

theorem leaseMoveOp_get? (s : State) (d : Nat) : (leaseMoveOp s).twin.leases.get? d = (s.twin.leases.get? d).map fun x =>
    if d = s.reg Reg.twLeaseSel % 2 ^ 17 ∧ x.st = .hold then { x with st := .giving, given := false } else x := by
  rw [leaseMoveOp, lease_onLease]
  by_cases hd : d = s.reg Reg.twLeaseSel % 2 ^ 17
  · simp only [hd, if_true, true_and]
  · simp only [hd, if_false, false_and, Option.map_id']

/-- A GIVING extent's lease may go out: its operations are at PHASE 2, and GIVE has not been sent. -/
def State.GiveDue (s : State) (e : Nat) (x : Lease) : Prop :=
  x.st = .giving ∧ x.given = false ∧ (∀ h ∈ s.twin.holders, h.extent = e → 2 ≤ h.phase) ∧ s.twinOpen = true

theorem State.giveDue_iff : s.GiveDue e x ↔ (decide (x.st = .giving) && !x.given &&
    !(s.twin.holders.any fun h => decide (h.extent = e) && decide (h.phase < 2)) && s.twinOpen) = true := by
  simp only [State.GiveDue, Bool.and_eq_true, decide_eq_true_eq, Bool.not_eq_true', List.any_eq_false, not_and, Nat.not_lt, and_assoc]

section
variable (hx : s.twin.leases.get? e = some x)
include hx

theorem leaseGiveOp_gives (h : s.GiveDue e x) : leaseGiveOp e s =
    (s.onLease e fun x => { x with given := true }).sendTwin (twinFrame 0x05 e (x.gen + 1) 0 0 noKey 0 []) := by
  rw [leaseGiveOp, State.lease_of_get? hx]
  exact if_pos (State.giveDue_iff.mp h)

theorem leaseGiveOp_becomes (h : s.GiveDue e x) : s.LeaseBecomes e { x with given := true } (leaseGiveOp e s) := by
  rw [leaseGiveOp_gives hx h]
  exact (State.LeaseBecomes.onLease hx fun x => { x with given := true }).sends (sendTwin_only _ _)

theorem leaseGiveOp_waits (h : ¬s.GiveDue e x) : leaseGiveOp e s = s := by
  rw [leaseGiveOp, State.lease_of_get? hx]
  exact if_neg (mt State.giveDue_iff.mpr h)

end

/-! ### MIRROR_QUEUE_ROOM (R387) -/

/-- The oldest operation that waits for the mirror queue waits no longer. -/
def State.queueAdvanced (s : State) (rest : List (Nat × Nat)) : State := s.onTwin fun x => { x with waiting := rest }

theorem mirrorQueueRoomOp_empty (h : s.twin.waiting = []) : mirrorQueueRoomOp s = s := by
  simp only [mirrorQueueRoomOp, h]

section
variable {rest : List (Nat × Nat)} (hw : s.twin.waiting = (i, since) :: rest)
include hw

theorem mirrorQueueRoomOp_gone (ho : s.op? i = none) : mirrorQueueRoomOp s = s.queueAdvanced rest := by
  simp only [mirrorQueueRoomOp, hw, ho, State.queueAdvanced]

section
variable {o : Op} (ho : s.op? i = some o)
include ho

theorem mirrorQueueRoomOp_room (h : s.mirrorQueue + o.f.len.toNat ≤ 2 ^ 24) : mirrorQueueRoomOp s =
    ((s.queueAdvanced rest).bump64 Reg.twMirrorWaitNs (s.ran - since)).mirrorStart i := by
  simp only [mirrorQueueRoomOp, hw, ho, State.mirrorRoom, h, decide_true, if_true]
  rfl

theorem mirrorQueueRoomOp_full (h : 2 ^ 24 < s.mirrorQueue + o.f.len.toNat) : mirrorQueueRoomOp s = s := by
  simp only [mirrorQueueRoomOp, hw, ho, State.mirrorRoom, Nat.not_le.mpr h, decide_false, Bool.false_eq_true, if_false]

end
end

/-! ### RESYNC_EXTENT_DONE (R400, Table 13-7; that the end is of pass 6 is log entry 56) -/

/-- The last marked chunks of the extent are copied and acknowledged. -/
def State.ResyncOver (s : State) (e : Nat) (r : Resync) : Prop :=
  r.source = true ∧ r.extent = e ∧ r.pass = 6 ∧ r.todo = [] ∧ r.marked = [] ∧ r.suspended = false ∧ s.copiesOut = 0

theorem State.resyncOver_iff {r : Resync} : s.ResyncOver e r ↔ (r.source && decide (r.extent = e) && decide (r.pass = 6) &&
    r.todo.isEmpty && r.marked.isEmpty && !r.suspended && decide (s.copiesOut = 0)) = true := by
  simp only [State.ResyncOver, Bool.and_eq_true, decide_eq_true_eq, List.isEmpty_iff, Bool.not_eq_true', and_assoc]

/-- The source holds the extent, which is dirty no longer, and the resynchronisation of it is over and counted. -/
def State.resynced (s : State) (e : Nat) : State :=
  ((s.onLease e fun x => { x with st := .hold }).onTwin fun t =>
    { t with resync := none, dirty := t.dirty.filter (· != e) }).bump Reg.twResyncDone

/-- The partner's copy is current: its extent is in SHADOW. -/
def State.resyncShadowed (s : State) (e : Nat) : State :=
  (s.onLease e fun x => { x with st := .shadow }).onTwin fun t => { t with resync := t.resync.filter fun r => r.extent != e }

/-- The partner carries the lease in SOLO or HOLD. -/
def State.PartnerCarries (s : State) (x : Lease) : Prop := (x.partner = 6 ∨ x.partner = 2) ∧ x.holder = 1 - s.side

theorem State.partnerCarries_iff : s.PartnerCarries x ↔
    ((decide (x.partner = 6) || decide (x.partner = 2)) && decide (x.holder = 1 - s.side)) = true := by
  simp only [State.PartnerCarries, Bool.and_eq_true, Bool.or_eq_true, decide_eq_true_eq]

theorem State.resynced_counts (s : State) (e : Nat) :
    (s.resynced e).reg Reg.twResyncDone = min (s.reg Reg.twResyncDone + 1) (2 ^ 32 - 1) := by
  rw [State.resynced, State.reg_bump, satAdd]
  rfl

theorem State.resyncShadowed_other {r : Resync} (h : (s.resyncShadowed e).twin.resync = some r) : r.extent ≠ e := by
  obtain ⟨-, hne⟩ := Option.filter_eq_some_iff.mp h
  simpa using hne

section
variable (hx : s.twin.leases.get? e = some x)
include hx

section
variable (hst : x.st = .solo) {r : Resync} (hr : s.twin.resync = some r)
include hst hr

theorem resyncExtentDoneOp_source (h : s.ResyncOver e r) : resyncExtentDoneOp e s =
    (if (s.resynced e).twin.dirty.isEmpty then (s.resynced e).raise 11 else s.resynced e).resyncBegin := by
  simp only [resyncExtentDoneOp, State.lease_of_get? hx, hst, hr, if_true, State.resyncOver_iff.mp h]
  rfl

theorem resyncExtentDoneOp_copying (h : ¬s.ResyncOver e r) : resyncExtentDoneOp e s = s := by
  simp only [resyncExtentDoneOp, State.lease_of_get? hx, hst, hr, if_true, if_neg (mt State.resyncOver_iff.mpr h)]

end

theorem resyncExtentDoneOp_partner (hst : x.st = .fenced) (h : s.PartnerCarries x) : resyncExtentDoneOp e s = s.resyncShadowed e := by
  rw [resyncExtentDoneOp, State.lease_of_get? hx, if_neg (by rw [hst]; decide),
    if_pos (by rw [hst, Bool.and_assoc, State.partnerCarries_iff.mp h]; rfl)]
  rfl

theorem resyncExtentDoneOp_idle (hsolo : x.st ≠ .solo) (h : x.st ≠ .fenced ∨ ¬s.PartnerCarries x) : resyncExtentDoneOp e s = s := by
  rw [resyncExtentDoneOp, State.lease_of_get? hx, if_neg hsolo, if_neg]
  intro hall
  rw [Bool.and_assoc, Bool.and_eq_true, decide_eq_true_eq] at hall
  exact h.elim (fun hst => hst hall.1) fun hcarries => hcarries (State.partnerCarries_iff.mpr hall.2)

end

/-! ### TAKEOVER_HOLD_EXPIRY (R398) -/

theorem takeoverHoldExpiryOp_due (h : s.twin.recordedAt + bits (s.reg Reg.twTakeoverHold) 13 0 * 1000000 ≤ s.ran) :
    takeoverHoldExpiryOp s = s.onTwin fun t => { t with recorded := [] } := if_pos (decide_eq_true h)

theorem takeoverHoldExpiryOp_early (h : ¬s.twin.recordedAt + bits (s.reg Reg.twTakeoverHold) 13 0 * 1000000 ≤ s.ran) :
    takeoverHoldExpiryOp s = s := if_neg (by simpa [State.since] using h)

/-! ### The witness (R394; that FORM is UNSUPPORTED only where no extent is eligible is log entry 56) -/

/-- Whether FORM takes a lease: it is in NONE, or FENCED with a partner that is silent or reads NONE. -/
def State.Formable (s : State) (x : Lease) : Prop :=
  x.st = .none ∨ (x.st = .fenced ∧ ((s.twinOpen = false ∨ s.twin.lastHeard + 2000000 ≤ s.ran) ∨ x.partner = 1))

def State.formable (s : State) (x : Lease) : Bool :=
  x.st = .none || (x.st = .fenced && ((!s.twinOpen || s.since s.twin.lastHeard 2000000) || x.partner = 1))

theorem State.formable_iff : s.formable x = true ↔ s.Formable x := by
  simp only [State.formable, State.Formable, State.since, Bool.or_eq_true, Bool.and_eq_true, decide_eq_true_eq, Bool.not_eq_true']

/-- A lease after FORM. -/
def State.leaseFormed (s : State) (x : Lease) : Lease :=
  if s.formable x then { x with st := .hold, gen := x.gen + 1, holder := s.side } else x

theorem State.leaseFormed_takes {d : Nat} (hx : s.twin.leases.get? d = some x) (h : s.Formable x) :
    (s.mapLeases s.leaseFormed).twin.leases.get? d = some { x with st := .hold, gen := x.gen + 1, holder := s.side } := by
  rw [State.mapLeases_get?, hx, Option.map_some, State.leaseFormed, if_pos (State.formable_iff.mpr h)]

theorem State.leaseFormed_keeps {d : Nat} (hx : s.twin.leases.get? d = some x) (h : ¬s.Formable x) :
    (s.mapLeases s.leaseFormed).twin.leases.get? d = some x := by
  rw [State.mapLeases_get?, hx, Option.map_some, State.leaseFormed, if_neg (mt State.formable_iff.mp h)]

theorem State.formable_any : (s.twin.leases.any fun e => s.formable e.2) = true ↔ ∃ e ∈ s.twin.leases, s.Formable e.2 := by
  simp only [List.any_eq_true, State.formable_iff]

theorem witnessFormOp_forms (h : ∃ e ∈ s.twin.leases, s.Formable e.2) :
    witnessFormOp s = (s.mapLeases s.leaseFormed).setReg Reg.twWitnessResult Status.ok.code := if_pos (State.formable_any.mpr h)

theorem witnessFormOp_none (h : ¬∃ e ∈ s.twin.leases, s.Formable e.2) :
    witnessFormOp s = s.setReg Reg.twWitnessResult Status.unsupported.code := if_neg (mt State.formable_any.mp h)

/-- CONFIRM is of the partner's incarnation, and an extent is LOST. -/
def State.Confirms (s : State) (incarn : BitVec 8) : Prop :=
  (∃ e ∈ s.twin.leases, e.2.st = .lost) ∧ s.twin.partnerIncarn = some incarn

theorem State.confirms_iff {incarn : BitVec 8} : s.Confirms incarn ↔
    ((s.twin.leases.any fun e => e.2.st = .lost) && s.twin.partnerIncarn = some incarn) = true := by
  simp only [State.Confirms, Bool.and_eq_true, List.any_eq_true, decide_eq_true_eq]

theorem witnessConfirmOp_takes {incarn : BitVec 8} (h : s.Confirms incarn) : witnessConfirmOp incarn s =
    (s.takeover fun x => x.st = .lost).setReg Reg.twWitnessResult Status.ok.code := if_pos (State.confirms_iff.mp h)

theorem witnessConfirmOp_refused {incarn : BitVec 8} (h : ¬s.Confirms incarn) : witnessConfirmOp incarn s =
    s.setReg Reg.twWitnessResult Status.unsupported.code := if_neg (mt State.confirms_iff.mpr h)

theorem State.takeoverLost_leases (hshadows : s.twin.shadows = []) (hholders : s.twin.holders = []) (hhanded : s.twin.handed = [])
    (hkeys : (s.twin.leases.map (·.1)).Nodup) (d : Nat) : (s.takeover fun x => x.st = .lost).twin.leases.get? d =
      (s.twin.leases.get? d).map fun x => if x.st = .lost then x.soloOf s.side else x := by
  simpa only [decide_eq_true_eq] using takeover_quiet (p := fun x => x.st = .lost) hshadows hholders hhanded hkeys d

/-- A lease after FENCE. -/
def Lease.fence (x : Lease) : Lease := { x with st := .fenced, given := false }

theorem witnessFenceOp_fences (s : State) : witnessFenceOp s =
    (s.mapLeases Lease.fence).setReg Reg.twWitnessResult Status.ok.code := rfl

/-! ### The rows -/

/-- Settles O58: each row by its operation where it is due, and where it is not the row leaves the state as it is. -/
theorem twinTimers : Obligations.TwinTimers := by
  intro s hs ok same lease leases acts
  have hmapped (g : Lease → Lease) : leases (s.mapLeases g) g := ⟨s.mapLeases_get? g, rfl, rfl, rfl⟩
  refine ⟨⟨fun hp hb => exec_work_eq rfl hs (pairHelloTimerOp_runs hp hb), fun h => exec_work_eq rfl hs (pairHelloTimerOp_idle h)⟩,
    ⟨fun ho hd => ⟨_, exec_work_eq rfl hs (beatTimerOp_due ho hd), ?_, rfl⟩, fun h => exec_work_eq rfl hs (beatTimerOp_idle h)⟩,
    ⟨fun ho hd => ⟨_, exec_work_eq rfl hs (renewTimerOp_due ho hd), sendTwin_only _ _, rfl⟩,
      fun h => exec_work_eq rfl hs (renewTimerOp_idle h)⟩,
    ⟨fun h => ⟨_, exec_work_eq rfl hs (twinSilenceOp_due h), hmapped _⟩, fun h => exec_work_eq rfl hs (twinSilenceOp_early h)⟩,
    ⟨_, exec_work_eq rfl hs rfl, rfl, rfl, leaseMoveOp_get? s⟩,
    fun e x hx => ⟨fun h => ?_, fun h => exec_work_eq rfl hs (leaseGiveOp_waits hx h)⟩,
    ⟨fun h => exec_work_eq rfl hs (mirrorQueueRoomOp_empty h), fun i at_ rest hw =>
      ⟨fun ho => exec_work_eq rfl hs (mirrorQueueRoomOp_gone hw ho), fun o ho =>
        ⟨fun h => exec_work_eq rfl hs (mirrorQueueRoomOp_room hw ho h), fun h => exec_work_eq rfl hs (mirrorQueueRoomOp_full hw ho h)⟩⟩⟩,
    fun key => ⟨_, exec_work_eq rfl hs rfl, rfl, rfl⟩,
    fun e x hx => ⟨fun hst r hr => ⟨fun h => ?_, fun h => exec_work_eq rfl hs (resyncExtentDoneOp_copying hx hst hr h)⟩,
      fun hst => ⟨fun h => ?_, fun h => exec_work_eq rfl hs (resyncExtentDoneOp_idle hx (by rw [hst]; decide) (.inr h))⟩,
      fun hsolo hst => exec_work_eq rfl hs (resyncExtentDoneOp_idle hx hsolo (.inl hst))⟩,
    ⟨fun h => ⟨_, exec_work_eq rfl hs (takeoverHoldExpiryOp_due h), rfl, rfl⟩,
      fun h => exec_work_eq rfl hs (takeoverHoldExpiryOp_early h)⟩,
    ⟨fun h => ⟨_, exec_work_eq rfl hs (witnessFormOp_forms h), rfl, fun d => ⟨fun x => State.leaseFormed_takes, fun x => State.leaseFormed_keeps⟩⟩,
      fun h => ?_⟩,
    fun incarn => ⟨fun h => ⟨_, exec_work_eq rfl hs (witnessConfirmOp_takes h), rfl, State.takeoverLost_leases⟩,
      fun h => exec_work_eq rfl hs (witnessConfirmOp_refused h)⟩,
    ⟨_, exec_work_eq rfl hs (witnessFenceOp_fences s), hmapped _⟩⟩
  · exact State.OnlySends.foldl _ (fun s n => sendUnseq_only s _ _ _) _ _
  · have hgives := leaseGiveOp_becomes hx h
    exact ⟨_, exec_work_eq rfl hs rfl, leaseGiveOp_gives hx h, hgives.lease, hgives.only.2⟩
  · exact ⟨s.resynced e, exec_work_eq rfl hs (resyncExtentDoneOp_source hx hst hr h),
      (State.LeaseBecomes.onLease hx fun x => { x with st := .hold }).lease, rfl, rfl, s.resynced_counts e, rfl⟩
  · have hshadow := State.LeaseBecomes.onLease hx fun x => { x with st := .shadow }
    exact ⟨_, exec_work_eq rfl hs (resyncExtentDoneOp_partner hx hst h), hshadow.lease, hshadow.only.1, rfl,
      fun r => State.resyncShadowed_other⟩
  · exact exec_work_eq rfl hs (witnessFormOp_none fun ⟨e, he, hfit⟩ => h e he hfit)

end Sys2Proof.Machine
end

section
/-! PROOFS. Level sources and the clock: settle takes up every level condition, no step leaves one behind, and a stopped clock
holds the state. -/

namespace Sys2Proof.Machine

variable {s : State}

/-- A row that is an effect under the clock answers what the effect comes to. -/
theorem exec_act_eq {row : Instr} {f : State → State} {t : State} (hrow : exec row s = act s f) (hs : s.clocked = true)
    (h : f s = t) : exec row s = .next (settle t) := by
  rw [hrow, act_clocked hs, h]

/-! ### The stopped clock (R465) -/

/-- Settles O3: every command but the three of the power logic is an effect under the clock. -/
theorem stoppedClockHoldsEverything : Obligations.StoppedClockHoldsEverything := by
  intro c s hs hc
  obtain ⟨f, hf⟩ := exec_act c s hc
  rw [hf, act_stopped hs]

/-! ### What settle does (R437, R445, R459) -/

theorem settle_eq_fold (h : s.boot.step ≠ .rom) : settle s = levelSources.foldl (fun s src => s.sampleLevel src) s := if_neg h

theorem settle_keeps_pend {src : Nat} (hsrc : src < 1024) (hp : s.ev.pend.getLsbD src = true) :
    (settle s).ev.pend.getLsbD src = true := by
  by_cases hrom : s.boot.step = .rom
  · rw [settle_rom hrom, hp]
  · rw [settle_eq_fold hrom]; exact fold_pend levelSources s src hsrc hp

/-- Settles O4: sampling is a fold over the level sources, each of which it takes up once. -/
theorem settleSamplesLevels : Obligations.SettleSamplesLevels := by
  intro s
  refine ⟨settle_only s, settle_sampled s, fun src hsrc hp => settle_keeps_pend (by omega) hp,
    fun hrom src hsrc hlevel hheld hcond hvalid hmask => ?_⟩
  rw [settle_eq_fold hrom]
  exact fold_new levelSources s src (by omega) (mem_levels hsrc hlevel) hheld hcond hvalid hmask

/-! ### Every step samples the levels -/

theorem State.LevelsSampled.of_rom (h : s.boot.step = .rom) : s.LevelsSampled := fun _ hstep => absurd h hstep

theorem State.LevelsSampled.of_stopped (h : s.clocked = false) : s.LevelsSampled := fun hclock => by simp [h] at hclock

theorem idle_sampled (hs : s.LevelsSampled) : (idle s).LevelsSampled := by
  unfold idle
  dsimp only
  split
  · exact settle_sampled _
  · exact tick_sampled hs

theorem powerGoodOp_sampled (hs : s.LevelsSampled) : (powerGoodOp s).LevelsSampled := by
  cases hp : s.boot.powered with
  | true => rw [powerGoodOp, if_pos hp]; exact hs
  | false => exact .of_rom (powerGoodOp_started hp).2.rom

theorem coldBallOp_sampled (hs : s.LevelsSampled) (ns : Nat) : (coldBallOp ns s).LevelsSampled := by
  unfold coldBallOp
  split
  · exact .of_rom (cold_started s 3 s.nextIncarn).rom
  · exact hs

theorem powerDownOp_unpowered (hp : s.boot.powered = false) (loss : PowerLoss) : powerDownOp loss s = s := by
  rw [powerDownOp, if_pos (by simp [hp])]

/-- The store contents are lost, and without VSTBY what standby logic holds (R470, R471). -/
theorem powerDownOp_powered (hp : s.boot.powered = true) (loss : PowerLoss) : powerDownOp loss s =
    { s with store := { }, boot := { s.boot with powered := false, standby := if loss.vstby then s.boot.standby else none },
             ctl := { s.ctl with regs := if loss.vstby then s.ctl.regs else s.ctl.regs.del Reg.ppPpSticky } } := by
  rw [powerDownOp, if_neg (by simp [hp])]
  cases loss.vstby <;> rfl

theorem powerDownOp_sampled (hs : s.LevelsSampled) (loss : PowerLoss) : (powerDownOp loss s).LevelsSampled := by
  cases hp : s.boot.powered with
  | true => rw [powerDownOp_powered hp]; exact .of_stopped rfl
  | false => rw [powerDownOp_unpowered hp]; exact hs

theorem act_sampled {f : State → State} {t : State} (hs : s.LevelsSampled) (h : act s f = .next t) : t.LevelsSampled := by
  cases hclock : s.clocked with
  | true => rw [act_clocked hclock] at h; cases h; exact settle_sampled _
  | false => rw [act_stopped hclock] at h; cases h; exact hs

theorem execPowerDown_sampled {loss : PowerLoss} {t : State} (hs : s.LevelsSampled) (h : execPowerDown loss s = .next t) :
    t.LevelsSampled := by
  unfold execPowerDown at h
  split at h
  · cases h
  · cases h; exact powerDownOp_sampled hs loss

/-- The commands that need no clock are those of the power logic. -/
theorem needsNoClock_iff {c : Instr} : needsNoClock c = true ↔
    c = .powerGood ∨ (∃ ns, c = .coldResetN ns) ∨ ∃ loss, c = .powerDown loss := by
  constructor
  · intro h
    unfold needsNoClock at h
    split at h
    · exact .inl rfl
    · exact .inr (.inl ⟨_, rfl⟩)
    · exact .inr (.inr ⟨_, rfl⟩)
    · cases h
  · rintro (rfl | ⟨_, rfl⟩ | ⟨_, rfl⟩) <;> rfl

/-- A command under the clock ends with settle; of the others two begin a reset, whose boot ROM samples nothing, and one stops
the clock. -/
theorem exec_sampled {c : Instr} {t : State} (hs : s.LevelsSampled) (h : exec c s = .next t) : t.LevelsSampled := by
  cases hc : needsNoClock c with
  | false =>
    obtain ⟨f, hf⟩ := exec_act c s hc
    exact act_sampled hs (hf ▸ h)
  | true =>
    obtain rfl | ⟨ns, rfl⟩ | ⟨loss, rfl⟩ := needsNoClock_iff.mp hc
    · cases h; exact powerGoodOp_sampled hs
    · cases h; exact coldBallOp_sampled hs ns
    · exact execPowerDown_sampled hs h

/-- Settles O5: a step is a command on the state with the rest of the queue, whose levels are those of the state, or a cycle. -/
theorem stepsKeepLevelsSampled : Obligations.StepsKeepLevelsSampled := by
  intro s t hs h
  unfold step at h
  split at h
  · cases h; exact idle_sampled hs
  · next c rest _ =>
    have hrest : ({ s with pending := rest } : State).LevelsSampled := hs
    exact exec_sampled hrest h

end Sys2Proof.Machine
end

section
/-! PROOFS. The boot ROM's choice of an image (R411, R413), and losses of clock and power (R427, R465, R470). -/

namespace Sys2Proof.Machine

variable {s : State}

/-! ### Image checks read the flash and the fuses alone (R411) -/

theorem Boot.slotRead_congr {b c : Boot} (hflash : b.flash = c.flash) : b.slotRead = c.slotRead := by
  funext slot off n
  induction n generalizing off with
  | zero => rfl
  | succ n ih => rw [Boot.slotRead, Boot.slotRead, Boot.flashByte, Boot.flashByte, hflash, ih]

theorem Boot.check_congr {b c : Boot} (hflash : b.flash = c.flash) (hfuses : b.fuseSvn = c.fuseSvn) (slot : Nat) :
    b.check slot = c.check slot := by
  unfold Boot.check Boot.headerOk Boot.field
  rw [Boot.slotRead_congr hflash, hfuses]

theorem Boot.image_congr {b c : Boot} (hflash : b.flash = c.flash) (slot : Nat) : b.image slot = c.image slot := by
  unfold Boot.image Boot.field
  rw [Boot.slotRead_congr hflash]

theorem Boot.setErr_flash (b : Boot) (slot e : Nat) : (b.setErr slot e).flash = b.flash := by
  unfold Boot.setErr; split <;> rfl

theorem Boot.setErr_fuseSvn (b : Boot) (slot e : Nat) : (b.setErr slot e).fuseSvn = b.fuseSvn := by
  unfold Boot.setErr; split <;> rfl

/-! ### BOOT_IMAGE_VERIFIED (R411, R413) -/

/-- The boot ROM starts the image of a slot; fallback says that the slot choice named the other one. -/
def Boot.start (b : Boot) (slot : Nat) (fallback : Bool) : Boot :=
  { b with step := .command, recovery := false, slot := slot, fallback := fallback, running := some (b.image slot) }

/-- The error codes of a first slot whose check has been made. -/
def Boot.checkedFirst (b : Boot) : Boot := ({ b with errA := 0, errB := 0 } : Boot).setErr b.choice (b.check b.choice)

theorem Boot.checkedFirst_flash (b : Boot) : b.checkedFirst.flash = b.flash := Boot.setErr_flash _ _ _

theorem Boot.checkedFirst_check (b : Boot) (slot : Nat) : b.checkedFirst.check slot = b.check slot :=
  Boot.check_congr b.checkedFirst_flash (Boot.setErr_fuseSvn _ _ _) slot

/-- The image that starts is the one in the flash, whatever has been noted of the checks. -/
theorem Boot.start_congr {b c : Boot} (hflash : b.flash = c.flash) (slot : Nat) (fallback : Bool) : b.start slot fallback =
    { b with step := .command, recovery := false, slot := slot, fallback := fallback, running := some (c.image slot) } := by
  rw [Boot.start, Boot.image_congr hflash]

theorem Boot.choice_lt (b : Boot) : b.choice < 2 := Nat.mod_lt _ (by decide)

/-- The boot ROM with the outcome of the slot choice's check, and that of the other slot's check, made. -/
theorem bootImageVerifiedOp_rom (hrom : s.boot.step = .rom) : bootImageVerifiedOp s =
    let first := s.boot.choice
    let u : State := { s with boot := s.boot.checkedFirst }
    let v : State := { s with boot := s.boot.checkedFirst.setErr (1 - first) (s.boot.check (1 - first)) }
    if s.boot.check first = 0 then (u.onBoot fun b => b.start first (first != first)).comeUp [0, 1]
    else if s.boot.check (1 - first) = 0 then
      ((v.onBoot fun b => b.start (1 - first) (1 - first != first)).raise 5).comeUp [0, 1]
    else (v.onBoot fun b => { b with step := .recovery, recovery := true }).comeUp [0, 1] := by
  dsimp only
  rw [← s.boot.checkedFirst_check (1 - s.boot.choice), bootImageVerifiedOp, if_neg (by simp [hrom])]
  rfl

theorem bootImageVerifiedOp_later (h : s.boot.step ≠ .rom) : bootImageVerifiedOp s = s := if_pos (by simpa using h)

/-- Settles O12: the outcome of each slot's check decides, and setting the error codes changes neither check nor image. -/
theorem bootRomChoosesAnImage : Obligations.BootRomChoosesAnImage := by
  intro s hs b first cleared
  refine ⟨fun hrom => exec_act_eq rfl hs (bootImageVerifiedOp_later hrom), fun hrom hok => exec_act_eq rfl hs ?_,
    fun hrom hbad hok => exec_act_eq rfl hs ?_, fun hrom hbad hbad' => exec_act_eq rfl hs ?_⟩
  · rw [bootImageVerifiedOp_rom hrom]
    dsimp only
    rw [if_pos hok, bne_self_eq_false]
    change State.comeUp { s with boot := b.checkedFirst.start first false } _ = _
    rw [Boot.start_congr b.checkedFirst_flash, Boot.checkedFirst, hok]
  · have hother : (1 - first != first) = true := by
      have hlt : first < 2 := b.choice_lt
      rw [bne_iff_ne]; omega
    rw [bootImageVerifiedOp_rom hrom]
    dsimp only
    rw [if_neg hbad, if_pos hok, hother, hok]
    change State.comeUp (State.raise { s with boot := (b.checkedFirst.setErr (1 - first) 0).start (1 - first) true } 5) _ = _
    rw [Boot.start_congr ((Boot.setErr_flash _ _ _).trans b.checkedFirst_flash)]
    rfl
  · rw [bootImageVerifiedOp_rom hrom]
    dsimp only
    rw [if_neg hbad, if_neg hbad']
    rfl

/-! ### Losses of clock and power (R427, R465, R470) -/

theorem refclkLostOp_long {ns : Nat} (h : 10000 < ns) : refclkLostOp ns s =
    (s.setReg Reg.ppPpSticky (s.reg Reg.ppPpSticky ||| 1)).onBoot fun b => { b with refclk := false } := if_neg (by omega)

theorem refclkLostOp_short {ns : Nat} (h : ns ≤ 10000) : refclkLostOp ns s = s := if_pos h

/-- Settles O11: each row by the equation of its operation; an overvoltage is the model's fault. -/
theorem clockAndPowerLoss : Obligations.ClockAndPowerLoss := by
  intro s
  refine ⟨fun ns hs hlong => exec_act_eq rfl hs (refclkLostOp_long hlong),
    fun ns hs hshort => exec_act_eq rfl hs (refclkLostOp_short hshort),
    fun loss hp hv => ?_, fun loss hp => ?_, fun loss hp hv => ?_,
    fun key hs hkey => exec_act_eq (f := fun s => if key = 0x7E57 then s else s.refuse) rfl hs (if_neg hkey)⟩
  · change execPowerDown loss s = _
    rw [execPowerDown, if_neg (by simp [hv]), powerDownOp_powered hp]
  · change execPowerDown loss s = _
    rw [execPowerDown, if_neg (by simp [hp]), powerDownOp_unpowered hp]
  · change execPowerDown loss s = _
    rw [execPowerDown, if_pos (by simp [hp, hv])]

end Sys2Proof.Machine
end

section
/-! PROOFS. Firmware updates (R414, R415): what FW_CMD comes to during a restart, on the running slot and on the other one. -/

namespace Sys2Proof.Machine

variable {s : State}

/-- Each firmware row is FW_CMD with its command. -/
theorem exec_fwRow (hs : s.clocked = true) : ∀ c ∈ [Instr.fwErase, .fwWrite, .fwVerify, .fwActivate],
    ∃ cmd, exec c s = .next (settle (fwCmdOp (some cmd) s).2) := by
  have hrow (cmd : FwCmd) : act s (fun s => (fwCmdOp (some cmd) s).2) = .next (settle (fwCmdOp (some cmd) s).2) := act_clocked hs _
  simp only [List.forall_mem_cons]
  exact ⟨⟨.erase, hrow .erase⟩, ⟨.write, hrow .write⟩, ⟨.verify, hrow .verify⟩, ⟨.activate, hrow .activate⟩,
    fun _ h => absurd h List.not_mem_nil⟩

theorem fwCmdOp_restarting (h : s.boot.restarting = true) (cmd : Option FwCmd) : fwCmdOp cmd s = (.busy, s) := if_pos h

/-- An outcome of FW_CMD stands in FW_RESULT, and one that is not OK raises source 5 (Table 15-2). -/
def State.fwOutcome (s : State) (st : Status) (e : Nat) : State :=
  (s.setReg Reg.mgFwResult (st.code + e * 256)).when (st != .ok) fun s => s.raise 5

section
variable (h : s.boot.restarting = false)
include h

theorem fwCmdOp_running (hrun : s.boot.running.isSome = true) (hslot : s.boot.slot = s.fwSlot) (cmd : FwCmd) :
    (fwCmdOp (some cmd) s).2 = s.fwOutcome .unsupported 0 := by
  simp only [fwCmdOp, h, hrun, hslot, decide_true, Bool.and_self, if_true, Bool.false_eq_true, if_false]
  rfl

theorem fwCmdOp_other (hother : s.boot.running.isSome = false ∨ s.boot.slot ≠ s.fwSlot) (cmd : FwCmd) {st : Status} {e : Nat}
    {t : State} (hrun : s.fwRun cmd s.fwSlot = (st, e, t)) : (fwCmdOp (some cmd) s).2 = t.fwOutcome st e := by
  have hfree : (s.boot.running.isSome && decide (s.boot.slot = s.fwSlot)) = false := by
    rw [Bool.and_eq_false_iff, decide_eq_false_iff_not]; exact hother
  simp only [fwCmdOp, h, hfree, hrun, Bool.false_eq_true, if_false]
  rfl

end

/-- A slot's earlier VERIFY is taken back. -/
def Boot.soiled (b : Boot) (slot : Nat) : Boot := { b with verified := if b.verified = some slot then none else b.verified }

theorem State.fwRun_write_aligned {slot : Nat} (h : s.reg Reg.mgFwOffset % 2 ^ 24 % 1024 = 0) : s.fwRun .write slot = (.ok, 0,
    s.onBoot fun b => (b.flashWrite (slot * slotBytes + s.reg Reg.mgFwOffset % 2 ^ 24) s.fwWindow).soiled slot) :=
  if_neg (by simpa only [bne_iff_ne, not_not] using h)

theorem State.fwRun_write_unaligned {slot : Nat} (h : s.reg Reg.mgFwOffset % 2 ^ 24 % 1024 ≠ 0) :
    s.fwRun .write slot = (.unsupported, 0, s) := if_pos (by simpa only [bne_iff_ne] using h)

theorem State.fwRun_verify_passes {slot : Nat} (h : s.boot.check slot = 0) : s.fwRun .verify slot = (.ok, 0,
    s.onBoot fun b => { b with verified := some slot }) := if_pos h

theorem State.fwRun_verify_fails {slot : Nat} (h : s.boot.check slot ≠ 0) : s.fwRun .verify slot = (.check, s.boot.check slot,
    s.onBoot fun b => b.soiled slot) := if_neg h

theorem State.fwRun_activate_verified {slot : Nat} (h : s.boot.verified = some slot) : s.fwRun .activate slot = (.ok, 0,
    s.onBoot fun b => b.flashWrite choiceAddr [BitVec.ofNat 8 slot]) := if_pos h

theorem State.fwRun_activate_unverified {slot : Nat} (h : s.boot.verified ≠ some slot) : s.fwRun .activate slot = (.check, 0, s) :=
  if_neg h

/-- Settles O22: each row is FW_CMD with its command, whose outcome on a slot that is not running is that of the command. -/
theorem firmwareCommands : Obligations.FirmwareCommands := by
  intro s hs slot off gone result fails
  refine ⟨fun h c hc => ?_, fun h => ⟨fun hrun hslot c hc => ?_, fun hother => ?_⟩⟩
  · obtain ⟨cmd, hcmd⟩ := exec_fwRow hs c hc
    rw [hcmd, fwCmdOp_restarting h]
  · obtain ⟨cmd, hcmd⟩ := exec_fwRow hs c hc
    exact hcmd.trans (by rw [fwCmdOp_running h hrun hslot]; rfl)
  · have hrow {c : Instr} {cmd : FwCmd} {st : Status} {e : Nat} {t : State}
        (hc : exec c s = act s fun s => (fwCmdOp (some cmd) s).2) (hrun : s.fwRun cmd slot = (st, e, t)) :
        exec c s = .next (settle (t.fwOutcome st e)) := exec_act_eq hc hs (fwCmdOp_other h hother cmd hrun)
    exact ⟨hrow (cmd := .erase) rfl rfl, fun hoff => hrow rfl (State.fwRun_write_aligned hoff),
      fun hoff => hrow rfl (State.fwRun_write_unaligned hoff),
      fun hcheck => hrow rfl (State.fwRun_verify_passes hcheck), fun hcheck => hrow rfl (State.fwRun_verify_fails hcheck),
      fun hv => hrow rfl (State.fwRun_activate_verified hv), fun hv => hrow rfl (State.fwRun_activate_unverified hv)⟩

end Sys2Proof.Machine
end

section
/-! PROOFS. The SPDM responder (R416 to R418): the order of the requests, each request's response, and the rows. -/

namespace Sys2Proof.Machine

variable {s : State} {req : List Byte}

/-! ### The order of the requests (R418) -/

/-- The phase in which a request of a code is answered. -/
def spdmPhase (code : Nat) : Nat := if code = 0xE1 then 1 else if code = 0xE3 then 2 else 3

/-- The response to a request in its phase. -/
def spdmRespond (code : Nat) (req : List Byte) (s : State) : List Byte × State :=
  match code with
  | 0xE1 => spdmCapabilities req s
  | 0xE3 => spdmAlgorithms req s
  | 0x81 => spdmDigests req s
  | 0x82 => spdmCertificate req s
  | 0x83 => spdmChallenge req s
  | _ => spdmMeasurements req s

theorem spdmAnswer_version (hlen : spdmMin 0x84 ≤ req.length) : spdmAnswer 0x84 req s = spdmVersion req s := by
  unfold spdmAnswer
  rw [if_neg (by decide), if_neg (by omega), if_pos rfl]

section
variable {code : Nat} (hcode : spdmCodes.contains code = true) (hversion : code ≠ 0x84) (hlen : spdmMin code ≤ req.length)
include hcode hversion hlen

theorem spdmAnswer_unexpected (hphase : s.boot.spdm.phase ≠ spdmPhase code) : spdmAnswer code req s = (spdmError 0x04 0, s) := by
  have hwants : (s.boot.spdm.phase != spdmPhase code) = true := bne_iff_ne.mpr hphase
  unfold spdmAnswer
  rw [if_neg (by simp only [hcode]; decide), if_neg (by omega), if_neg hversion]
  exact if_pos hwants

theorem spdmAnswer_inPhase (hphase : s.boot.spdm.phase = spdmPhase code) (hver : leField req 0 1 = 0x12) :
    spdmAnswer code req s = spdmRespond code req s := by
  have hwants : ¬(s.boot.spdm.phase != spdmPhase code) = true := by simpa only [bne_iff_ne, not_not] using hphase
  unfold spdmAnswer
  rw [if_neg (by simp only [hcode]; decide), if_neg (by omega), if_neg hversion]
  exact (if_neg hwants).trans (if_neg (by simpa only [bne_iff_ne, not_not] using hver))

end

/-! ### The responses (Tables 14-3, 14-4) -/

/-- The state after an answer that draws free values and leaves an exchange. -/
def State.spdmAfter (s : State) (x : Spdm) (draws : Nat) : State :=
  { s with boot := { s.boot with spdm := x }, free := s.free + draws }

/-- Measurements do not depend on what has been drawn. -/
theorem State.measBlock_drawn (s : State) (n : Nat) : ({ s with free := n } : State).measBlock = s.measBlock := rfl

theorem State.measAll_drawn (s : State) (n : Nat) : ({ s with free := n } : State).measAll = s.measAll := by
  simp only [State.measAll, State.measBlock_drawn]

theorem spdmVersion_eq : spdmVersion req s =
    let r : List Byte := [0x10#8, 0x04#8, 0#8, 0#8, 0#8, 1#8, 0x00#8, 0x12#8]
    (r, s.spdmAfter { phase := 1, vca := req ++ r } 0) := rfl

theorem spdmCapabilities_eq : spdmCapabilities req s =
    let r := spdmHead 0x61 0 0 ++ [0#8, 20#8, 0#8, 0#8] ++ leBytes 4 0x16 ++ leBytes 4 1024 ++ leBytes 4 1024
    (r, s.spdmAfter { s.boot.spdm with phase := 2, vca := s.boot.spdm.vca ++ req ++ r } 0) := rfl

theorem spdmAlgorithms_offered (h : leField req 8 4 &&& 8 ≠ 0 ∨ leField req 12 4 &&& 1 ≠ 0) : spdmAlgorithms req s =
    let r := spdmHead 0x63 0 0 ++ leBytes 2 36 ++ [1#8, 0#8] ++ leBytes 4 2 ++ leBytes 4 (leField req 8 4 &&& 8) ++
      leBytes 4 (leField req 12 4 &&& 1) ++ List.replicate 16 0#8
    (r, s.spdmAfter { s.boot.spdm with phase := 3, vca := s.boot.spdm.vca ++ req ++ r } 0) := by
  refine if_neg ?_
  rw [Bool.and_eq_true, decide_eq_true_eq, decide_eq_true_eq]
  tauto

theorem spdmAlgorithms_none (hasym : leField req 8 4 &&& 8 = 0) (hhash : leField req 12 4 &&& 1 = 0) :
    spdmAlgorithms req s = (spdmError 0x01 0, s) := if_pos (by simp only [hasym, hhash, decide_true, Bool.and_self])

theorem spdmDigests_eq : spdmDigests req s =
    let r := spdmHead 0x01 0 1 ++ chainDigest
    (r, s.spdmAfter { s.boot.spdm with certs := s.boot.spdm.certs ++ req ++ r } 0) := rfl

theorem spdmCertificate_portion (hslot : leField req 2 1 % 16 = 0) (hoff : leField req 4 2 < Config.certChain.length) :
    spdmCertificate req s =
    let off := leField req 4 2
    let n := min (min (leField req 6 2) 1016) (Config.certChain.length - off)
    let r := spdmHead 0x02 0 0 ++ leBytes 2 n ++ leBytes 2 (Config.certChain.length - off - n) ++ slice Config.certChain off n
    (r, s.spdmAfter { s.boot.spdm with certs := s.boot.spdm.certs ++ req ++ r } 0) := by
  refine if_neg ?_
  rw [Bool.or_eq_true, bne_iff_ne, decide_eq_true_eq]
  omega

/-- What the signature of a signed answer is, when its nonce has been drawn. -/
def State.spdmSigned (s : State) (context : String) (transcript : List Byte) : List Byte :=
  slice (Config.identitySign (Config.freeValue (s.free + 1)) (signContext (textBytes context) ++ sha256 transcript)) 0 384

theorem spdmChallenge_slot0 (hslot : leField req 2 1 = 0) (hkind : leField req 3 1 = 0 ∨ leField req 3 1 = 0xFF) :
    spdmChallenge req s =
    let sum := if leField req 3 1 = 0 then [] else sha256 s.measAll
    let r := spdmHead 0x03 0 1 ++ chainDigest ++ leBytes 32 (Config.freeValue s.free) ++ sum ++ leBytes 2 0
    let x := s.boot.spdm
    (r ++ s.spdmSigned "responder-challenge_auth signing" (x.vca ++ x.certs ++ req ++ r), s.spdmAfter { x with certs := [] } 2) := by
  rw [← s.measAll_drawn (s.free + 1)]
  refine if_neg ?_
  simp only [Bool.or_eq_true, Bool.and_eq_true, bne_iff_ne]
  tauto

/-- The answer to GET_MEASUREMENTS, before a signature. -/
def State.measAnswer (s : State) (req : List Byte) : List Byte :=
  let i := leField req 3 1
  let blocks := if i = 0 then [] else if i = 0xFF then s.measAll else s.measBlock i
  spdmHead 0x60 (if i = 0 then 5 else 0) 0 ++ leBytes 1 (if i = 0 then 0 else if i = 0xFF then 5 else 1) ++
    leBytes 3 blocks.length ++ blocks ++ leBytes 32 (Config.freeValue s.free) ++ leBytes 2 0

section
variable (hindex : leField req 3 1 ≤ 5 ∨ leField req 3 1 = 0xFF)
include hindex

theorem spdmMeasurements_plain (hplain : bit (leField req 2 1) 0 = false) : spdmMeasurements req s =
    (s.measAnswer req, s.spdmAfter { s.boot.spdm with meas := s.boot.spdm.meas ++ req ++ s.measAnswer req } 1) := by
  unfold State.measAnswer
  rw [← s.measAll_drawn (s.free + 1), ← s.measBlock_drawn (s.free + 1)]
  unfold spdmMeasurements
  rw [hplain, if_neg]
  · rfl
  · simp only [Bool.false_and, Bool.or_false, Bool.and_eq_true, decide_eq_true_eq, bne_iff_ne]
    omega

theorem spdmMeasurements_signed (hsign : bit (leField req 2 1) 0 = true) (hlen : 37 ≤ req.length) : spdmMeasurements req s =
    let x := s.boot.spdm
    (s.measAnswer req ++ s.spdmSigned "responder-measurements signing" (x.vca ++ x.meas ++ req ++ s.measAnswer req),
      s.spdmAfter { x with meas := [] } 2) := by
  unfold State.measAnswer
  rw [← s.measAll_drawn (s.free + 1), ← s.measBlock_drawn (s.free + 1)]
  unfold spdmMeasurements
  rw [hsign, if_neg]
  · rfl
  · simp only [Bool.true_and, Bool.or_eq_true, Bool.and_eq_true, decide_eq_true_eq, bne_iff_ne]
    omega

end

/-! ### The rows (R417) -/

theorem State.reg_spdmPut_stat (u : State) (r : List Byte) : (u.spdmPut r).reg Reg.mgSpdmStat = r.length * 65536 % 2 ^ 64 := by
  rw [State.spdmPut, State.reg_setReg, if_pos rfl]

/-- The request as the row of a code takes it from SPDM_BUF. -/
def State.spdmReq (s : State) (code : Nat) : List Byte := s.spdmRequest.set 1 (BitVec.ofNat 8 code)

section
variable (hrest : s.boot.restarting = false)
include hrest

theorem spdmRow_answers {code : Nat} {r : List Byte} {u : State} (h : spdmAnswer code (s.spdmReq code) s = (r, u)) :
    spdmRow code s = u.spdmPut r := by
  rw [spdmRow, if_neg (by simp [hrest])]
  change (spdmAnswer code (s.spdmReq code) s).2.spdmPut (spdmAnswer code (s.spdmReq code) s).1 = _
  rw [h]

theorem spdmUnsupportedOp_eq : spdmUnsupportedOp s = s.spdmPut (spdmError 0x07 (leField s.spdmRequest 1 1)) :=
  if_neg (by simp [hrest])

end

/-- Settles O23: each row puts the answer to its request, which its phase and its fields determine. -/
theorem spdmResponder : Obligations.SpdmResponder := by
  intro s hs hrest x req fits answers nonce sign
  have row {c : Instr} {code : Nat} {r : List Byte} {u : State} (hc : exec c s = act s (spdmRow code))
      (h : spdmAnswer code (s.spdmReq code) s = (r, u)) : exec c s = .next (settle (u.spdmPut r)) :=
    exec_act_eq hc hs (spdmRow_answers hrest h)
  have inPhase {c : Instr} (code : Nat) {r : List Byte} {u : State} (hc : exec c s = act s (spdmRow code))
      (hcode : spdmCodes.contains code = true) (hversion : code ≠ 0x84) (hphase : x.phase = spdmPhase code) (hfits : fits code)
      (h : spdmRespond code (s.spdmReq code) s = (r, u)) : exec c s = .next (settle (u.spdmPut r)) :=
    row hc ((spdmAnswer_inPhase hcode hversion hfits.1 hphase hfits.2).trans h)
  have early {code : Nat} (hcode : spdmCodes.contains code = true) (hversion : code ≠ 0x84) (hlen : spdmMin code ≤ (req code).length)
      (hphase : x.phase ≠ spdmPhase code) : spdmAnswer code (s.spdmReq code) s = (spdmError 0x04 0, s) :=
    spdmAnswer_unexpected hcode hversion hlen hphase
  refine ⟨fun hlen => row rfl ((spdmAnswer_version hlen).trans spdmVersion_eq),
    fun hphase hfits => inPhase 0xE1 rfl rfl (by decide) hphase hfits spdmCapabilities_eq,
    fun hphase hfits => ⟨fun h => ?_, fun hasym hhash => ?_⟩, fun hphase => ⟨fun hfits => ?_, fun hfits hslot hoff => ?_,
      fun hfits hslot hkind => ?_, fun hfits hindex => ⟨fun hplain => ?_, fun hsign hlen => ?_⟩⟩, ?_,
    exec_act_eq rfl hs (spdmUnsupportedOp_eq hrest), State.reg_spdmPut_stat⟩
  · exact inPhase 0xE3 rfl rfl (by decide) hphase hfits (spdmAlgorithms_offered h)
  · exact inPhase 0xE3 rfl rfl (by decide) hphase hfits (spdmAlgorithms_none hasym hhash)
  · exact inPhase 0x81 rfl rfl (by decide) hphase hfits spdmDigests_eq
  · exact inPhase 0x82 rfl rfl (by decide) hphase hfits (spdmCertificate_portion hslot hoff)
  · exact inPhase 0x83 rfl rfl (by decide) hphase hfits (spdmChallenge_slot0 hslot hkind)
  · exact inPhase 0xE0 rfl rfl (by decide) hphase hfits (spdmMeasurements_plain hindex hplain)
  · exact inPhase 0xE0 rfl rfl (by decide) hphase hfits (spdmMeasurements_signed hindex hsign hlen)
  · simp only [List.forall_mem_cons]
    exact ⟨fun hlen hphase => row rfl (early rfl (by decide) hlen hphase), fun hlen hphase => row rfl (early rfl (by decide) hlen hphase),
      fun hlen hphase => row rfl (early rfl (by decide) hlen hphase), fun hlen hphase => row rfl (early rfl (by decide) hlen hphase),
      fun hlen hphase => row rfl (early rfl (by decide) hlen hphase), fun hlen hphase => row rfl (early rfl (by decide) hlen hphase),
      fun _ h => absurd h List.not_mem_nil⟩

end Sys2Proof.Machine
end

section
/-! PROOFS. The event controller: EV_DONE, host writes of its registers, and the beacon timers. -/

namespace Sys2Proof.Machine

variable {s : State} {src : Nat}

/-! ### Sampling one source again (R446) -/

theorem State.assertLevel_only (s : State) (i : Nat) : s.assertLevel i =
    { s with ev := { s.ev with pend := (s.assertLevel i).ev.pend, args := (s.assertLevel i).ev.args } } := by
  unfold State.assertLevel State.onEv Events.pending
  dsimp only
  split
  · rfl
  · split <;> rfl

theorem State.assertLevel_masked (h : s.ev.mask.getLsbD src = true) : s.assertLevel src = s := by
  rw [State.assertLevel, State.onEv, Events.pending, if_pos (show s.ev.masked src = true from h)]

theorem State.resample_holds (hlevel : isLevel src = true) (hcond : s.levelCond src = true) (hvalid : s.sourceValid src = true) :
    s.resample src = s.assertLevel src := if_pos (by rw [hlevel, hcond, hvalid]; rfl)

/-- A source is left as it is where it is no level, its condition does not hold, it does not exist, or it is masked. -/
theorem State.resample_idle
    (h : ¬(isLevel src = true ∧ s.levelCond src = true ∧ s.sourceValid src = true ∧ s.ev.mask.getLsbD src = false)) :
    s.resample src = s := by
  unfold State.resample
  split
  · next hholds =>
    rw [Bool.and_eq_true, Bool.and_eq_true] at hholds
    obtain ⟨⟨hlevel, hcond⟩, hvalid⟩ := hholds
    refine State.assertLevel_masked ?_
    rw [← Bool.not_eq_false]
    exact fun hmask => h ⟨hlevel, hcond, hvalid, hmask⟩
  · rfl

/-! ### EV_DONE (R443, R446) -/

/-- EV_DONE of an outstanding source ends its record, and of any other is counted. -/
def State.doneTaken (s : State) (src : Nat) : State :=
  if s.ev.out.getLsbD src = true then
    { s with ev := { s.ev with out := clearBit s.ev.out src, pend := clearBit s.ev.pend src, args := s.ev.args.del src } }
  else s.bump Reg.ecEvDoneIdle

/-- The state in which EV_DONE samples its source again. -/
def State.recordEnded (s : State) (src : Nat) : State :=
  if src = 595 then { s.doneTaken src with ev := { (s.doneTaken src).ev with ringRaised := false } } else s.doneTaken src

theorem evDoneOp_eq (s : State) (src : Nat) : evDoneOp src s = (s.recordEnded src).resample src := by
  unfold evDoneOp State.recordEnded State.when
  simp only [decide_eq_true_eq]
  rfl

theorem State.doneTaken_bits (s : State) (src : Nat) :
    (s.doneTaken src).ev.out = (if s.ev.out.getLsbD src = true then clearBit s.ev.out src else s.ev.out) ∧
      (s.doneTaken src).ev.pend = if s.ev.out.getLsbD src = true then clearBit s.ev.pend src else s.ev.pend := by
  unfold State.doneTaken
  split <;> exact ⟨rfl, rfl⟩

theorem State.recordEnded_bits (s : State) (src : Nat) :
    (s.recordEnded src).ev.out = (s.doneTaken src).ev.out ∧ (s.recordEnded src).ev.pend = (s.doneTaken src).ev.pend := by
  unfold State.recordEnded
  split <;> exact ⟨rfl, rfl⟩

/-- Settles O25: the bits that EV_DONE clears, and one more sample of its source. -/
theorem doneEndsRecord : Obligations.DoneEndsRecord := by
  intro s src hs hsrc e t u
  have hu : u = s.recordEnded src := rfl
  clear_value u
  subst hu
  obtain ⟨hout, hpend⟩ := s.recordEnded_bits src
  obtain ⟨hout', hpend'⟩ := s.doneTaken_bits src
  rw [hout'] at hout
  rw [hpend'] at hpend
  have hrow : exec (.evDone src) s = .next (settle ((s.recordEnded src).resample src)) :=
    exec_act_eq rfl hs (by rw [Nat.mod_eq_of_lt hsrc, evDoneOp_eq])
  refine ⟨⟨fun ho => ?_, fun j hj hne => ?_⟩, fun ⟨hlevel, hcond, hvalid, hmask⟩ => ?_, fun h => ?_⟩
  · rw [hout, hpend, if_pos ho, if_pos ho, clearBit_get _ _ _ hsrc, clearBit_get _ _ _ hsrc]
    simp
  · rw [hout, hpend]
    split
    · rw [clearBit_get _ _ _ hj, clearBit_get _ _ _ hj]
      simp [hne.symm]
    · exact ⟨rfl, rfl⟩
  · refine ⟨_, hrow, ?_⟩
    rw [State.resample_holds hlevel hcond hvalid]
    refine ⟨?_, State.assertLevel_only _ src⟩
    rw [assert_pend _ _ _ hsrc, hmask]
    simp
  · rw [hrow, State.resample_idle h]

end Sys2Proof.Machine
end

section
/-! PROOFS. Host writes of the event registers (R440, R441, R447, R460) and the beacon timers (R444). -/

namespace Sys2Proof.Machine

variable {s : State} {w : Nat}

/-! ### Words of a vector of sources -/

theorem putWord_get (v : BitVec 1024) (w : Nat) (y : BitVec 32) {j : Nat} (hj : j < 1024) :
    (putWord v w y).getLsbD j = if j / 32 = w then y.getLsbD (j % 32) else v.getLsbD j := by
  simp only [putWord, BitVec.getLsbD_or, BitVec.getLsbD_and, BitVec.getLsbD_not, BitVec.getLsbD_shiftLeft, BitVec.getLsbD_setWidth,
    BitVec.getLsbD_allOnes, hj, decide_true, Bool.true_and]
  split
  · next hw =>
    have hlow : ¬j < 32 * w := by omega
    have hplace : j - 32 * w = j % 32 := by omega
    have hbit : j % 32 < 32 := Nat.mod_lt _ (by decide)
    have hwide : j % 32 < 1024 := by omega
    simp [hlow, hplace, hbit, hwide]
  · next hw =>
    by_cases hlow : j < 32 * w
    · simp [hlow]
    · have hhigh : 32 ≤ j - 32 * w := by omega
      simp [hlow, Nat.not_lt.mpr hhigh, BitVec.getLsbD_of_ge _ _ hhigh]

/-! ### EV_MASK and EV_PEND (R447) -/

theorem evMaskOp_word (hw : w < 32) (v : BitVec 32) : evMaskOp w v s =
    State.resampleWord { s with ev := { s.ev with mask := putWord s.ev.mask w (s.validWord w v) } } w := if_neg (by omega)

/-- Keeping the argument of a raise changes the arguments alone. -/
theorem keepArgs_only (l : List Nat) (g : State → Nat → Events → Tbl RaiseArgs) (s : State) :
    ∃ args, l.foldl (fun s i => s.onEv fun e => { e with args := g s i e }) s = { s with ev := { s.ev with args := args } } := by
  induction l generalizing s with
  | nil => exact ⟨s.ev.args, rfl⟩
  | cons i l ih => exact ih (s.onEv fun e => { e with args := g s i e })

/-- The bits that EV_PEND leaves, with the arguments of the sources that it clears dropped. -/
def State.pendWritten (s : State) (w : Nat) (v : BitVec 32) : State :=
  let gone := (List.range 32).filter fun i => !v.getLsbD i
  { s with ev := { s.ev with pend := putWord s.ev.pend w v, out := putWord s.ev.out w (wordOf s.ev.out w &&& v),
                             args := gone.foldl (fun a i => a.del (32 * w + i)) s.ev.args } }

theorem evPendOp_word (hw : w < 32) (v : BitVec 32) : ∃ args, evPendOp w v s = State.resampleWord
    { s with ev := { s.ev with pend := putWord s.ev.pend w (s.validWord w v),
                               out := putWord s.ev.out w (wordOf s.ev.out w &&& s.validWord w v), args := args } } w := by
  obtain ⟨args, hargs⟩ := keepArgs_only
    ((List.range 32).filter fun i => (s.validWord w v).getLsbD i && !(wordOf s.ev.pend w).getLsbD i)
    (fun u i e => e.args.put (32 * w + i) { time := u.now, soft := true, count := e.counts.getD (32 * w + i) 0 })
    (s.pendWritten w (s.validWord w v))
  refine ⟨args, ?_⟩
  rw [evPendOp, if_neg (by omega)]
  exact congrArg (State.resampleWord · w) hargs

/-! ### EV_HEAD and EV_RING_CTRL (R440, R441) -/

/-- Whether EV_HEAD frees places: a value from the old one to EV_TAIL. -/
def State.HeadFits (s : State) (h : Nat) : Prop :=
  h < s.ringPlaces ∧ (h + s.ringPlaces - s.reg Reg.ecEvHead) % s.ringPlaces ≤ s.ringUsed

theorem evHeadOp_frees {v : BitVec 32} (h : s.HeadFits (v.toNat % 2 ^ 19)) : evHeadOp v s =
    let u := s.setReg Reg.ecEvHead (v.toNat % 2 ^ 19)
    if u.ringUsed = 0 then u else u.beacon := by
  obtain ⟨hplace, hused⟩ := h
  rw [evHeadOp, if_neg (by rw [Bool.or_eq_true, decide_eq_true_eq, decide_eq_true_eq]; omega)]
  simp only [bne_iff_ne, ite_not]

theorem evHeadOp_refused {v : BitVec 32} (h : ¬s.HeadFits (v.toNat % 2 ^ 19)) : evHeadOp v s = s.refuse := by
  refine if_pos ?_
  rw [Bool.or_eq_true, decide_eq_true_eq, decide_eq_true_eq]
  unfold State.HeadFits at h
  omega

/-- Whether a ring of the size that EV_RING_CTRL gives stands aligned inside one extent of the near-tier window. -/
def State.RingFits (s : State) (size : Nat) : Prop :=
  size ≤ 12 ∧ s.reg Reg.ecEvRingBase % (4096 * 2 ^ size) = 0 ∧
    s.reg Reg.ecEvRingBase + 4096 * 2 ^ size ≤ s.nearPlaced * 2 ^ 30 ∧
    extentOf (s.reg Reg.ecEvRingBase) = extentOf (s.reg Reg.ecEvRingBase + 4096 * 2 ^ size - 1)

theorem State.ringFits_iff {size : Nat} : s.RingFits size ↔
    (decide (size ≤ 12) && decide (s.reg Reg.ecEvRingBase % (4096 * 2 ^ size) = 0) &&
      decide (s.reg Reg.ecEvRingBase + 4096 * 2 ^ size ≤ s.nearPlaced * 2 ^ 30) &&
      decide (extentOf (s.reg Reg.ecEvRingBase) = extentOf (s.reg Reg.ecEvRingBase + 4096 * 2 ^ size - 1))) = true := by
  simp only [State.RingFits, Bool.and_eq_true, decide_eq_true_eq, and_assoc]

theorem evRingCtrlOp_begins {v : BitVec 32} (h : s.RingFits (bits v.toNat 4 1)) : evRingCtrlOp v s =
    (((s.setReg Reg.ecEvRingCtrl (v.toNat % 32)).setReg Reg.ecEvHead 0).setReg Reg.ecEvTail 0).onEv fun e =>
      { e with ringBad := false, ringOk := v.toNat.testBit 0 } := if_pos (State.ringFits_iff.mp h)

theorem evRingCtrlOp_bad {v : BitVec 32} (h : ¬s.RingFits (bits v.toNat 4 1)) : evRingCtrlOp v s =
    s.onEv fun e => { e with ringBad := true } := if_neg (mt State.ringFits_iff.mpr h)

/-! ### Beacons (R444) -/

/-- Whether the ring has stayed non-empty for REPEAT_MS since the last beacon. -/
def State.RepeatDue (s : State) : Prop :=
  s.ringUsed ≠ 0 ∧ s.since s.ev.lastAny (bits (s.reg Reg.ecBeaconCtrl) 15 8 * 1000000) = true

theorem State.repeatDue_iff : s.RepeatDue ↔
    (s.ringUsed != 0 && s.since s.ev.lastAny (bits (s.reg Reg.ecBeaconCtrl) 15 8 * 1000000)) = true := by
  rw [State.RepeatDue, Bool.and_eq_true, bne_iff_ne]

theorem beaconRepeatOp_due (h : s.RepeatDue) : beaconRepeatOp s = s.beacon := if_pos (State.repeatDue_iff.mp h)

theorem beaconRepeatOp_early (h : ¬s.RepeatDue) : beaconRepeatOp s = s := if_neg (mt State.repeatDue_iff.mpr h)

theorem beaconDeferredOp_none (h : s.ev.beaconDue = []) : beaconDeferredOp s = s := by rw [beaconDeferredOp, h]; rfl

theorem beaconDeferredOp_one {n : Nat} (h : s.ev.beaconDue = [n]) : beaconDeferredOp s =
    if s.since (s.ev.lastBeacon.getD n 0) 1000 = true then s.beaconTo n else s := by rw [beaconDeferredOp, h]; rfl

/-- Settles O26: each row by its operation where its check holds and where it does not. -/
theorem eventWrites : Obligations.EventWrites := by
  intro s hs
  refine ⟨fun w v hw => exec_act_eq rfl hs (evMaskOp_word hw v), fun w v hw => ?_, fun w i hw hi v y => ⟨?_, fun j hj hne => ?_⟩,
    fun src hsrc => exec_act_eq rfl hs (by rw [Nat.mod_eq_of_lt hsrc]; rfl),
    fun v => ⟨fun h => exec_act_eq rfl hs (evHeadOp_frees h), fun h => exec_act_eq rfl hs (evHeadOp_refused h)⟩,
    fun v => ⟨fun h => exec_act_eq rfl hs (evRingCtrlOp_begins h), fun h => exec_act_eq rfl hs (evRingCtrlOp_bad h)⟩,
    ⟨fun h => exec_act_eq rfl hs (beaconRepeatOp_due h), fun h => exec_act_eq rfl hs (beaconRepeatOp_early h)⟩,
    fun h => exec_act_eq rfl hs (beaconDeferredOp_none h),
    fun n h => ⟨fun hlate => exec_act_eq rfl hs ?_, fun hsoon => exec_act_eq rfl hs ?_⟩⟩
  · obtain ⟨args, hpend⟩ := evPendOp_word (s := s) hw v
    exact ⟨_, exec_act_eq rfl hs hpend, rfl⟩
  · rw [putWord_get _ _ _ (by omega), if_pos (by omega)]
    congr 1
    omega
  · rw [putWord_get _ _ _ hj, if_neg hne]
  · rw [beaconDeferredOp_one h, if_pos hlate]
  · rw [beaconDeferredOp_one h, if_neg (by rw [hsoon]; decide)]

end Sys2Proof.Machine
end

section
/-! PROOFS. Histogram bins: the bin of a sample, and the one bin that a sample adds to (R451). -/

namespace Sys2Proof.Machine

variable {s : State} {m : Nat}

theorem binOf_le_31 (shift v : Nat) : binOf shift v ≤ 31 := by
  unfold binOf
  split
  · exact Nat.zero_le _
  · exact Nat.min_le_left _ _

/-- Bins are ordered by their lower ends. -/
theorem le_binOf_iff {shift v k : Nat} (hlow : 1 ≤ k) (hhigh : k ≤ 31) : k ≤ binOf shift v ↔ 2 ^ (shift + k - 1) ≤ v := by
  unfold binOf
  split
  · next hv =>
    have hpow : 2 ^ shift ≤ 2 ^ (shift + k - 1) := Nat.pow_le_pow_right (by decide) (by omega)
    omega
  · next hv =>
    have hne : v ≠ 0 := by have := Nat.two_pow_pos shift; omega
    have hlog : shift ≤ v.log2 := (Nat.le_log2 hne).mpr (by omega)
    rw [← Nat.le_log2 hne]
    omega

theorem binOf_eq_iff {shift v k : Nat} (hlow : 1 ≤ k) (hhigh : k ≤ 30) :
    binOf shift v = k ↔ 2 ^ (shift + k - 1) ≤ v ∧ v < 2 ^ (shift + k) := by
  have hnext : k + 1 ≤ binOf shift v ↔ 2 ^ (shift + k) ≤ v := le_binOf_iff (by omega) (by omega)
  rw [← le_binOf_iff hlow (by omega), ← Nat.not_le, ← hnext]
  omega

theorem binOf_eq_31_iff {shift v : Nat} : binOf shift v = 31 ↔ 2 ^ (shift + 30) ≤ v := by
  have hlast : 31 ≤ binOf shift v ↔ 2 ^ (shift + 30) ≤ v := le_binOf_iff (by decide) (by decide)
  have hmax := binOf_le_31 shift v
  rw [← hlast]
  omega

theorem binOf_eq_0_iff {shift v : Nat} : binOf shift v = 0 ↔ v < 2 ^ shift := by
  have hfirst : 1 ≤ binOf shift v ↔ 2 ^ shift ≤ v := le_binOf_iff (by decide) (by decide)
  rw [← Nat.not_le, ← hfirst]
  omega

/-- With a histogram unit held, a sample adds 1 to its bin. -/
theorem State.monSampled_bins {x : MonSample} {y : MonSlot} (hon : bit (s.reg (Reg.moMonCtrl (monPage m))) 1 = true)
    (hheld : s.monHolds m = true) : (s.monSampled m x y).now.bins =
      let b := binOf (bits (s.reg (Reg.moMonCtrl (monPage m))) 13 8) (x.value % 2 ^ 64)
      y.now.bins.put b (min (y.now.bins.getD b 0 + 1) (2 ^ 32 - 1)) := by
  simp only [State.monSampled, hon, hheld, Bool.and_self, if_true]
  rfl

/-- Settles O27: a sample adds to the bin that binOf gives, and bins are ordered by their lower ends. -/
theorem samplesFallInBins : Obligations.SamplesFallInBins := by
  refine ⟨?_, fun shift v k _ hlow hhigh => binOf_eq_iff hlow hhigh, fun shift v _ => ⟨binOf_eq_31_iff, binOf_eq_0_iff⟩, ?_, ?_, ?_⟩
  · intro s m x hs hrun hgo hfit hon hheld shift v b old
    refine ⟨_, exec_act_eq rfl hs (monSampleOp_takes hrun hgo hfit), ?_⟩
    rw [State.slot_onSlot, if_pos rfl, State.monSampled_bins hon hheld]
    exact ⟨(getD_put' old b b _ 0).trans (if_pos rfl), fun k hk => (getD_put' old b k _ 0).trans (if_neg hk.symm)⟩
  · exact (binOf_eq_iff (by decide) (by decide)).mpr (by decide)
  · exact binOf_eq_0_iff.mpr (by decide)
  · exact (binOf_eq_iff (by decide) (by decide)).mpr (by decide)

end Sys2Proof.Machine
end

section
/-! PROOFS. The drill unit (R454, R455): arming, the checks of a FIRE in their order, what starts, and what ends. -/

namespace Sys2Proof.Machine

variable {s : State} {key : Nat}

/-! ### Arming (R454) -/

/-- Whether a drill is armed now. -/
def State.DrillArmed (s : State) : Prop := s.drill.key ≠ 0 ∧ s.since s.drill.armedAt 100000000 = false

theorem State.drillArmed_iff : s.drillArmed = true ↔ s.DrillArmed := by
  simp only [State.drillArmed, State.DrillArmed, Bool.and_eq_true, bne_iff_ne, Bool.not_eq_true']

theorem drillArmOp_arms {k : BitVec 16} (h : k ≠ 0) : drillArmOp k s = s.onDrill fun d =>
    { d with key := k.toNat, armedAt := s.ran, st := if d.st = .active then .active else .armed } := if_neg h

theorem drillArmLapseOp_armed (h : s.DrillArmed) : drillArmLapseOp s = s := if_pos (State.drillArmed_iff.mpr h)

theorem drillArmLapseOp_lapsed (h : ¬s.DrillArmed) : drillArmLapseOp s = s.drillLapse := if_neg (mt State.drillArmed_iff.mp h)

/-! ### The checks of a FIRE, in their order (R454) -/

/-- The kind of the staged drill. -/
def State.drillKind (s : State) : Nat := bits (s.reg Reg.drDrillKind) 3 0

/-- A FIRE that is not armed, has another key, or fires an uncorrectable flaw at a line without DRILL_OK. -/
def State.FireDenied (s : State) (key : Nat) : Prop :=
  ¬s.DrillArmed ∨ key ≠ s.drill.key ∨ (s.drillKind = 2 ∧ ∃ l ∈ s.drillLines, (s.lineExtent l).drillOk = false)

/-- A FIRE while a drill is active, the unit does not serve, DRILL_GAP has not passed, or the fellow of a command port is down. -/
def State.FireBusy (s : State) : Prop :=
  s.drill.st = .active ∨ s.serves 0xA = false ∨
    (∃ t, s.drill.lastFire = some t ∧ s.since t (bits (s.reg Reg.drDrillGap) 9 0 * 1000000) = false) ∨
    (((s.drillKind = 3 ∨ s.drillKind = 4 ∨ s.drillKind = 5) ∧ (s.drillPage = 0x2000 ∨ s.drillPage = 0x2001)) ∧
      (s.portSt (0x2001 - s.drillPage)).up = false)

/-- A FIRE at a target that is absent or not drillable, or with parameters outside Table 15-7. -/
def State.FireBad (s : State) : Prop :=
  s.present s.drillPage = false ∨ (s.unitCap s.drillPage).testBit 3 = false ∨ s.drillFits = false

def State.fireDenied (s : State) (key : Nat) : Bool :=
  !s.drillArmed || key != s.drill.key || (s.drillKind = 2 && s.drillLines.any fun l => !(s.lineExtent l).drillOk)

def State.fireBusy (s : State) : Bool :=
  s.drill.st = .active || !s.serves 0xA ||
    (s.drill.lastFire.any fun t => !s.since t (bits (s.reg Reg.drDrillGap) 9 0 * 1000000)) ||
    (((s.drillKind = 3 || s.drillKind = 4 || s.drillKind = 5) && (s.drillPage = 0x2000 || s.drillPage = 0x2001)) &&
      !(s.portSt (0x2001 - s.drillPage)).up)

def State.fireBad (s : State) : Bool := !s.present s.drillPage || !bit (s.unitCap s.drillPage) 3 || !s.drillFits

theorem State.fireDenied_iff : s.fireDenied key = true ↔ s.FireDenied key := by
  simp only [State.fireDenied, State.FireDenied, ← State.drillArmed_iff, Bool.or_eq_true, Bool.and_eq_true, Bool.not_eq_true',
    Bool.not_eq_true, bne_iff_ne, decide_eq_true_eq, List.any_eq_true, or_assoc]

theorem State.fireBusy_iff : s.fireBusy = true ↔ s.FireBusy := by
  simp only [State.fireBusy, State.FireBusy, Bool.or_eq_true, Bool.and_eq_true, Bool.not_eq_true', decide_eq_true_eq,
    Option.any_eq_true, or_assoc]

theorem State.fireBad_iff : s.fireBad = true ↔ s.FireBad := by
  simp only [State.fireBad, State.FireBad, bit, Bool.or_eq_true, Bool.not_eq_true', or_assoc]

theorem State.drillCheck_eq (s : State) (key : Nat) : s.drillCheck key =
    if s.fireDenied key = true then .denied
    else if (s.boot.service != .full) = true then .held
    else if s.fireBusy = true then .busy
    else if s.fireBad = true then .unsupported
    else .ok := rfl

theorem State.drillCheck_denied (h : s.FireDenied key) : s.drillCheck key = .denied := by
  rw [State.drillCheck_eq, if_pos (State.fireDenied_iff.mpr h)]

section
variable (hkey : ¬s.FireDenied key)
include hkey

theorem State.drillCheck_held (hservice : s.boot.service ≠ .full) : s.drillCheck key = .held := by
  rw [State.drillCheck_eq, if_neg (mt State.fireDenied_iff.mp hkey), if_pos (bne_iff_ne.mpr hservice)]

variable (hservice : s.boot.service = .full)
include hservice

/-- In full service, what is not denied depends on the unit and the target. -/
theorem State.drillCheck_full : s.drillCheck key =
    if s.fireBusy = true then .busy else if s.fireBad = true then .unsupported else .ok := by
  rw [State.drillCheck_eq, if_neg (mt State.fireDenied_iff.mp hkey), if_neg (by rw [hservice]; decide)]

theorem State.drillCheck_busy (h : s.FireBusy) : s.drillCheck key = .busy := by
  rw [State.drillCheck_full hkey hservice, if_pos (State.fireBusy_iff.mpr h)]

variable (hbusy : ¬s.FireBusy)
include hbusy

theorem State.drillCheck_unsupported (h : s.FireBad) : s.drillCheck key = .unsupported := by
  rw [State.drillCheck_full hkey hservice, if_neg (mt State.fireBusy_iff.mp hbusy), if_pos (State.fireBad_iff.mpr h)]

theorem State.drillCheck_ok (h : ¬s.FireBad) : s.drillCheck key = .ok := by
  rw [State.drillCheck_full hkey hservice, if_neg (mt State.fireBusy_iff.mp hbusy), if_neg (mt State.fireBad_iff.mp h)]

end

/-! ### A refused and an accepted FIRE (R454, Table 15-7) -/

/-- A refusal takes RESULT, counts and raises source 594; another key lapses the arm. -/
def State.fireRefused (s : State) (key st : Nat) : State :=
  (State.bump { s with drill := { (if key ≠ s.drill.key then s.drillLapse.drill else s.drill) with result := st } }
    Reg.drDrillRefused).raise 594 { status := st, arg0 := s.drillKind }

theorem drillFireOp_refused {k : BitVec 16} {st : Status} (h : s.drillCheck k.toNat = st) (hst : st ≠ .ok) :
    drillFireOp k s = s.fireRefused k.toNat st.code := by
  rw [drillFireOp, h, if_neg hst, State.fireRefused]
  by_cases hother : k.toNat = s.drill.key
  · simp only [hother, bne_self_eq_false, State.when_false, ne_eq, not_true_eq_false, if_false]; rfl
  · simp only [bne_iff_ne.mpr hother, State.when_true, ne_eq, hother, not_false_eq_true, if_true]; rfl

theorem drillFireOp_fires {k : BitVec 16} (h : s.drillCheck k.toNat = .ok) : drillFireOp k s = s.drillStart := by
  rw [drillFireOp, h, if_pos rfl]

/-- The state in which the effect of an accepted FIRE starts. -/
def State.drillFired (s : State) (arg : Nat) : State :=
  (State.bump { s with drill := { s.drill with
    st := .active, key := 0, lastFire := some s.ran, result := 0, kind := s.drillKind, page := s.drillPage, arg := arg, lines := [],
    endAt := s.ran + bits (s.reg Reg.drDrillDuration) 13 0 * 1000000, frames := 0, declared := false } }
    Reg.drDrillsFired).raise 592 { status := 0, arg0 := s.drillKind }

theorem State.drillStart_linkDrop (h : s.drillKind = 4) : s.drillStart = (s.drillFired 0).declareDown (s.drillPage - 0x2000) := by
  rw [State.drillKind] at h
  rw [State.drillStart, State.drillFired, State.drillKind, h]; rfl

theorem State.drillStart_frameDrop (h : s.drillKind = 5) : s.drillStart = s.drillFired
    ((if bits (s.reg Reg.drDrillParam) 31 16 = 0 then 65536 else bits (s.reg Reg.drDrillParam) 31 16) * 2 +
      bits (s.reg Reg.drDrillTarget) 28 28) := by
  rw [State.drillKind] at h
  rw [State.drillStart, State.drillFired, State.drillKind, h]; rfl

theorem State.drillStart_twinSilence (h : s.drillKind = 7) : s.drillStart = s.drillFired 0 := by
  rw [State.drillKind] at h
  rw [State.drillStart, State.drillFired, State.drillKind, h]; rfl

/-! ### Ends (R454, R455) -/

/-- The end of a drill that leaves nothing behind but its RESULT. -/
def State.drillEnded (s : State) : State :=
  State.raise { s with drill := { s.drill with st := if s.drill.key = 0 then .idle else .armed, result := 0, lines := [] } }
    593 { status := 0, arg0 := s.drill.kind }

theorem State.drillEnds_idle (h : s.drill.st ≠ .active) (st : Status) : s.drillEnds st = s := if_pos (bne_iff_ne.mpr h)

theorem drillEndOp_idle (h : s.drill.st ≠ .active) : drillEndOp s = s := if_pos (bne_iff_ne.mpr h)

section
variable (hactive : s.drill.st = .active) (hkind : s.drill.kind = 5 ∨ s.drill.kind = 7)
include hactive hkind

theorem State.drillEnds_ended : s.drillEnds .ok = s.drillEnded := by
  rw [State.drillEnds, if_neg (by rw [hactive]; decide)]
  split
  · next h => omega
  · next h => omega
  · rfl

theorem drillEndOp_timed : drillEndOp s = if s.drill.endAt ≤ s.ran then s.drillEnded else s := by
  rw [drillEndOp, if_neg (by rw [hactive]; decide), ← State.drillEnds_ended hactive hkind]
  obtain hkind | hkind := hkind <;> simp only [hkind]

end

/-- Settles O29: arming by its key, a FIRE by the first of its checks that fails, an end by whether the drill is active. -/
theorem drillUnit : Obligations.DrillUnit := by
  intro s hs d kind target page lapsed armed command early counted
  refine ⟨exec_act_eq rfl hs (if_pos rfl), fun key hkey => exec_act_eq rfl hs (drillArmOp_arms hkey),
    fun h => exec_act_eq rfl hs (drillArmLapseOp_armed h), fun h => exec_act_eq rfl hs (drillArmLapseOp_lapsed h), fun key => ?_,
    fun h => ⟨exec_act_eq rfl hs (State.drillEnds_idle h .ok), exec_act_eq rfl hs (drillEndOp_idle h)⟩,
    fun hactive hkind => ⟨exec_act_eq rfl hs (State.drillEnds_ended hactive hkind), fun h => exec_act_eq rfl hs ?_,
      fun h => exec_act_eq rfl hs ?_⟩⟩
  · intro denied busy bad refusal fired
    have refused (st : Status) (h : s.drillCheck key.toNat = st) (hst : st ≠ .ok) :
        exec (.drillFire key) s = .next (settle (refusal st.code)) := exec_act_eq rfl hs (drillFireOp_refused h hst)
    have fires {t : State} (h : s.drillCheck key.toNat = .ok) (ht : s.drillStart = t) : exec (.drillFire key) s = .next (settle t) :=
      exec_act_eq rfl hs ((drillFireOp_fires h).trans ht)
    refine ⟨fun h => refused .denied (State.drillCheck_denied h) (by decide),
      fun hkey h => refused .held (State.drillCheck_held hkey h) (by decide),
      fun hkey hservice h => refused .busy (State.drillCheck_busy hkey hservice h) (by decide),
      fun hkey hservice hbusy h => refused .unsupported (State.drillCheck_unsupported hkey hservice hbusy h) (by decide),
      fun hkey hservice hbusy h => ?_⟩
    have hok : s.drillCheck key.toNat = .ok := State.drillCheck_ok hkey hservice hbusy h
    exact ⟨fun hkind => fires hok (State.drillStart_linkDrop hkind), fun hkind => fires hok (State.drillStart_frameDrop hkind),
      fun hkind => fires hok (State.drillStart_twinSilence hkind)⟩
  · rw [drillEndOp_timed hactive hkind, if_pos h]; rfl
  · rw [drillEndOp_timed hactive hkind, if_neg (Nat.not_le.mpr h)]

end Sys2Proof.Machine
end

section
/-! PROOFS. The power and pace unit: the tick of the VCORE request, polls, and the two rows that move the junction. -/

namespace Sys2Proof.Machine

variable {s : State}

/-! ### The junction (R475, R477) -/

/-- The hottest of the sensors. -/
def hottest (l : List Int) : Int := l.foldl max (l.headD 0)

theorem hottest_cons (x : Int) (l : List Int) : hottest (x :: l) = l.foldl max x := by
  rw [hottest, List.headD_cons, List.foldl_cons, max_self]

theorem State.trip_eq (s : State) (tj : Int) : s.trip tj = if 920 ≤ tj then
    { s with boot := { s.boot with thermtrip := true },
             ctl := { s.ctl with regs := s.ctl.regs.put Reg.ppPpSticky (BitVec.ofNat 64 (s.reg Reg.ppPpSticky ||| 2)) } }
    else s := rfl

/-! ### VCORE_TICK (R472, R475, R476) -/

/-- The request moves towards what is wanted, by at most 25 mV down or 10 mV up. -/
theorem request_moves (req want : Nat) :
    (if want < req then max want (req - 25) else if req < want then min want (req + 10) else req) =
      if want < req then max want (req - 25) else min want (req + 10) := by
  split
  · rfl
  · split <;> omega

/-- The lowest of the four limits. -/
def State.vcoreWant (s : State) (tj : Int) : Nat :=
  min (min s.greyLimit (thermalLimit s.throttleAt s.throttleEnd s.pwr tj))
    (min (powerLimit (s.reg Reg.ppPowerLimit) s.powerMeas s.pwr) (s.reg Reg.ppVcoreTarget))

/-- The power unit after a tick at which the junction is tj. -/
def State.vcoreTicked (s : State) (r : VcoreReading) (tj : Int) : Power :=
  let thermal := thermalLimit s.throttleAt s.throttleEnd s.pwr tj
  let power := powerLimit (s.reg Reg.ppPowerLimit) s.powerMeas s.pwr
  let want := s.vcoreWant tj
  { s.pwr with
    thermal := thermal, power := power,
    req := if want < s.pwr.req then max want (s.pwr.req - 25) else min want (s.pwr.req + 10),
    limit := if want = s.greyLimit then 1 else if want = thermal then 2 else if want = power then 3 else 0,
    tj := tj, unacked := !r.acked, above := decide (s.throttleAt < tj), thermOver := decide (s.throttleAt < tj),
    sensors := r.sensors, lastTick := s.ran }

/-- What a tick counts: the throttled time, and the retry of a write that was not acknowledged. -/
def State.tickCounted (s : State) : State :=
  (s.when (2 ≤ s.pwr.limit) fun v => v.bump64 Reg.ppThrottleNs (s.ran - s.pwr.lastTick)).when s.pwr.unacked fun v =>
    v.bump Reg.ppAvsRetries

theorem vcoreTickOp_due {r : VcoreReading} (hdue : s.since s.pwr.lastTick 1000000 = true) (hsensors : r.sensors ≠ []) :
    vcoreTickOp r s = State.trip { s.tickCounted with
      net := { s.net with sent := s.net.sent ++ [.avs (s.vcoreTicked r (hottest r.sensors)).req] },
      pwr := s.vcoreTicked r (hottest r.sensors) } (hottest r.sensors) := by
  obtain ⟨x, xs, hr⟩ := List.exists_cons_of_ne_nil hsensors
  simp only [vcoreTickOp, if_pos hdue, State.vcoreTicked, ← request_moves, hr, hottest_cons, State.tickCounted]
  cases decide (2 ≤ s.pwr.limit) <;> cases s.pwr.unacked <;> rfl

theorem vcoreTickOp_early (h : s.since s.pwr.lastTick 1000000 = false) (r : VcoreReading) : vcoreTickOp r s = s :=
  if_neg (by rw [h]; decide)

/-! ### PMBUS_POLL (R467) -/

/-- What the answer of one regulator leaves. -/
def State.railPolled (s : State) (r : RailReading) : State :=
  if 8 < r.index then s
  else if r.acked then { s with pwr := { s.pwr with rails := s.pwr.rails.put r.index (Rail.mk r.mV r.amps r.watts r.status) } }
  else s.bump Reg.ppPmbusErr

theorem pmbusPollOp_due (h : s.since s.pwr.lastPoll 1000000 = true) (rs : List RailReading) :
    pmbusPollOp rs s = rs.foldl State.railPolled { s with pwr := { s.pwr with lastPoll := s.ran } } := if_pos h

theorem pmbusPollOp_append (h : s.since s.pwr.lastPoll 1000000 = true) (rs : List RailReading) (r : RailReading) :
    pmbusPollOp (rs ++ [r]) s = (pmbusPollOp rs s).railPolled r := by
  rw [pmbusPollOp_due h, pmbusPollOp_due h, List.foldl_append, List.foldl_cons, List.foldl_nil]

theorem pmbusPollOp_early (h : s.since s.pwr.lastPoll 1000000 = false) (rs : List RailReading) : pmbusPollOp rs s = s :=
  if_neg (by rw [h]; decide)

/-- Settles O17: a tick and a poll where they are due and where they are not, and the trip at the end of each row that moves the
junction. -/
theorem powerRows : Obligations.PowerRows := by
  intro s hs
  refine ⟨fun r hdue hsensors => exec_act_eq rfl hs (vcoreTickOp_due hdue hsensors),
    fun r h => exec_act_eq rfl hs (vcoreTickOp_early h r),
    fun hdue => ⟨exec_act_eq rfl hs (pmbusPollOp_due hdue []), fun rs r => ⟨pmbusPollOp rs s, exec_act_eq rfl hs rfl,
      exec_act_eq rfl hs (pmbusPollOp_append hdue rs r)⟩⟩,
    fun rs h => exec_act_eq rfl hs (pmbusPollOp_early h rs),
    fun tj => ⟨exec_act_eq rfl hs ((s.setTj tj).trip_eq tj), exec_act_eq rfl hs ((s.setTj tj).trip_eq tj)⟩⟩

end Sys2Proof.Machine
end
